-- ==== Sys2Proof/Syntax.lean ====
section
/-! DEFINITION. The commands of the module: one constructor per row of spec/opcode_table.json. -/

namespace Sys2Proof

/-- Where a register access comes from: the management window, firmware, or the window of a realm (R453, R457). -/
inductive Win where
  | mgmt | fw
  | realm (r : Nat)
  deriving DecidableEq, Repr

/-- What the surroundings decide about one run of an operator: the tile that was idle first (R330), words that a read finds
corrected or uncorrectable (R45, R46), a datapath error (R359), how much was written before an error ended it, arrival
orders and partitions of the fast mode (R71, R94, R137), and the cycle counts of the performance counters. -/
structure OpEnv where
  cluster : Nat := 0
  tile : Nat := 0
  bad : List Nat := []
  ce : List Nat := []
  datapath : Bool := false
  cut : Nat := 0
  order : List Nat := []
  parts : List Nat := []
  busy : Nat := 0
  conflict : Nat := 0
  idxWait : Nat := 0
  deriving DecidableEq, Repr

/-- What a serving step's program gives for one sequence (R226, R232, R252): the rows it staged, the FP32 logits of each position
chosen at, the tokens and parents of the tree it proposes, and whether the sequence's own work ended with KV_POISON (R234). -/
structure SeqOut where
  slot : Nat := 0
  rows : List Nat := []
  logits : List (List Nat) := []
  tokens : List Nat := []
  parents : List Nat := []
  poison : Bool := false
  deriving DecidableEq, Repr

/-- An axis of a lane package (R269, R271, R274): its number and group, whether it is marked EXPECT, its words per period, the ingress queue
of a port that its stream filter chooses, the MAC of its model, and the header and ports of its output stream. -/
structure LaneAxis where
  axis : Nat := 0
  group : Nat := 0
  expect : Bool := true
  inWords : Nat := 0
  outWords : Nat := 0
  queue : Nat := 0
  mac : Nat := 0
  header : List Nat := []
  ports : List Nat := []
  deriving DecidableEq, Repr

/-- A group of a lane package (R271, R272): activation rows of an axis, bytes of weights, and its layers as (P_K, P_N) with its vector
cycles, on the tile numbered lower and, when it is split, on the other tile. -/
structure LaneGroup where
  rows : Nat := 1
  weights : Nat := 0
  layers : List (Nat × Nat) := []
  vector : Nat := 0
  layers2 : List (Nat × Nat) := []
  vector2 : Nat := 0
  deriving DecidableEq, Repr

/-- What the model description of a lane package gives (R271, R292): its period and cut-off, axes, groups, initial state, EtherType, PTP
domain, whether its operand pairs and time-sensitive networking tables are valid, and whether it declares changed numerics. -/
structure LanePkg where
  plog : Nat := 0
  cut : Nat := 0
  axes : List LaneAxis := []
  groups : List LaneGroup := []
  init : List Nat := []
  etherType : Nat := 0
  domain : Nat := 0
  pairsOk : Bool := true
  tsnOk : Bool := true
  changed : Bool := false
  seed : Nat := 0
  deriving DecidableEq, Repr

/-- How a part of a video frame ends on its core (R307-R320): an uncorrectable or a corrected core error, the cycles it took, and, for the
last part of a frame, what the codec makes of the frame: an unsupported tool, the units concealed, the bytes of its pool buffer, the mark
words of the buffers after it, the buffers its output process releases, its type, its motion vectors, SATD and kind planes, and for an
encode the bitstreams at the quality level chosen and at QP_MAX. -/
structure VidOut where
  ue : Bool := false
  ce : Bool := false
  cycles : Nat := 0
  unsupported : Bool := false
  concealed : Nat := 0
  picture : List Nat := []
  marks : List (Nat × Nat) := []
  released : List Nat := []
  ftype : Nat := 0
  mv : List (Nat × Nat) := []
  satd : List Nat := []
  kind : List Nat := []
  stream : List Nat := []
  stream2 : List Nat := []
  deriving DecidableEq, Repr

/-- An error that a block without a command of its own detects (R359): its severity, cause, unit and detail. -/
structure ErrIn where
  sev : Nat := 1
  cause : Nat := 0
  kind : Nat := 4
  index : Nat := 0
  detail : Nat := 0
  deriving DecidableEq, Repr

/-- What a register write that runs a command of its own needs from the surroundings: the lane package that INSTALL finds, the step and the
outcome of a trim, whether REPAIR's unit passes, whether a command block cannot be read, and the certificates that CERTS writes. -/
structure RegEnv where
  pkg : Option LanePkg := none
  dir : Nat := 0
  ok : Bool := true
  err : Bool := false
  chain : List Nat := []
  deriving DecidableEq, Repr

/-- A command that reaches the module: a descriptor's action, a write of software or firmware, or an event of the module's own time or of its
surroundings. -/
inductive Instr where
  /-- NOP (R185): A NOP descriptor does nothing and completes. -/
  | nop (r n i : Nat)
  /-- JOB (R187): A JOB descriptor checks its program and runs its operators in program order. -/
  | job (r n i : Nat)
  /-- DMA (R185): A DMA descriptor moves BYTES between host, LPDDR5 and cluster store, sealed under R399 when it names a key slot. -/
  | dma (r n i : Nat)
  /-- SCATTER_KV (R148): Places staged key-value rows into the skein in COUNT or PATH form, all or nothing, then evicts if the profile asks. -/
  | scatterKv (r n i : Nat)
  /-- SERVE_REQUEST (R224): Admits or refuses a serving request, creating its slot and skein. -/
  | serveRequest (r n i : Nat) (err : Bool)
  /-- CANCEL (R241): Acts at fetch on the named request, video frame or descriptor of its realm. -/
  | cancel (r n i : Nat)
  /-- PREFIX_REGISTER (R251): Registers a prefix handle over a request's or skein's first N tokens. -/
  | prefixRegister (r n i : Nat)
  /-- PREFIX_RELEASE (R250): Drops a prefix handle's hold on its owner entries. -/
  | prefixRelease (r n i : Nat)
  /-- MODEL_LOAD (R257): Starts loading and authenticating a model package into an ABSENT model number. -/
  | modelLoad (r n i prof geom policy keep : Nat) (draft : Bool)
  /-- MODEL_EVICT (R258): Evicts a model, waiting for its requests or refusing while in use. -/
  | modelEvict (r n i : Nat)
  /-- VIDEO_FRAME (R300): Submits one frame of a video stream, opening or closing the stream for FRAME_NO 0 or 0xFFFF_FFFF. -/
  | videoFrame (r n i parts : Nat)
  /-- FENCE (R196): Waits until earlier descriptors of its ring and of the named rings have completed. -/
  | fence (r n i : Nat)
  /-- LAUNCH_AT (R197): Holds its ring until a Gauge count. -/
  | launchAt (r n i : Nat)
  /-- LAUNCH_COUNT_REACHED (R197): The Gauge reaches a LAUNCH_AT count; the LAUNCH_AT completes and the next descriptor starts. -/
  | launchCountReached (r n i : Nat)
  /-- SNAPSHOT (R343): Stops the named JOB from starting further operators so its on-die state can be written. -/
  | snapshot (r n i : Nat)
  /-- SNAPSHOT_BOUNDARY (R343): The target's running operators have all ended; the image write starts or the snapshot fails. -/
  | snapshotBoundary (r n i : Nat)
  /-- SNAPSHOT_IMAGE_WRITTEN (R343): The image is written; the target completes SNAPSHOTTED and the SNAPSHOT completes OK. -/
  | snapshotImageWritten (r n i : Nat)
  /-- RESTORE (R346): Checks a snapshot image, loads it and restarts the JOB at NEXT_OP. -/
  | restore (r n i : Nat)
  /-- SWATCH_BEGIN (R349): Starts a swatch run and its handshake with the peer over the Stave chain. -/
  | swatchBegin (r n i : Nat)
  /-- SWATCH_END (R353): Ends the swatch on both modules and reports the final verdict. -/
  | swatchEnd (r n i : Nat)
  /-- SQ_TAIL (R181): Doorbell write of a submission ring's new TAIL. -/
  | sqTail (r n v width : Nat)
  /-- CQ_HEAD (R181): Doorbell write that consumes completion slots. -/
  | cqHead (r n v width : Nat)
  /-- EQ_HEAD (R181): Doorbell write that consumes event slots. -/
  | eqHead (r v width : Nat)
  /-- DESCRIPTOR_FETCH (R175): The module fetches descriptors of a ring in ring order, up to 32 outstanding. -/
  | descriptorFetch (r n : Nat) (err cqErr : Bool)
  /-- DESCRIPTOR_START (R176): A fetched descriptor starts once a completion slot can be reserved, after its checks. -/
  | descriptorStart (r n i : Nat)
  /-- JOB_TIMEOUT (R187): A JOB's time reaches MAX_GT; its operators end as for CANCEL and it ends with TIMEOUT. -/
  | jobTimeout (r n i : Nat)
  /-- MSIX_MESSAGE (R182): The coalescing delay of a ring expires and an MSI-X message is sent. -/
  | msixMessage (r n : Nat)
  /-- EQ_OVERFLOW (R207): Two event slots are free again and the overflow record of a run of drops is written. -/
  | eqOverflow (r : Nat)
  /-- MATMUL (R42): Operator: dense or gathered matrix product into the accumulators and drain. -/
  | matmul (r n i k : Nat) (env : OpEnv)
  /-- SEG_SUM (R70): Operator: segment sum over an index walk. -/
  | segSum (r n i k : Nat) (env : OpEnv)
  /-- SEG_MAX (R70): Operator: segment maximum on the vector unit. -/
  | segMax (r n i k : Nat) (env : OpEnv)
  /-- SEG_MIN (R70): Operator: segment minimum on the vector unit. -/
  | segMin (r n i k : Nat) (env : OpEnv)
  /-- SEG_MEAN (R70): Operator: segment sum divided by the entry count. -/
  | segMean (r n i k : Nat) (env : OpEnv)
  /-- SCATTER_ADD (R71): Operator: adds contribution rows into target rows, ORDERED or UNORDERED. -/
  | scatterAdd (r n i k : Nat) (env : OpEnv)
  /-- MSG (R74): Operator: graph message passing with SUM, MEAN or MAX reducer. -/
  | msg (r n i k : Nat) (env : OpEnv)
  /-- TOPK (R78): Operator: k largest or smallest elements per row. -/
  | topk (r n i k : Nat) (env : OpEnv)
  /-- SORT (R80): Operator: stable radix sort of keys and payloads. -/
  | sort (r n i k : Nat) (env : OpEnv)
  /-- UNIQUE (R81): Operator: distinct keys with counts, first indices and inverse. -/
  | unique (r n i k : Nat) (env : OpEnv)
  /-- GRID_BUILD (R84): Operator: sorts reference points by cell and builds the cell table. -/
  | gridBuild (r n i k : Nat) (env : OpEnv)
  /-- KNN (R82): Operator: k nearest references per query by grid or brute force. -/
  | knn (r n i k : Nat) (env : OpEnv)
  /-- CONV (R105): Operator: convolution on the chosen path: thin-channel engine, space-to-depth or window walk. -/
  | conv (r n i k : Nat) (env : OpEnv)
  /-- MAXPOOL (R96): Operator: window maximum pooling. -/
  | maxpool (r n i k : Nat) (env : OpEnv)
  /-- AVGPOOL (R98): Operator: window average pooling. -/
  | avgpool (r n i k : Nat) (env : OpEnv)
  /-- GLOBAL_AVG (R96): Operator: average over a whole plane. -/
  | globalAvg (r n i k : Nat) (env : OpEnv)
  /-- ELTWISE (R193): Operator: elementwise function on the vector unit. -/
  | eltwise (r n i k : Nat) (env : OpEnv)
  /-- RANDOM (R194): Operator: writes generator bits, uniform values or dropout. -/
  | random (r n i k : Nat) (env : OpEnv)
  /-- ATTN (R131): Operator: attention over skein keys and values with the online-softmax fold. -/
  | attn (r n i k : Nat) (env : OpEnv)
  /-- GROUP (R109): Operator: a fused group of convolution and pooling layers over stripes. -/
  | group (r n i k : Nat) (env : OpEnv)
  /-- TCE_DISPATCH (R103): The thin-channel engine takes the next queued operator when free. -/
  | tceDispatch (c : Nat) (env : OpEnv)
  /-- S2D_REPACK (R108): The space-to-depth repack takes the free scratch region and repacks the input. -/
  | s2dRepack (c : Nat)
  /-- HALO_ROW_WRITE (R112): A producer writes a halo row into its line buffer once room exists and raises PROD_CNT. -/
  | haloRowWrite (c b : Nat)
  /-- HALO_ROW_READ (R112): A consumer reads halo rows once PROD_CNT allows and raises CONS_CNT after its band. -/
  | haloRowRead (c b : Nat)
  /-- LB_TIMEOUT (R118): A line-buffer wait exceeds CLU_LB_TIMEOUT and the group ends. -/
  | lbTimeout (c b : Nat)
  /-- PAGE_FETCH_DONE (R157): A fetch copy completes; the tag is checked and the page becomes RESIDENT, possibly poisoned. -/
  | pageFetchDone (e wait : Nat)
  /-- SPILL_START (R155): Free granules fall below LOW and the hub chooses pages to spill. -/
  | spillStart (r : Nat)
  /-- SPILL_COPY_DONE (R157): A spill copy completes and is sealed; the page becomes SPILLED and its frame is released. -/
  | spillCopyDone (e : Nat)
  /-- DEFERRED_RECLAIM (R166): DEFERRED entries return to the free pool once no older operator runs. -/
  | deferredReclaim (e : Nat)
  /-- RECLAIM_NOW (R166): KVM_CMD command that tests every DEFERRED entry at once. -/
  | reclaimNow (w : Win)
  /-- KVM_CNT_CLR (R171): KVM_CMD command that clears KVM_ERR_ENTRY and the performance counters. -/
  | kvmCntClr (w : Win)
  /-- TIL_CNT_CLR (R53): TIL_CMD command that clears the tile's ECC capture and counters. -/
  | tilCntClr (w : Win) (p : Nat)
  /-- SCRUB_NOW (R47): TIL_CMD command that starts a scrub pass at once. -/
  | scrubNow (w : Win) (p : Nat)
  /-- SCRUB_PASS (R47): The scrub period expires and the scrubber reads and corrects every row. -/
  | scrubPass (p : Nat) (ces : List (Nat × Nat × Nat)) (ues : List Nat)
  /-- COLUMN_SPARE_REWRITE_DONE (R48): The rewrite of a bank through a new column map completes. -/
  | columnSpareRewriteDone (p : Nat)
  /-- HALT (R51): A write of TIL_CTRL.HALT takes the tile to HALTED after its operator, or back to IDLE. -/
  | halt (w : Win) (p : Nat) (on : Bool)
  /-- TIL_CVT_WRITE (R54): A TIL_CVT write is applied to every tile while new JOB starts are held. -/
  | tilCvtWrite (w : Win) (p v : Nat)
  /-- CLU_CTRL_WRITE (R121): A CLU_CTRL write is applied to every cluster as TIL_CVT is. -/
  | cluCtrlWrite (w : Win) (c v : Nat)
  /-- LB_FLUSH (R119): CLU_CMD command that empties every line buffer and aborts running groups. -/
  | lbFlush (w : Win) (c : Nat)
  /-- CLU_CNT_CLR (R120): CLU_CMD command that clears CLU_LB_STALL and the performance counters. -/
  | cluCntClr (w : Win) (c : Nat)
  /-- RING_RESET (R210): RING_CMD command that resets the selected ring pair, cancelling started descriptors. -/
  | ringReset (w : Win) (r : Nat)
  /-- EQ_RESET (R210): RING_CMD command that resets the event ring indices. -/
  | eqReset (w : Win) (r : Nat)
  /-- RING_CNT_CLR (R218): RING_CMD command that clears RING_EQ_DROP and RING_PERF_DONE. -/
  | ringCntClr (w : Win) (r : Nat)
  /-- QUEUE_ITEM_ARRIVE (R212): An item reaches an internal queue and is admitted whole or dropped. -/
  | queueItemArrive (q : Nat) (ws : List Nat)
  /-- GAP_MARKER_ENTER (R213): A pending gap marker enters the chain once an entry is free. -/
  | gapMarkerEnter (q : Nat)
  /-- QUEUE_WORD_READ (R215): The reader takes a word of an internal queue, checking parity. -/
  | queueWordRead (q : Nat) (flip : Bool)
  /-- SELECT (R229): A serving step chooses its model and places READY requests. -/
  | select (r : Nat)
  /-- SAMPLE (R232): The step program has run; each sequence's next token is chosen and COMMIT begins. -/
  | sample (r : Nat) (outs : List SeqOut)
  /-- STEP_RETRY (R234): A CONTAINED error ends a step operator; the step is discarded and rerun or fails. -/
  | stepRetry (r : Nat)
  /-- COMMIT_POINT (R226): The last SCATTER_KV of a step completes; tokens commit, epoch and step count rise. -/
  | commitPoint (r : Nat) (cancels : List (Nat × Nat))
  /-- SLOT_FREE (R246): An ended request's slot frees once every step operator naming it has ended. -/
  | slotFree (slot : Nat)
  /-- ACCOUNT_LEVEL_REFILL (R235): Every 65,536 gt each account's LEVEL rises by RATE up to its burst. -/
  | accountLevelRefill
  /-- DEADLINE_PASS (R244): A waiting request's deadline passes; it is marked late or dropped. -/
  | deadlinePass (slot : Nat)
  /-- MODEL_LOAD_DONE (R257): A model package is in place and authenticated, or fails; waiting requests move on. -/
  | modelLoadDone (m : Nat)
  /-- MODEL_EVICT_DONE (R258): An EVICTING model's last request ends and its region is freed. -/
  | modelEvictDone (m : Nat)
  /-- SRV_CNT_CLR (R263): SRV_CMD command that clears the performance counters. -/
  | srvCntClr (w : Win)
  /-- ACC_REFILL (R235): SRV_CMD command that sets the selected account's LEVEL to its burst. -/
  | accRefill (w : Win)
  /-- INSTALL (R271): CTL_CMD command that installs the lane package, standby half first. -/
  | install (w : Win) (pkg : Option LanePkg)
  /-- REPAIR (R283): CTL_CMD command that takes a lane half from OFF or FAILED to SCRUB. -/
  | repair (w : Win) (h : Nat)
  /-- LANE_RETIRE (R283): CTL_CMD command that takes a non-ACTIVE lane half to OFF. -/
  | laneRetire (w : Win) (h : Nat)
  /-- SWAP_ARM (R291): CTL_CMD command that arms a planned swap at a Gauge count. -/
  | swapArm (w : Win)
  /-- SWAP_CANCEL (R291): CTL_CMD command that disarms a planned swap. -/
  | swapCancel (w : Win)
  /-- ACK_LOST (R289): CTL_CMD command that clears LOST and ends STALE answers. -/
  | ackLost (w : Win)
  /-- CTL_CNT_CLR (R294): CTL_CMD command that clears the lane performance counters. -/
  | ctlCntClr (w : Win)
  /-- Q_FLUSH (R217): CTL_CMD command that flushes the selected ingress queue. -/
  | qFlush (w : Win)
  /-- LANE_EN_WRITE (R295): A write of CTL_CTRL.LANE_EN brings the halves in or takes both to OFF. -/
  | laneEnWrite (w : Win) (v : Nat)
  /-- GRID_WRITE (R270): A write of CTL_GRID_HI makes the new period grid take effect. -/
  | gridWrite (w : Win) (v : Nat)
  /-- PERIOD_START (R270): A control period starts on the Gauge or gPTP grid. -/
  | periodStart (at_ : Nat)
  /-- LANE_FRAME_RX (R278): A lane frame arrives at a control port and enters an ingress queue or is dropped. -/
  | laneFrameRx (port q hdr : Nat) (ws : List Nat)
  /-- PTP_FRAME_RX (R268): A frame of the PTP instance arrives at a control port. -/
  | ptpFrameRx (port domain : Nat) (sync : Bool)
  /-- INGRESS_READ (R278): The ingress engine reads a queued item into the input slots of both halves. -/
  | ingressRead (q : Nat) (flips : List Bool)
  /-- PERIOD_LAUNCH (R274): A period launches at the cut-off or when every EXPECT axis holds a frame. -/
  | periodLaunch
  /-- EVALUATION_DONE (R275): The active half finishes evaluating and hands output frames to egress. -/
  | evaluationDone (outs : List (Nat × List Nat)) (bytes : List Nat) (check : Option Nat) (lat : Nat)
  /-- HOLD_FRAMES (R276): At H_k the egress unit sends HOLD frames for axes without a live frame. -/
  | holdFrames
  /-- CLAIM (R281): A half announces a claim and the egress unit accepts or ignores it. -/
  | claim (h c : Nat)
  /-- STATE_COPY_RECEIVE (R285): The standby half receives a state copy, checks its CRC and commits it. -/
  | stateCopyReceive (good : Bool)
  /-- TAKEOVER (R285): The holder's claim drops to 0 or no copy passes by C_k; the standby takes the claim. -/
  | takeover
  /-- HALF_SCRUB_DONE (R283): A half's tile stores and partition are cleared and checked. -/
  | halfScrubDone (h : Nat)
  /-- HALF_SELFTEST_DONE (R283): A half's self-test ends, passing to LOAD or failing. -/
  | halfSelftestDone (h : Nat) (pass : Bool)
  /-- HALF_LOAD_DONE (R283): A half has loaded microcode and weights and moves to SHADOW or ACTIVE. -/
  | halfLoadDone (h : Nat)
  /-- SHADOW_COMPARE (R283): A shadowing half compares its period with the holder's copy. -/
  | shadowCompare (outs : List (Nat × List Nat)) (bytes : List Nat)
  /-- CHECKPOINT_WRITE (R288): The active half's checkpoint write completes or fails. -/
  | checkpointWrite (ok : Bool)
  /-- LINK_CHANGE (R290): A control port's link changes state; flaps may quarantine it. -/
  | linkChange (p : Nat) (up : Bool)
  /-- UP_HOLD_EXPIRY (R290): A port's link has been stable for UP_HOLD and is taken into use. -/
  | upHoldExpiry (p : Nat)
  /-- QUARANTINE_END (R290): A quarantined port's FLAP_HOLD expires. -/
  | quarantineEnd (p : Nat)
  /-- TS_UNLOCK (R270): A follower has no valid synchronisation for three sync intervals. -/
  | tsUnlock
  /-- PART_DISPATCH (R305): A free codec core takes the ready part of lowest class. -/
  | partDispatch (core : Nat)
  /-- PART_DONE (R314): A part ends on its core; the frame completes when its last part does. -/
  | partDone (core : Nat) (o : VidOut)
  /-- STRM_KILL (R300): VID_CMD command that puts the selected stream into ERROR after its running part. -/
  | strmKill (w : Win)
  /-- VID_CNT_CLR (R325): VID_CMD command that clears the video performance counters. -/
  | vidCntClr (w : Win)
  /-- GEN_RUN (R335): DET_CMD command that samples the generator inputs and starts a computation. -/
  | genRun (w : Win)
  /-- GEN_DONE (R335): The generator computation finishes and DET_GEN_OUT becomes valid. -/
  | genDone (r : Nat)
  /-- DET_CNT_CLR (R356): DET_CMD command that clears the determinism performance counters. -/
  | detCntClr (w : Win)
  /-- SWATCH_ABORT (R353): DET_CMD command that ends a running swatch as SWATCH_END does. -/
  | swatchAbort (w : Win)
  /-- DIGEST_DONE (R341): The digest engine finishes hashing the output regions and the result digest is formed. -/
  | digestDone (r n i : Nat) (err : Bool)
  /-- SIGNATURE_DONE (R342): The root of trust signs a digest and the signature is written. -/
  | signatureDone (r n i : Nat) (fail : Bool)
  /-- SWATCH (R351): A SWATCH message of handshake, unit or verdict arrives over the Stave chain. -/
  | swatch
  /-- SWATCH_UNIT_AGE (R351): A unit alone in the match table for AGE leaves it as unmatched. -/
  | swatchUnitAge
  /-- SWATCH_PEER_SILENCE (R352): No swatch message arrives from the peer for WAIT. -/
  | swatchPeerSilence
  /-- ERROR_HANDLING (R361): Firmware takes the next reported error and handles it at its containment scope. -/
  | errorHandling (found : Option ErrIn) (ok : Bool) (row chan : Nat)
  /-- TILE_RECOVERY_DONE (R361): A faulted tile's scrub and self-test end; it returns to IDLE or retires. -/
  | tileRecoveryDone (p : Nat) (pass : Bool)
  /-- CHANNEL_COPY_DONE (R370): A retiring channel's copy into the reserve completes. -/
  | channelCopyDone
  /-- RETIRE_HALTED (R366): A commanded retirement's tile or cluster has finished its running work and is retired. -/
  | retireHalted (kind index : Nat)
  /-- KNOWN_ANSWER_PASS (R359): Every 10 s each idle or spare tile runs its known-answer pass. -/
  | knownAnswerPass (fails : List Nat)
  /-- HEALTH_HOUR (R372): An hour passes and scores and hourly correction limits update. -/
  | healthHour
  /-- STATE_DWELL_EXPIRY (R374): A condition holds for DWELL and the reported module state changes. -/
  | stateDwellExpiry
  /-- MESSAGE_REJECT (R378): A sender receives a message rejected for a role-epoch mismatch and resends or ends the work. -/
  | messageReject (second : Bool) (p : Nat) (half : Option Nat)
  /-- MGMT_WARM_RESTART (R359): The management processor completes a warm restart of firmware. -/
  | mgmtWarmRestart (settings : Nat)
  /-- FLT_CNT_CLR (R385): FLT_CMD command that clears the fault performance counters. -/
  | fltCntClr (w : Win)
  /-- RETIRE (R366): FLT_CMD command that retires the tile or cluster named by FLT_UNIT_SEL. -/
  | retire (w : Win)
  /-- FLT_REPAIR (R371): FLT_CMD command that scrubs and tests a retired unit and makes it a spare. -/
  | fltRepair (w : Win) (pass : Bool)
  /-- FREEZE (R381): A freeze trigger stops every clock when the root of trust has armed it. -/
  | freeze (w : Win)
  /-- OWNER_SET (R388): Management command that sets a new owner key. -/
  | ownerSet (w : Win) (err : Bool)
  /-- OWNER_CLEAR (R388): Management command that clears the owner and scrubs every realm. -/
  | ownerClear (w : Win) (err : Bool)
  /-- REALM_CREATE (R391): Management command that grants resources to a realm and makes it ACTIVE after clears. -/
  | realmCreate (w : Win) (err : Bool)
  /-- REALM_DESTROY (R394): Management command that empties a realm's keys, ends its work and clears its resources. -/
  | realmDestroy (w : Win) (err : Bool)
  /-- REALM_CLEAR_DONE (R394): Every clear of a created or destroyed realm completes and its state changes. -/
  | realmClearDone (r : Nat)
  /-- FW_ACTIVATE (R412): Management command that arms a staged image for a Gauge count. -/
  | fwActivate (w : Win) (err : Bool)
  /-- FW_DISARM (R411): Management command that returns an ARMED update to STAGED. -/
  | fwDisarm (w : Win) (err : Bool)
  /-- DEBUG_ARM (R409): Management command that arms MASKED or FULL debug and freeze until an expiry count. -/
  | debugArm (w : Win) (err : Bool)
  /-- DEBUG_DISARM (R409): Management command that disarms debug. -/
  | debugDisarm (w : Win) (err : Bool)
  /-- DEBUG_EXPIRY (R409): The Gauge reaches the armed debug mode's expiry count. -/
  | debugExpiry
  /-- SEC_CNT_CLR (R419): SEC_CMD command that clears SEC_PERF_REJECT. -/
  | secCntClr (w : Win)
  /-- PROVISION (R398): Realm request that agrees or imports a key into a slot by ECDH. -/
  | provision (r mode use slot : Nat)
  /-- CLEAR (R398): Realm request that empties a key slot. -/
  | clear (r slot : Nat)
  /-- ATTEST (R408): Realm request that writes a signed attestation report. -/
  | attest (r : Nat)
  /-- CERTS (R407): Realm request that writes the certificate chain. -/
  | certs (r : Nat) (chain : List Nat)
  /-- LOAD (R411): FWU_CMD command that reads an update package and starts VERIFY. -/
  | load (w : Win)
  /-- FWU_ABORT (R411): FWU_CMD command that abandons an update before ARMED. -/
  | fwuAbort (w : Win)
  /-- VERIFY_DONE (R411): Package verification ends, moving to APPLY or IDLE. -/
  | verifyDone (err : Bool)
  /-- APPLY_DONE (R411): The new image is written into the other slot and checked against TO_MEAS. -/
  | applyDone (err : Bool) (meas : List Nat) (size ucode : Nat)
  /-- ACTIVATION (R413): The Gauge reaches the activation count and the new image starts in TRIAL. -/
  | activation
  /-- MICROCODE_LOAD (R413): A tile loads new microcode when next IDLE with no earlier JOB queued. -/
  | microcodeLoad (p : Nat)
  /-- CONFIRM (R414): The new image confirms itself and the security version is fused. -/
  | confirm
  /-- CONFIRM_WINDOW_EXPIRY (R411): The confirmation window ends without confirmation and a fall-back is due. -/
  | confirmWindowExpiry
  /-- FALLBACK (R415): At the next safe point the old image returns. -/
  | fallback (lost : Bool)
  /-- DRAWER_ACCRUAL (R417): The Drawer write budget accrues to its shares and spilling may resume. -/
  | drawerAccrual
  /-- RETRIM (R426): CLK_CMD command that runs a trim of the RC oscillator at once. -/
  | retrim (w : Win) (dir : Nat) (ok : Bool)
  /-- RC_TRIM (R426): Every 10 ms the RC oscillator is trimmed by at most one step. -/
  | rcTrim (dir : Nat) (ok : Bool)
  /-- FREQUENCY_MONITOR_WINDOW (R425): A 64 µs monitor window ends and each domain is checked. -/
  | frequencyMonitorWindow (bad : List Nat)
  /-- REF_LOSS (R425): The tray reference is lost and the loops hold. -/
  | refLoss
  /-- REF_BACK (R425): A returned reference passes its stability check and the loops pull back. -/
  | refBack
  /-- CLOCK_RAMP_DONE (R427): A source or divider change completes. -/
  | clockRampDone
  /-- LOW_POWER_WRITE (R423): A change of CLK_CTRL.LOW_POWER starts the divider change of tiles and clusters. -/
  | lowPowerWrite (w : Win) (on : Bool)
  /-- GATE_WRITE (R428): A write of CLK_GATE or CLK_TILE_GATE gates or ungates blocks. -/
  | gateWrite (w : Win) (tiles : Bool) (v : Nat)
  /-- GATE_PEND_APPLY (R428): A pending gate takes effect when its block's work ends. -/
  | gatePendApply
  /-- REALIGN (R430): GAU_CMD command that takes the Gauge to ALIGNING. -/
  | realign (w : Win)
  /-- GAUGE_READ (R429): A read of GAU_COUNT_LO latches the upper Gauge bits. -/
  | gaugeRead (w : Win)
  /-- STAVE_FRAME_RX (R437): A Stave frame arrives; the module aligns its Gauge, handles slots and forwards it. -/
  | staveFrameRx (odd : Bool) (body : List Nat) (arr t : Nat)
  /-- GAUGE_HOLDOVER (R430): No good frame for 8 frames takes the Gauge to HOLDOVER. -/
  | gaugeHoldover
  /-- FRAME_MARK (R432): The master's Gauge reaches a mark and it starts a frame. -/
  | frameMark (latency : Nat)
  /-- RING_OPEN (R434): The master receives none of its frames for 3 frames. -/
  | ringOpen
  /-- ATTACH (R435): With the die running and ATTACH_EN set the module starts attaching to the chain. -/
  | attach
  /-- ENUM (R436): STV_CMD command that starts an enumeration round on the master. -/
  | enum (w : Win)
  /-- ENUM_ROUND_END (R436): The 8 ms enumeration round ends and modules are counted. -/
  | enumRoundEnd
  /-- LAUNCH_SEND (R440): STV_CMD command that broadcasts a LAUNCH message. -/
  | launchSend (w : Win)
  /-- LAUNCH (R440): A LAUNCH message arrives and its count is stored. -/
  | launch
  /-- ACT_SEND (R441): STV_CMD command that sends the activation list to the chain. -/
  | actSend (w : Win)
  /-- ACTIVATE (R441): An ACTIVATE message delivers an FW_ACTIVATE block to the root of trust. -/
  | activate
  /-- STATE (R439): A STATE message arrives and updates the chain map. -/
  | state
  /-- STATE_SEND (R439): Every 1,024 frames the module sends its STATE message. -/
  | stateSend
  /-- STV_CNT_CLR (R444): STV_CMD command that clears the Stave performance counters. -/
  | stvCntClr (w : Win)
  /-- CRC_NOW (R462): GLB_CMD command that starts a configuration CRC computation. -/
  | crcNow (w : Win)
  /-- CRC_COMMIT (R464): GLB_CMD command that computes the CRC and commits it as reference. -/
  | crcCommit (w : Win)
  /-- CRC_PERIODIC (R462): Every 65,536 gt a configuration CRC computation starts. -/
  | crcPeriodic
  /-- CRC_DONE (R463): A CRC computation ends and is compared, mismatches recorded and restored. -/
  | crcDone
  /-- CRC_REF_WRITE (R464): A write of GLB_CFG_CRC_REF commits the reference. -/
  | crcRefWrite (w : Win) (v : Nat)
  /-- HOLD_STUCK (R465): A CRC hold stays set for 10 s. -/
  | holdStuck (fw : Bool)
  /-- RESET_ARM (R446): GLB_CMD command that arms a module reset for 1 ms. -/
  | resetArm (w : Win)
  /-- RESET_GO (R446): GLB_CMD command that resets the module when armed. -/
  | resetGo (w : Win)
  /-- REGISTER_WRITE (R457): A write to a register without a row of its own, taking effect directly or as a register request. -/
  | registerWrite (w : Win) (off size v : Nat) (env : RegEnv)
  /-- REGISTER_REQUEST_APPLY (R457): Firmware applies the next register request in arrival order. -/
  | registerRequestApply (env : RegEnv)
  /-- SQC_WRITE (R460): A write to an SQC register clears status bits by sequence. -/
  | sqcWrite (w : Win) (off v : Nat)
  /-- SQC_READ (R459): A read of an SQC register lets its sequence counter advance at the next event. -/
  | sqcRead (w : Win) (off : Nat)
  /-- POWER_ON_RESET (R446): Both rails rise into their limits and the whole die resets. -/
  | powerOnReset (head bench : Bool)
  /-- REF_STABLE (R448): The tray reference is judged stable against the RC oscillator. -/
  | refStable
  /-- PLL_STABLE (R448): The four loops are stable; the Gauge counts and the host interface is released. -/
  | pllStable
  /-- IMAGE_VERIFIED (R451): The root of trust verifies the running image or falls to the other slot or RECOVERY. -/
  | imageVerified (ok okOther : Bool)
  /-- LPDDR5_TRAINED (R448): LPDDR5 training completes, retiring a failed channel. -/
  | lpddr5Trained (failed : List Nat)
  /-- MEMORY_CLEAR_DONE (R448): LPDDR5 zeroing, store scrubs and tile self-tests complete. -/
  | memoryClearDone (fails : List Nat)
  /-- SETTINGS_RESTORED (R452): Settings and realm grants are restored and READY is set. -/
  | settingsRestored (us : Nat)
  /-- RESET_N_CHANGE (R497): The filtered RESET_N level changes, holding or releasing the module reset. -/
  | resetNChange (asserted : Bool) (t : Nat)
  /-- FREEZE_N_ASSERT (R497): A filtered assertion of FREEZE_N triggers a freeze. -/
  | freezeNAssert (t : Nat)
  /-- ALERT_N_CHANGE (R497): The filtered ALERT_N level changes, holding survival power while asserted. -/
  | alertNChange (asserted : Bool) (t : Nat)
  /-- SIDEBAND_STUCK (R498): An input asserted for 10 s is treated as stuck. -/
  | sidebandStuck (i : Nat)
  /-- SIDEBAND_FAST_END (R499): A fast input stops being fast after a quiet 100 ms. -/
  | sidebandFastEnd (i : Nat)
  /-- HOST_LINK_RESET (R447): PERST_N, hot reset, link-down or FLR stops every ring and resets the host interface. -/
  | hostLinkReset
  /-- LINK_TRAINING (R449): PERST_N deasserts and the host interface trains the link. -/
  | linkTraining (dead heard : List Nat) (far width : Nat)
  /-- LANE_FAIL (R475): A lane fails while the link is up and is added to the record. -/
  | laneFail (lane : Nat)
  /-- LANE_RECORD_CLEAR (R476): A write of the capability's CLEAR bit empties the lane record at the next census. -/
  | laneRecordClear
  /-- MAIN_DIP (R479): P12V falls below 10.8 V and the module steps to survival power. -/
  | mainDip (volt : Nat)
  /-- MAIN_RETURN (R479): P12V returns above 11.2 V within 5 ms. -/
  | mainReturn
  /-- DIP_RECOVERY_EXPIRY (R479): One second after the rail returns the module leaves survival power. -/
  | dipRecoveryExpiry
  /-- MAIN_LOSS (R479): P12V stays low for 5 ms or falls below 9.6 V and the supervisor removes power. -/
  | mainLoss
  /-- AUX_LOST (R480): P3V3_AUX is lost while P12V is present. -/
  | auxLost
  /-- COOLANT_RECORD_READ (R487): Every 1 ms the coolant record is read and, if accepted, sets the coolant cap. -/
  | coolantRecordRead (b : List Nat)
  /-- COOLANT_IBI (R487): The coolant monitor's in-band interrupt triggers an immediate record read. -/
  | coolantIbi (b : List Nat)
  /-- COOLANT_STALE (R488): No record is accepted for 100 ms and the cap falls to 150 W. -/
  | coolantStale
  /-- SURVIVAL_EXIT (R492): Ten seconds of good coolant and temperatures end survival power. -/
  | survivalExit
  /-- JUNCTION_READ (R494): Every 100 µs the hot spots are read and the thresholds applied. -/
  | junctionRead (rs : List (Option Int × Option Int))
  /-- JUNCTION_SHUTDOWN (R494): At 125 °C the supervisor removes power from the die. -/
  | junctionShutdown
  /-- POWER_MEASURE (R482): Every 10 µs input power is measured and held under the cap. -/
  | powerMeasure (power volt : Nat)
  /-- ENVELOPE_UPDATE (R484): Every 100 ms the power envelope moves towards demand within the ramp bound. -/
  | envelopeUpdate (demand : Nat) (rlm : List Nat)
  /-- FREEZE_N_DEASSERT (R498): The filtered FREEZE_N level changes to deasserted, ending its stuck state and counting as a change for the fast-input rule. -/
  | freezeNDeassert (t : Nat)
  /-- PLL_UNLOCK (R425): A phase-locked loop loses lock after start and sets CLK_STS.PLL_UNLOCK. -/
  | pllUnlock (loop : Nat)
  deriving DecidableEq, Repr

end Sys2Proof
end

