-- ==== Sys2Proof/Machine/Tab.lean ====
section
/-! DEFINITION. Sparse tables and the byte memory: sorted lists in one canonical form, which list no entry equal to what an unlisted key reads as. -/

namespace Sys2Proof.Machine

/-- A sparse table: keys strictly rising, values other than the default of their key. -/
abbrev Tab (α : Type) := List (Nat × α)

/-- The value at a key; `d` gives what an unlisted key holds. -/
def Tab.get {α : Type} (d : Nat → α) : Tab α → Nat → α
  | [], k => d k
  | (k', v) :: t, k => if k' = k then v else Tab.get d t k

/-- Insert or replace, keeping the keys in order. -/
def Tab.put {α : Type} (k : Nat) (v : α) : Tab α → Tab α
  | [] => [(k, v)]
  | (k', v') :: t => if k < k' then (k, v) :: (k', v') :: t else if k' = k then (k, v) :: t else (k', v') :: Tab.put k v t

/-- Remove a key. -/
def Tab.del {α : Type} (k : Nat) : Tab α → Tab α
  | [] => []
  | (k', v') :: t => if k' = k then Tab.del k t else (k', v') :: Tab.del k t

/-- Write a value: the default of a key is not listed. -/
def Tab.set {α : Type} [DecidableEq α] (d : Nat → α) (k : Nat) (v : α) (t : Tab α) : Tab α :=
  if v = d k then Tab.del k t else Tab.put k v t

/-- Keys strictly rising from a bound. -/
def Tab.sortedFrom {α : Type} : Nat → Tab α → Bool
  | _, [] => true
  | b, (k, _) :: t => decide (b ≤ k) && Tab.sortedFrom (k + 1) t

/-- The canonical form of a table. -/
def Tab.wf {α : Type} [DecidableEq α] (d : Nat → α) (t : Tab α) : Bool :=
  Tab.sortedFrom 0 t && t.all (fun e => decide (e.2 ≠ d e.1))

/-- Optional entries: a table whose unlisted keys hold nothing. -/
def Tab.find {α : Type} (k : Nat) : Tab α → Option α
  | [] => none
  | (k', v) :: t => if k' = k then some v else Tab.find k t

/-- Change the entry at a key, if there is one. -/
def Tab.upd {α : Type} (k : Nat) (f : α → α) : Tab α → Tab α
  | [] => []
  | (k', v) :: t => if k' = k then (k', f v) :: t else (k', v) :: Tab.upd k f t

/-- Change every entry. -/
def Tab.updAll {α : Type} (f : Nat → α → α) (t : Tab α) : Tab α := t.map (fun e => (e.1, f e.1 e.2))

/-- The lowest key not below `b` that the table does not list, tried `n` times. -/
def Tab.freeKey {α : Type} (t : Tab α) : Nat → Nat → Option Nat
  | 0, _ => none
  | n + 1, b => if (Tab.find b t).isNone then some b else Tab.freeKey t n (b + 1)

/-! ### Memory -/

/-- The byte memory: every store of the module in one address line, with unlisted bytes zero. -/
abbrev Memory := List Host.Cell

/-- What an unlisted byte reads as: the spec writes LPDDR5 with zero and scrubs the stores (R448, R394); for host memory
and the Drawer it is the model's DESIGN CHOICE (log entries 6 and 7). -/
def memDefault (_ : Nat) : Byte := 0

def Memory.read (m : Memory) (a : Nat) : Byte := Tab.get memDefault m a
def Memory.write (m : Memory) (a : Nat) (v : Byte) : Memory := Tab.set memDefault a v m
abbrev Memory.wf (m : Memory) : Prop := Tab.wf memDefault m = true

/-- `n` bytes from an address. -/
def Memory.bytes (m : Memory) : Nat → Nat → List Nat
  | _, 0 => []
  | a, n + 1 => (m.read a).toNat :: Memory.bytes m (a + 1) n

/-- Store bytes from an address. -/
def Memory.store (m : Memory) : Nat → List Nat → Memory
  | _, [] => m
  | a, b :: t => Memory.store (m.write a (BitVec.ofNat 8 b)) (a + 1) t

/-- A little-endian number of `n` bytes. -/
def leNum : List Nat → Nat
  | [] => 0
  | b :: t => b + 256 * leNum t

def Memory.num (m : Memory) (a n : Nat) : Nat := leNum (m.bytes a n)

/-- The `n` bytes of a number, little-endian. -/
def leBytes : Nat → Nat → List Nat
  | 0, _ => []
  | n + 1, v => v % 256 :: leBytes n (v / 256)

/-- Where each store lies in the one address line of the model (log entry 13): host memory has its first 2^65 bytes, so that an access that
runs past its last address, 2^64 - 1, meets no store of the module. -/
def hostBase : Nat := 0
def lpddrBase : Nat := 2 ^ 65
def drawerBase : Nat := 2 ^ 66
def clusterBase (c : Nat) : Nat := 2 ^ 67 + c * 2 ^ 24
def tileBase (p : Nat) : Nat := 2 ^ 68 + p * 2 ^ 21

/-- Sorted set of numbers. -/
def insertKey (k : Nat) : List Nat → List Nat
  | [] => [k]
  | x :: t => if k < x then k :: x :: t else if k = x then x :: t else x :: insertKey k t

end Sys2Proof.Machine
end

