-- ==== Sys2Proof/Machine/Crypto.lean ====
section
/-! DEFINITION. The cryptographic functions and checks that the manual names by their standards (log entry 11: PRESUMED from those
standards): SHA-256, HMAC, HKDF, AES-256-GCM, ECDSA and ECDH on P-256, CRC-32C, CRC-16. Bytes are lists of numbers below 256. -/

namespace Sys2Proof.Machine

/-! ### Words of 32 bits -/

def w32 (n : Nat) : Nat := n % 2 ^ 32
def rotr32 (x k : Nat) : Nat := x / 2 ^ k + x % 2 ^ k * 2 ^ (32 - k)
def not32 (x : Nat) : Nat := 2 ^ 32 - 1 - x
def beNum (l : List Nat) : Nat := l.foldl (fun a b => a * 256 + b) 0
def beBytes (n v : Nat) : List Nat := (leBytes n v).reverse
def xorBytes (a b : List Nat) : List Nat := (a.zip b).map (fun y => Nat.xor y.1 y.2)

/-- Pieces of a byte list. -/
def piecesAux (n : Nat) : Nat → List Nat → List (List Nat)
  | 0, _ => []
  | _, [] => []
  | k + 1, l => l.take n :: piecesAux n k (l.drop n)

def pieces (n : Nat) (l : List Nat) : List (List Nat) := piecesAux n l.length l

/-! ### SHA-256 -/

def shaK : List Nat :=
  [0x428a2f98, 0x71374491, 0xb5c0fbcf, 0xe9b5dba5, 0x3956c25b, 0x59f111f1, 0x923f82a4, 0xab1c5ed5,
   0xd807aa98, 0x12835b01, 0x243185be, 0x550c7dc3, 0x72be5d74, 0x80deb1fe, 0x9bdc06a7, 0xc19bf174,
   0xe49b69c1, 0xefbe4786, 0x0fc19dc6, 0x240ca1cc, 0x2de92c6f, 0x4a7484aa, 0x5cb0a9dc, 0x76f988da,
   0x983e5152, 0xa831c66d, 0xb00327c8, 0xbf597fc7, 0xc6e00bf3, 0xd5a79147, 0x06ca6351, 0x14292967,
   0x27b70a85, 0x2e1b2138, 0x4d2c6dfc, 0x53380d13, 0x650a7354, 0x766a0abb, 0x81c2c92e, 0x92722c85,
   0xa2bfe8a1, 0xa81a664b, 0xc24b8b70, 0xc76c51a3, 0xd192e819, 0xd6990624, 0xf40e3585, 0x106aa070,
   0x19a4c116, 0x1e376c08, 0x2748774c, 0x34b0bcb5, 0x391c0cb3, 0x4ed8aa4a, 0x5b9cca4f, 0x682e6ff3,
   0x748f82ee, 0x78a5636f, 0x84c87814, 0x8cc70208, 0x90befffa, 0xa4506ceb, 0xbef9a3f7, 0xc67178f2]

def shaInit : List Nat :=
  [0x6a09e667, 0xbb67ae85, 0x3c6ef372, 0xa54ff53a, 0x510e527f, 0x9b05688c, 0x1f83d9ab, 0x5be0cd19]

/-- The message schedule, newest word first. -/
def shaSched : Nat → List Nat → List Nat
  | 0, w => w
  | k + 1, w =>
    let a := w.getD 1 0
    let b := w.getD 14 0
    let s1 := Nat.xor (Nat.xor (rotr32 a 17) (rotr32 a 19)) (a / 2 ^ 10)
    let s0 := Nat.xor (Nat.xor (rotr32 b 7) (rotr32 b 18)) (b / 2 ^ 3)
    shaSched k (w32 (w.getD 15 0 + s0 + w.getD 6 0 + s1) :: w)

structure Sha where
  a : Nat
  b : Nat
  c : Nat
  d : Nat
  e : Nat
  f : Nat
  g : Nat
  h : Nat

def Sha.round (x : Sha) (k w : Nat) : Sha :=
  let s1 := Nat.xor (Nat.xor (rotr32 x.e 6) (rotr32 x.e 11)) (rotr32 x.e 25)
  let ch := Nat.xor (Nat.land x.e x.f) (Nat.land (not32 x.e) x.g)
  let t1 := x.h + s1 + ch + k + w
  let s0 := Nat.xor (Nat.xor (rotr32 x.a 2) (rotr32 x.a 13)) (rotr32 x.a 22)
  let mj := Nat.xor (Nat.xor (Nat.land x.a x.b) (Nat.land x.a x.c)) (Nat.land x.b x.c)
  ⟨w32 (t1 + s0 + mj), x.a, x.b, x.c, w32 (x.d + t1), x.e, x.f, x.g⟩

def shaBlock (h : List Nat) (blk : List Nat) : List Nat :=
  let ws := (shaSched 48 ((pieces 4 blk).map beNum).reverse).reverse
  let i : Sha := ⟨h.getD 0 0, h.getD 1 0, h.getD 2 0, h.getD 3 0, h.getD 4 0, h.getD 5 0, h.getD 6 0, h.getD 7 0⟩
  let o := (shaK.zip ws).foldl (fun x y => x.round y.1 y.2) i
  (h.zip [o.a, o.b, o.c, o.d, o.e, o.f, o.g, o.h]).map (fun y => w32 (y.1 + y.2))

def sha256 (m : List Nat) : List Nat :=
  let n := m.length
  let pad := (119 - n % 64) % 64
  (((pieces 64 (m ++ [0x80] ++ List.replicate pad 0 ++ beBytes 8 (8 * n))).foldl shaBlock shaInit).map (beBytes 4)).flatten

def hmac (key msg : List Nat) : List Nat :=
  let k := if 64 < key.length then sha256 key else key
  let k := k ++ List.replicate (64 - k.length) 0
  sha256 (k.map (Nat.xor 0x5c) ++ sha256 (k.map (Nat.xor 0x36) ++ msg))

def hkdfExpand (prk info : List Nat) : Nat → Nat → List Nat → List Nat
  | 0, _, _ => []
  | k + 1, i, t =>
    let u := hmac prk (t ++ info ++ [i])
    u ++ hkdfExpand prk info k (i + 1) u

/-- HKDF-SHA-256: `n` bytes. -/
def hkdf (salt ikm info : List Nat) (n : Nat) : List Nat :=
  (hkdfExpand (hmac (if salt.isEmpty then List.replicate 32 0 else salt) ikm) info ((n + 31) / 32) 1 []).take n

/-! ### AES-256 and GCM -/

def gmul8Aux : Nat → Nat → Nat → Nat → Nat
  | 0, _, _, r => r
  | k + 1, a, b, r =>
    gmul8Aux k (if 128 ≤ a then Nat.xor (a * 2 % 256) 0x1B else a * 2) (b / 2) (if b % 2 = 1 then Nat.xor r a else r)

def gmul8 (a b : Nat) : Nat := gmul8Aux 8 a b 0

/-- The inverse in GF(2^8), as the 254th power. -/
def ginv8 (a : Nat) : Nat :=
  let a2 := gmul8 a a
  let a4 := gmul8 a2 a2
  let a8 := gmul8 a4 a4
  let a16 := gmul8 a8 a8
  let a32 := gmul8 a16 a16
  let a64 := gmul8 a32 a32
  let a128 := gmul8 a64 a64
  gmul8 a128 (gmul8 a64 (gmul8 a32 (gmul8 a16 (gmul8 a8 (gmul8 a4 a2)))))

def rotl8 (x k : Nat) : Nat := x * 2 ^ k % 256 + x / 2 ^ (8 - k)
def sbox (x : Nat) : Nat :=
  let i := ginv8 x
  Nat.xor (Nat.xor (Nat.xor (Nat.xor (Nat.xor i (rotl8 i 1)) (rotl8 i 2)) (rotl8 i 3)) (rotl8 i 4)) 0x63

/-- The key schedule of AES-256: words of 4 bytes, newest first. -/
def aesWords : Nat → Nat → Nat → List (List Nat) → List (List Nat)
  | 0, _, _, w => w
  | k + 1, i, rc, w =>
    let p := w.headD []
    let t :=
      if i % 8 = 0 then xorBytes ((p.drop 1 ++ p.take 1).map sbox) [rc, 0, 0, 0]
      else if i % 8 = 4 then p.map sbox
      else p
    aesWords k (i + 1) (if i % 8 = 0 then gmul8 rc 2 else rc) (xorBytes (w.getD 7 []) t :: w)

/-- Round keys of 16 bytes. -/
def aesKeys (key : List Nat) : List (List Nat) :=
  pieces 16 ((aesWords 52 8 1 (pieces 4 key).reverse).reverse.flatten)

def shiftRows (s : List Nat) : List Nat := (List.range 16).map (fun i => s.getD ((i + 4 * (i % 4)) % 16) 0)

def mixColumns (s : List Nat) : List Nat :=
  ((pieces 4 s).map (fun c => (List.range 4).map (fun r =>
    let g := fun k => c.getD ((r + k) % 4) 0
    Nat.xor (Nat.xor (Nat.xor (gmul8 (g 0) 2) (gmul8 (g 1) 3)) (g 2)) (g 3)))).flatten

def aesBlock (keys : List (List Nat)) (b : List Nat) : List Nat :=
  let s := xorBytes b (keys.headD [])
  let s := ((keys.drop 1).take 13).foldl (fun s k => xorBytes (mixColumns (shiftRows (s.map sbox))) k) s
  xorBytes (shiftRows (s.map sbox)) (keys.getD 14 [])

/-- Multiplication in GF(2^128) of GCM, most significant bit first. -/
def gmul128Aux : Nat → Nat → Nat → Nat → Nat
  | 0, _, _, z => z
  | k + 1, x, v, z =>
    gmul128Aux k x (if v % 2 = 1 then Nat.xor (v / 2) (0xE1 * 2 ^ 120) else v / 2) (if x / 2 ^ k % 2 = 1 then Nat.xor z v else z)

def gmul128 (x y : Nat) : Nat := gmul128Aux 128 x y 0

def pad16 (l : List Nat) : List Nat := l ++ List.replicate ((16 - l.length % 16) % 16) 0

def ghash (h : Nat) (aad ct : List Nat) : Nat :=
  (pieces 16 (pad16 aad ++ pad16 ct ++ beBytes 8 (8 * aad.length) ++ beBytes 8 (8 * ct.length))).foldl
    (fun y b => gmul128 (Nat.xor y (beNum b)) h) 0

/-- The key stream of GCM from a 12-byte nonce, from counter 2 on. -/
def gcmStream (keys : List (List Nat)) (nonce : List Nat) : Nat → Nat → List Nat
  | 0, _ => []
  | k + 1, i => aesBlock keys (nonce ++ beBytes 4 i) ++ gcmStream keys nonce k (i + 1)

def gcmTag (keys : List (List Nat)) (nonce aad ct : List Nat) : List Nat :=
  let h := beNum (aesBlock keys (List.replicate 16 0))
  xorBytes (beBytes 16 (ghash h aad ct)) (aesBlock keys (nonce ++ beBytes 4 1))

/-- AES-256-GCM: the ciphertext and the 16-byte tag. -/
def gcmSeal (key nonce aad pt : List Nat) : List Nat × List Nat :=
  let keys := aesKeys key
  let ct := xorBytes pt (gcmStream keys nonce ((pt.length + 15) / 16) 2)
  (ct, gcmTag keys nonce aad ct)

/-- AES-256-GCM: the plaintext when the tag verifies. -/
def gcmOpen (key nonce aad ct tag : List Nat) : Option (List Nat) :=
  let keys := aesKeys key
  if gcmTag keys nonce aad ct = tag then some (xorBytes ct (gcmStream keys nonce ((ct.length + 15) / 16) 2)) else none

/-! ### P-256 -/

def p256p : Nat := 0xffffffff00000001000000000000000000000000ffffffffffffffffffffffff
def p256n : Nat := 0xffffffff00000000ffffffffffffffffbce6faada7179e84f3b9cac2fc632551
def p256b : Nat := 0x5ac635d8aa3a93e7b3ebbd55769886bc651d06b0cc53b0f63bce3c3e27d2604b
def p256g : Nat × Nat :=
  (0x6b17d1f2e12c4247f8bce6e563a440f277037d812deb33a0f4a13945d898c296,
   0x4fe342e2fe1a7f9b8ee7eb4a7c0f9e162bce33576b315ececbb6406837bf51f5)

def powMod (m : Nat) : Nat → Nat → Nat → Nat → Nat
  | 0, _, _, r => r
  | k + 1, b, e, r => powMod m k (b * b % m) (e / 2) (if e % 2 = 1 then r * b % m else r)

def invMod (m a : Nat) : Nat := powMod m 256 (a % m) (m - 2) 1
def subMod (m a b : Nat) : Nat := (a + m - b % m) % m

/-- Point addition; none is the point at infinity. -/
def ecAdd (a b : Option (Nat × Nat)) : Option (Nat × Nat) :=
  match a, b with
  | none, q => q
  | q, none => q
  | some (x1, y1), some (x2, y2) =>
    let m := p256p
    if x1 = x2 ∧ (y1 + y2) % m = 0 then none
    else
      let l := if x1 = x2 then subMod m (3 * x1 * x1) 3 * invMod m (2 * y1) % m else subMod m y2 y1 * invMod m (subMod m x2 x1) % m
      let x := subMod m (l * l) (x1 + x2)
      some (x, subMod m (l * subMod m x1 x) y1)

def ecMulAux : Nat → Nat → Option (Nat × Nat) → Option (Nat × Nat) → Option (Nat × Nat)
  | 0, _, _, r => r
  | k + 1, n, q, r => ecMulAux k (n / 2) (ecAdd q q) (if n % 2 = 1 then ecAdd r q else r)

def ecMul (n : Nat) (q : Nat × Nat) : Option (Nat × Nat) := ecMulAux 256 n (some q) none

/-- Is a point on the curve? -/
def onCurve (q : Nat × Nat) : Bool :=
  decide (q.1 < p256p) && decide (q.2 < p256p)
    && q.2 * q.2 % p256p == (q.1 * q.1 * q.1 + (p256p - 3) * q.1 + p256b) % p256p

/-- A point as 64 bytes, x then y, and back. -/
def pointBytes (q : Option (Nat × Nat)) : List Nat := match q with
  | some (x, y) => beBytes 32 x ++ beBytes 32 y
  | none => List.replicate 64 0

def bytesPoint (l : List Nat) : Nat × Nat := (beNum (l.take 32), beNum ((l.drop 32).take 32))

/-- The candidates k of RFC 6979 for a key and a hash. -/
def rfcK : Nat → List Nat → List Nat → Nat
  | 0, _, _ => 1
  | t + 1, k, v =>
    let v := hmac k v
    let c := beNum v
    if 1 ≤ c ∧ c < p256n then c
    else
      let k' := hmac k (v ++ [0])
      rfcK t k' (hmac k' v)

def rfc6979 (d : Nat) (h : List Nat) : Nat :=
  let x := beBytes 32 d ++ beBytes 32 (beNum h % p256n)
  let v := List.replicate 32 1
  let k := hmac (List.replicate 32 0) (v ++ [0] ++ x)
  let v := hmac k v
  let k := hmac k (v ++ [1] ++ x)
  rfcK 64 k (hmac k v)

/-- An ECDSA signature over SHA-256 with the nonce of RFC 6979: r then s, 32 bytes each. -/
def ecdsaSign (d : Nat) (msg : List Nat) : List Nat :=
  let h := sha256 msg
  let k := rfc6979 d h
  let r := ((ecMul k p256g).getD (0, 0)).1 % p256n
  beBytes 32 r ++ beBytes 32 (invMod p256n k * (beNum h + r * d) % p256n)

def ecdsaVerify (q : Nat × Nat) (msg sig : List Nat) : Bool :=
  let r := beNum (sig.take 32)
  let s := beNum ((sig.drop 32).take 32)
  if sig.length ≠ 64 ∨ !onCurve q ∨ r = 0 ∨ p256n ≤ r ∨ s = 0 ∨ p256n ≤ s then false
  else
    let w := invMod p256n s
    match ecAdd (ecMul (beNum (sha256 msg) * w % p256n) p256g) (ecMul (r * w % p256n) q) with
    | some (x, _) => x % p256n == r
    | none => false

/-! ### Cyclic redundancy checks -/

def crcStep (poly : Nat) : Nat → Nat → Nat
  | 0, c => c
  | k + 1, c => crcStep poly k (if c % 2 = 1 then Nat.xor (c / 2) poly else c / 2)

/-- CRC-32C (Castagnoli), reflected, with initial value and final inversion of all ones. -/
def crc32c (l : List Nat) : Nat := not32 (l.foldl (fun c b => crcStep 0x82F63B78 8 (Nat.xor c b)) (2 ^ 32 - 1))

end Sys2Proof.Machine
end

