-- ==== Sys2Proof/Config.lean ====
section
/-! DEFINITION. What one module fixes, and the free values: constants without a body, of which no proof can see the value. -/

namespace Sys2Proof.Config

/-- The part number: true for the GVA-8256, false for the GVA-8128 (R2). DESIGN CHOICE: the model is of the GVA-8256 (log entry 10). -/
def is8256 : Bool := true

/-- A fresh value of the root of trust's random source (nonces R388, image numbers R344, keys R398): the argument is the
count of draws so far, held in State (log entry 8). -/
opaque random : Nat → Nat

/-- A value the manual leaves open, drawn fresh at each use: the argument is the count of draws so far, held in State (log entry 9). -/
opaque freeValue : Nat → Nat

/-- The module's fused and stored secrets: 0 the device secret, 1 the product firmware key, 2 the measurement of the
image it was made with, 3 its identity key (log entry 8). -/
opaque secret : Nat → Nat

/-- The private attestation key that the root of trust derives from the device secret and an image (R406): the argument is the firmware version
that stands for the image (log entry 8). -/
opaque attestKey : Nat → Nat

/-- The value of a pooled output whose window holds no position that takes part (R97): the argument is the element's index. -/
opaque emptyPool : Nat → Nat

/-- The score credit of a column whose weight w is NaN (R153 gives no value): the argument is the column's index (log entry 9). -/
opaque nanCredit : Nat → Nat

/-- The Unurmen release key, a public key of P-256 that the module holds (R389, R410): index 0 its X, index 1 its Y (log entry 8). -/
opaque releaseKey : Nat → Nat

end Sys2Proof.Config
end

