-- ==== Sys2Proof/Machine/StateBoot.lean ====
section
/-! DEFINITION. The state of bring-up, the register requests and the configuration CRC (chapter 13 of spec/). -/

namespace Sys2Proof.Machine

/-- A register request: a write through the management window to a page of firmware's, waiting (R457). -/
structure Req where
  block : Nat
  off : Nat
  unit : Nat
  value : Nat
  deriving DecidableEq, Repr

/-- A running computation of the configuration CRC (R462, R463). -/
structure CrcRun where
  start : Nat := 0
  commit : Bool := false
  /-- A hold was set at some time during it. -/
  held : Bool := false
  /-- A computation commanded while it runs follows it; true when it commits. -/
  next : Option Bool := none
  deriving DecidableEq, Repr

/-- Bring-up and the register conventions. -/
structure Boot where
  /-- The supervisor has released the die from reset (R448 step 0). -/
  powered : Bool := true
  /-- RESET_N is held asserted. -/
  resetHeld : Bool := false
  refStable : Bool := false
  pllStable : Bool := false
  imageOk : Bool := false
  trained : Bool := false
  cleared : Bool := false
  /-- The Gauge count until which RESET_GO resets the module (R446). -/
  armedUntil : Option Nat := none
  linkUp : Bool := false
  /-- The words of the MSI-X table, by their number (R453, R455). -/
  msix : Tab (BitVec 32) := []
  /-- The straps as the tray ties them: STAVE_HEAD, then BENCH (R471). -/
  head : Bool := false
  bench : Bool := false
  /-- Physical tiles whose clock is gated, and the clusters as 256 + cluster (R428). -/
  gates : List Nat := []
  requests : List Req := []
  crc : Option CrcRun := none
  /-- Since when the hold of the management window and that of firmware stand (R465), and whether HOLD_STUCK was set for them. -/
  holdSince : Option Nat := none
  fwHoldSince : Option Nat := none
  stuckSet : Bool := false
  fwStuckSet : Bool := false
  /-- The copy of the covered registers kept at the last commit, by register key (R464). -/
  committed : Tab (BitVec 32) := []
  hasCommit : Bool := false
  /-- The persisted configuration registers, by register key (R416, R452). -/
  settings : Tab (BitVec 32) := []
  deriving DecidableEq, Repr

end Sys2Proof.Machine
end

