-- ==== Sys2Proof/Machine/StateClock.lean ====
section
/-! DEFINITION. The state of the determinism block, the clocks, the Gauge's servo and the Stave chain (chapters 09 and 12 of spec/). -/

namespace Sys2Proof.Machine

/-- A generator set of a realm (R335): busy, with the inputs that GEN_RUN sampled. -/
structure GenSet where
  busy : Bool := false
  seed : Nat := 0
  stream : Nat := 0
  pos : Nat := 0
  deriving DecidableEq, Repr

/-- A running SNAPSHOT (R343): its descriptor, its target, and its image once the target is at a boundary. -/
structure Snap where
  realm : Nat
  ring : Nat
  uid : Nat
  targetRing : Nat
  target : Nat
  /-- The image, once it is being written. -/
  image : Option (List Nat) := none
  next : Nat := 0
  deriving DecidableEq, Repr

/-- A swatch unit (R350): kind 0 JOB, 1 serving request, keyed by ring pair and TAG. -/
structure SwUnit where
  kind : Nat
  ring : Nat
  tag : Nat
  digest : List Nat
  deriving DecidableEq, Repr

/-- An entry of the match table: whether it came from the peer, and since when it stands. -/
structure SwEntry where
  item : SwUnit
  peer : Bool
  since : Nat
  deriving DecidableEq, Repr

inductive SwPhase where
  | handshake | running
  /-- Ended on this module; its verdict is kept for a SWATCH_END still to come (R353). -/
  | ended
  deriving DecidableEq, Repr

/-- A swatch (R349-R353). -/
structure Swatch where
  phase : SwPhase := .handshake
  realm : Nat := 0
  id : Nat := 0
  peer : Nat := 0
  /-- 0 shadow, 1 reference. -/
  role : Nat := 0
  steps : Nat := 0
  /-- The SWATCH_BEGIN or SWATCH_END that waits: its ring pair and number. -/
  desc : Option (Nat × Nat) := none
  wait : Nat := 0
  age : Nat := 0
  unmatchedMax : Nat := 0
  verdict : Nat := 0
  queue : List SwUnit := []
  table : List SwEntry := []
  lastMsg : Nat := 0
  deriving DecidableEq, Repr

/-- The determinism block. -/
structure Det where
  gens : Tab GenSet := []
  snaps : List Snap := []
  /-- JOBs whose digest waits to be signed: realm, ring pair, number; the first 64 are in the root of trust's queue (R342). -/
  signs : List (Nat × Nat × Nat) := []
  /-- Bytes hashed, of which DET_PERF_HASH shows the MiB. -/
  hashed : Nat := 0
  swatch : Option Swatch := none
  deriving DecidableEq, Repr

/-- A message of the Stave chain (R439). -/
structure StvMsg where
  dest : Nat
  src : Nat
  kind : Nat
  mflags : Nat
  payload : List Nat
  deriving DecidableEq, Repr

/-- An entry of the chain map (R439). -/
structure MapEnt where
  state : Nat
  gauge : Nat
  serial : Nat
  since : Nat
  deriving DecidableEq, Repr

/-- A frame of the master's that has not returned: its mark, the DELAY it started with, and the ACTIVATE segments it carries. -/
structure Flight where
  mark : Nat
  delay : Nat
  acts : Nat
  deriving DecidableEq, Repr

/-- The Stave chain and the Gauge's servo (R430-R441). -/
structure Stave where
  tx : List StvMsg := []
  rx : List StvMsg := []
  /-- Good frames since ATTACHING, and consecutive frames within 1/8 gt. -/
  good : Nat := 0
  inBand : Nat := 0
  /-- The Gauge count at the last good frame. -/
  lastGood : Nat := 0
  /-- Frames since the last STATE message. -/
  frames : Nat := 0
  /-- An enumeration round: on the master its end; elsewhere the last count a frame carried ENUM_ROUND. -/
  round : Option Nat := none
  /-- The address changed in this round. -/
  changed : Bool := false
  /-- The master: frames under way, own frames missed in a row, slots it forwards, the last SHARE, the ENUM last received. -/
  flights : List Flight := []
  lost : Nat := 0
  carry : List (Option StvMsg) := []
  share : Nat := 0
  enumSeen : Nat := 0
  /-- Segments of an activation list that wait for the send queue, and whether a list is under way (R441). -/
  acts : List StvMsg := []
  acting : Bool := false
  /-- Segments of an ACTIVATE received so far, by sender. -/
  segs : Tab (List Nat) := []
  map : Tab MapEnt := []
  /-- RING_OPEN has been reported for the break that stands (R434). -/
  ringOpen : Bool := false
  deriving DecidableEq, Repr

/-- Clocks (R421-R428). -/
structure Clk where
  /-- Domains outside their range in the last monitor window. -/
  lastBad : List Nat := []
  /-- CLK_CTRL.LOW_POWER was set by the module and not by software (R483). -/
  forced : Bool := false
  deriving DecidableEq, Repr

end Sys2Proof.Machine
end

