-- ==== Sys2Proof/Machine/StateFault.lean ====
section
/-! DEFINITION. The state of the fault block (chapter 10 of spec/). -/

namespace Sys2Proof.Machine

/-- An error that firmware has to handle (R359-R363). -/
structure ErrRec where
  sev : Nat := 0
  cause : Nat := 0
  kind : Nat := 4
  index : Nat := 0
  logical : Nat := 0xFF
  scope : Nat := 3
  esc : Bool := false
  detail : Nat := 0
  /-- A further uncorrectable word of a group that has no spare column left (R366). -/
  exhaust : Bool := false
  deriving DecidableEq, Repr

/-- Health of a unit (R372): its own score, its counters, what CORRECTED errors took in the current hour, and when it last
detected a CONTAINED error. -/
structure UnitRec where
  score : Nat := 1000
  contained : Nat := 0
  ceHour : Nat := 0
  ceLoss : Nat := 0
  lastContained : Option Nat := none
  /-- The fault capture of R364: a bit per cause, cleared by firmware as it handles the error. -/
  capture : Nat := 0
  deriving DecidableEq, Repr

/-- A condition of R374: whether it is held, and since when its leaving condition holds. -/
structure Latch where
  on : Bool := false
  okSince : Option Nat := none
  deriving DecidableEq, Repr

/-- The fault block. -/
structure Flt where
  queue : List ErrRec := []
  /-- The handling in progress, on top of those it pre-empted (R363). -/
  cur : List ErrRec := []
  /-- End of the last tile-scope handling by tile, and of the last cluster-scope handling by 256 + cluster (R362). -/
  ended : Tab Nat := []
  /-- By 256 · kind + index, coded as FLT_UNIT_SEL. -/
  units : Tab UnitRec := []
  /-- Role epochs (R377): logical tile 0–127, logical cluster 128 + l, lane half 136 + h, video core 138 + n. -/
  epochs : Tab Nat := []
  worn : Latch := {}
  degraded : Latch := {}
  service : Latch := {}
  failed : Bool := false
  /-- The reported state: 0 OK to 4 FAILED. -/
  state : Nat := 0
  /-- Count at which the management processor last restarted after an error (cause 0x000F). -/
  mpError : Option Nat := none
  /-- Firmware is in a warm restart (R359). -/
  mpDown : Bool := false
  /-- A firmware record was dropped: firmware reads every error status before it handles further errors (R364). -/
  rereadAll : Bool := false
  /-- The channel whose copy into the reserve runs (R370), and whether a second channel met a trigger. -/
  copying : Option Nat := none
  secondChan : Bool := false
  /-- Units whose commanded retirement waits for their running work: 256 · kind + index (R366, R367). -/
  retiring : List Nat := []
  frozen : Bool := false
  deriving DecidableEq, Repr

/-- The Drawer's write budget (R417), in bytes: the carried-over balances of spilling and model storage, and all writes. -/
structure DrawerBudget where
  spill : Nat := 0
  model : Nat := 0
  written : Nat := 0
  deriving DecidableEq, Repr

end Sys2Proof.Machine
end

