-- ==== Sys2Proof/Machine/StateLane.lean ====
section
/-! DEFINITION. The state of the control lane (chapter 07 of spec/). -/

namespace Sys2Proof.Machine

/-- The state that a half runs from: the period it is of, its bytes, and the output of that period (R283, R285). -/
structure LaneCopy where
  period : Nat
  bytes : List Nat
  outs : List (Nat × List Nat) := []
  deriving DecidableEq, Repr

/-- How the first period of a half is marked (R279). -/
inductive LaneMark where
  | none | start | resume | restart
  deriving DecidableEq, Repr

/-- A half (R283). Its state, claim and place are fields of CTL_STATE and CTL_CLAIM. -/
structure Half where
  /-- It becomes ACTIVE at the next period start, marked so. -/
  arming : LaneMark := .none
  /-- The mark of its first period, until that period is answered. -/
  mark : LaneMark := .none
  copy : Option LaneCopy := none
  /-- Its microcode and weights are loaded; in LOAD it waits for a copy. -/
  loaded : Bool := false
  /-- Copies in a row that failed their CRC. -/
  bad : Nat := 0
  /-- The claim that the egress unit accepted from it (R281). -/
  accepted : Nat := 0
  /-- It runs the package or microcode of an update under way (R292). -/
  fresh : Bool := false
  /-- A RETIRE or REPAIR waits for nothing else: firmware moves it to this place when it is next brought in (R287). -/
  nextPlace : Option Nat := none
  deriving DecidableEq, Repr

/-- The input slot of an axis (R279) and what its window has brought so far: 0 nothing, 1 a frame, 2 poison. -/
structure AxisIn where
  words : List Nat := []
  age : Nat := 0
  got : Nat := 0
  /-- The status word of the launched period. -/
  status : Nat := 0
  deriving DecidableEq, Repr

/-- The last live frame of an axis (R282). -/
structure AxisOut where
  words : List Nat := []
  period : Nat := 0
  holds : Nat := 0
  /-- A live frame of this period has been handed to egress. -/
  live : Bool := false
  /-- STALE of the last live frame, which a HOLD frame repeats. -/
  stale : Bool := false
  deriving DecidableEq, Repr

/-- A control port (R290): its link, since when it is up, the times of its last changes, the end of its quarantine, and the
CTL_PORT_CFG in effect. -/
structure Port where
  link : Bool := false
  since : Nat := 0
  changes : List Nat := []
  until_ : Nat := 0
  cfg : Nat := 0x003C0A51
  deriving DecidableEq, Repr

/-- An update of the lane under way (R292): its stage (1 the first half, 2 the other), the package it brings, and when it swaps. -/
structure LaneSeq where
  stage : Nat := 1
  first : Nat := 0
  pkg : Option LanePkg := none
  swapAt : Nat := 0
  deriving DecidableEq, Repr

/-- The control lane. -/
structure Lane where
  a : Half := {}
  b : Half := {}
  pkg : Option LanePkg := none
  seq : Option LaneSeq := none
  grid : Nat := 0
  /-- The current period: its number and start, whether it has launched, been answered by the active half, and been held. -/
  period : Option Nat := none
  start : Nat := 0
  launchAt : Option Nat := none
  answered : Bool := false
  heldOut : Bool := false
  ins : Tab AxisIn := []
  outs : Tab AxisOut := []
  /-- Items that each ingress queue dropped in the running window (R279). -/
  gaps : Tab Nat := []
  /-- Answers carry STALE until ACK_LOST (R289). -/
  stale : Bool := false
  /-- The count of an armed planned swap (R291). -/
  swap : Option Nat := none
  /-- The holder's copy that the other half has not received yet. -/
  sent : Option LaneCopy := none
  /-- A checkpoint write under way, with its claim. -/
  ckpt : Option (LaneCopy × Nat) := none
  ports : Tab Port := []
  /-- Last port that gave the follower its time. -/
  tsPort : Nat := 0
  /-- Both halves have run, one ACTIVE and one STANDBY, since the lane last lost its pair (R293). -/
  paired : Bool := false
  deriving DecidableEq, Repr

end Sys2Proof.Machine
end

