-- ==== Sys2Proof/Machine/StatePower.lean ====
section
/-! DEFINITION. The state of power, coolant, temperature, the sideband inputs and the lanes of the link (chapter 14 of spec/). -/

namespace Sys2Proof.Machine

/-- A sideband input as the supervisor holds it (R497-R499): its filtered level, whether it is stuck or fast, the last changes by the
supervisor's 1 MHz sample count, the last assertion acted on, the effect in force, and the changes since its last event. -/
structure SideIn where
  level : Bool := false
  stuck : Bool := false
  fast : Bool := false
  changes : List Nat := []
  acted : Option Nat := none
  effect : Bool := false
  count : Nat := 0
  evAt : Nat := 0
  deriving DecidableEq, Repr

/-- A hot spot (R493, R496), readings in 0.5 °C: its last used reading, since when both readings are implausible, whether it is BAD, since
when the pair differs by more than 3 K and since when it does not, and whether the pair is flagged. -/
structure Spot where
  used : Option Int := none
  lost : Option Nat := none
  bad : Bool := false
  apart : Option Nat := none
  near : Option Nat := none
  flag : Bool := false
  deriving DecidableEq, Repr

/-- The lanes of the host link (R472-R476): failed lanes over the life, the set F of the last census, whether the far side steers, the
negotiated width, and whether RECORD empties at the next census. -/
structure Lanes where
  record : Nat := 0
  failed : Nat := 0
  steering : Bool := false
  width : Nat := 0
  clear : Bool := false
  deriving DecidableEq, Repr

/-- Power and coolant. -/
structure Pwr where
  /-- FREEZE_N, RESET_N, ALERT_N. -/
  side : List SideIn := [{}, {}, {}]
  /-- The auxiliary rail is present; a dip of the main rail stands, with the Gauge count of its return. -/
  aux : Bool := true
  dip : Bool := false
  back : Option Nat := none
  /-- The supervisor shut the die down; it is reported at the next start (R494, R500). -/
  shutdown : Bool := false
  /-- A stuck RESET_N released the reset; the event follows once firmware runs (R498). -/
  stuckDue : Bool := false
  /-- The settings as last sampled (R503): THM_CTRL, T_OUT_MAX, CAP_SEL. -/
  ctrl : Nat := 0x690564
  tOut : Nat := 0x37
  sel : Nat := 2
  /-- The last accepted record: its SEQ, its count, and ALARM; since when the run of accepted records without a loss goes on; the flows
  accepted in the last second. -/
  seq : Option Nat := none
  lastAt : Option Nat := none
  okSince : Option Nat := none
  flows : List (Nat × Nat) := []
  /-- The coolant cap in W (R489). -/
  cool : Option Nat := none
  /-- The cap of the junction loop (R494) and the envelope E (R484), in 1/(6 · R_JC) W. -/
  jcap : Option Nat := none
  env : Nat := 24300
  /-- Survival power by R489 or R490, with its limiter, and since when the conditions of R492 hold. -/
  held : Option Nat := none
  goodSince : Option Nat := none
  spots : Tab Spot := []
  /-- The hottest used reading, in 0.5 °C. -/
  hottest : Option Int := none
  /-- MOD_ALERT_N is asserted. -/
  alert : Bool := false
  lanes : Lanes := {}
  deriving DecidableEq, Repr

end Sys2Proof.Machine
end

