-- ==== Sys2Proof/Machine/StateSec.lean ====
section
/-! DEFINITION. The state of the root of trust and of the firmware update (chapter 11 of spec/). -/

namespace Sys2Proof.Machine

/-- A firmware image of a slot (R410-R415): its version, measurement, security version, and the TIL_UCODE_ID of its microcode. The measurement
of the image a module was made with is one of its secrets (log entry 8). -/
structure Image where
  version : Nat := 0
  meas : Option (List Nat) := none
  svn : Nat := 0
  ucode : Nat := 0
  present : Bool := false
  rejected : Bool := false
  deriving DecidableEq, Repr

/-- What the root of trust holds besides its registers and the key slots. -/
structure Sec where
  /-- The owner key, 64 bytes; empty while SEC_STATE.OWNED is 0 (R388). -/
  owner : List Nat := []
  /-- Grants of the realms, as bytes (R391). -/
  grants : Tab (List Nat) := []
  /-- OP and realm of a command that waits for its clears (R394). -/
  waiting : Option (Nat × Nat) := none
  /-- The exact expiry count of an armed debug mode (R409). -/
  debugUntil : Nat := 0
  /-- The images of slots A and B. -/
  imgA : Image := { present := true }
  imgB : Image := {}
  /-- Address, size and, once verified, the header of the package under way (R410, R411). -/
  src : Nat := 0
  size : Nat := 0
  header : List Nat := []
  /-- The count of the armed or last activation, and the confirmation window in s (R411, R414). -/
  count : Nat := 0
  window : Nat := 600
  /-- A SERVICE or FATAL error has arisen since the count (R414). -/
  trouble : Bool := false
  /-- Warm restarts since the count (R411). -/
  restarts : Nat := 0
  /-- A planned warm restart runs; settings are still to migrate (R413, R416). -/
  planned : Bool := false
  migrating : Bool := false
  /-- The settings version that the old copy holds (R416). -/
  oldSettings : Nat := 0
  deriving DecidableEq, Repr

end Sys2Proof.Machine
end

