-- ==== Sys2Proof/Machine/StateServe.lean ====
section
/-! DEFINITION. The state of the serving engine (chapter 06 of spec/). -/

namespace Sys2Proof.Machine

/-- Request states (R246). -/
inductive ReqSt where
  | waitModel | ready
  /-- PAUSED with its reason: 0 PRIO, 1 BUDGET, 2 NOPAGE. -/
  | paused (reason : Nat)
  | inStep
  /-- Ended by its commit point or out of a step; the end record may still be unwritten. -/
  | ended
  deriving DecidableEq, Repr

/-- A request slot that is not FREE (R220-R222). -/
structure SrvReq where
  st : ReqSt := .ready
  realm : Nat := 0
  ring : Nat := 0
  tag : Nat := 0
  /-- Admission order. -/
  order : Nat := 0
  gen : Nat := 0
  account : Nat := 0
  model : Nat := 0
  prio : Nat := 0
  rqFlags : Nat := 0
  /-- Tokens its prefix gave it. -/
  prefixN : Nat := 0
  prompt : List Nat := []
  maxNew : Nat := 0
  deadline : Nat := 0
  out : Nat := 0
  seed : Nat := 0
  sample : Nat := 0
  topK : Nat := 0
  temp : Nat := 0
  topP : Nat := 0
  ttft : Nat := 0
  tbt : Nat := 0
  stops : List Nat := []
  root : Nat := 0
  /-- Prompt tokens committed. -/
  done : Nat := 0
  /-- Tokens generated and committed, and how many of them DELIVER has written. -/
  tokens : List Nat := []
  written : Nat := 0
  tAdmit : Nat := 0
  tFirst : Nat := 0
  tEnd : Nat := 0
  lastCommit : Nat := 0
  tbtMax : Nat := 0
  tbtMiss : Nat := 0
  pauses : Nat := 0
  steps : Nat := 0
  ttftSent : Bool := false
  status : Nat := 0
  reason : Nat := 0
  late : Bool := false
  cancelLate : Bool := false
  endWritten : Bool := false
  /-- Tokens this step processes, and those it chose (R230, R232). -/
  stepN : Nat := 0
  chosen : List Nat := []
  /-- SRV_ACC_CFG as SELECT sampled it (R228). -/
  accCfg : Nat := 0
  /-- What COMMIT found: none commits, otherwise the status that keeps its tokens out, with its reason (R234, R244, R246). -/
  verdict : Option (Nat × Nat) := none
  /-- The tree of the next step: the token of each node (R252). -/
  tree : List Nat := []
  deriving DecidableEq, Repr

/-- Model states (R256). -/
inductive ModelSt where
  | absent | loading | resident | evicting
  deriving DecidableEq, Repr

/-- A model table entry (R256-R258). -/
structure Model where
  st : ModelSt := .absent
  realm : Nat := 0
  profile : Nat := 0
  /-- Its region in LPDDR5, in 4 KiB granules. -/
  base : Nat := 0
  size : Nat := 0
  /-- The weights digest recorded at MODEL_LOAD (R338). -/
  digest : List Nat := []
  draft : Bool := false
  /-- The package under way: 0 Drawer or 1 host tier, its address and bytes, and its key slot (R257). -/
  source : Nat := 0
  package : Nat := 0
  bytes : Nat := 0
  pkgKey : Nat := 0xFFFF
  /-- The MODEL_LOAD or MODEL_EVICT that waits: realm, ring pair and number of its descriptor. -/
  desc : Option (Nat × Nat × Nat) := none
  deriving DecidableEq, Repr

/-- Phases of a running step (R226). -/
inductive Phase where
  | run | commit
  deriving DecidableEq, Repr

/-- A running step of a realm (R226-R234). -/
structure Step where
  phase : Phase := .run
  model : Nat := 0
  slots : List Nat := []
  det : Bool := false
  /-- SRV_CTRL as SELECT sampled it, and the retries so far. -/
  ctl : Nat := 0
  retry : Nat := 0
  deriving DecidableEq, Repr

/-- A PREFIX_REGISTER that waits for its request (R251). -/
structure PrefixWait where
  realm : Nat
  ring : Nat
  uid : Nat
  slot : Nat
  n : Nat
  handle : Nat
  deriving DecidableEq, Repr

/-- The serving engine. -/
structure Srv where
  reqs : Tab SrvReq := []
  /-- Generation counts of the slots (R223). -/
  gens : Tab Nat := []
  models : Tab Model := []
  steps : Tab Step := []
  levels : Tab Int := []
  waits : List PrefixWait := []
  /-- Refills done so far (R235). -/
  refills : Nat := 0
  /-- Models of the prefix handles by prefix record (R250). -/
  prefixModel : Tab Nat := []
  deriving DecidableEq, Repr

end Sys2Proof.Machine
end

