-- ==== Sys2Proof/Machine/RegTable.lean ====
section
/-! DEFINITION. The register names, fields, resets and access masks, as the register tables of every chapter of spec/ give them (R10-R13, R455, R458). -/

namespace Sys2Proof.Machine

/-- A register of a page: its block in the order of the prefix table of R13, and its offset within the page. -/
structure Reg where
  block : Nat
  off : Nat
  deriving DecidableEq, Repr

/-- A field of a register: its lowest bit and its width. -/
structure Fld where
  reg : Reg
  lo : Nat
  width : Nat
  deriving DecidableEq, Repr

/-- The selector a register lies behind, if any. -/
inductive Sel where
  | none | clkTile | cluLb | ctlPort | ctlQ | detRlm | fltUnit | kvmProf | kvmRlm | pwrRlm | ring | secRlm | srvAcc | srvMdl | srvRlm | stvMap | thmSpot | tilColmap | vidRlm | vidStrm
  deriving DecidableEq, Repr

/-- One register of a page: its reset word, its read-write bits, its write-one-to-pulse bits, its sequence-cleared bits, and the bits that the configuration CRC covers (R461). -/
structure RegRow where
  reg : Reg
  sel : Sel
  reset : BitVec 32
  rw : BitVec 32
  w1p : BitVec 32
  sqc : BitVec 32
  covered : BitVec 32
  deriving DecidableEq, Repr

/-! ### GLB_ -/

abbrev Reg.GLB_ID : Reg := ⟨0, 0x000⟩
abbrev Reg.GLB_SERIAL_LO : Reg := ⟨0, 0x004⟩
abbrev Reg.GLB_SERIAL_HI : Reg := ⟨0, 0x008⟩
abbrev Reg.GLB_FW_VER : Reg := ⟨0, 0x00C⟩
abbrev Reg.GLB_MEM : Reg := ⟨0, 0x010⟩
abbrev Reg.GLB_DRAWER : Reg := ⟨0, 0x014⟩
abbrev Reg.GLB_CFG : Reg := ⟨0, 0x018⟩
abbrev Reg.GLB_STATE : Reg := ⟨0, 0x01C⟩
abbrev Reg.GLB_STS : Reg := ⟨0, 0x020⟩
abbrev Reg.GLB_STS_EN : Reg := ⟨0, 0x024⟩
abbrev Reg.GLB_CMD : Reg := ⟨0, 0x028⟩
abbrev Reg.GLB_CRC_CTRL : Reg := ⟨0, 0x02C⟩
abbrev Reg.GLB_CFG_CRC_REF : Reg := ⟨0, 0x030⟩
abbrev Reg.GLB_CFG_CRC_VAL : Reg := ⟨0, 0x034⟩
abbrev Reg.GLB_CRC_DIFF : Reg := ⟨0, 0x038⟩
abbrev Reg.GLB_RESET_CAUSE : Reg := ⟨0, 0x03C⟩
abbrev Reg.GLB_START_TIME : Reg := ⟨0, 0x040⟩
abbrev Reg.GLB_STRAPS : Reg := ⟨0, 0x044⟩

abbrev Fld.GLB_ID_PART : Fld := ⟨.GLB_ID, 0, 8⟩
abbrev Fld.GLB_ID_DIE_REV : Fld := ⟨.GLB_ID, 8, 8⟩
abbrev Fld.GLB_SERIAL_LO_SERIAL : Fld := ⟨.GLB_SERIAL_LO, 0, 32⟩
abbrev Fld.GLB_SERIAL_HI_SERIAL : Fld := ⟨.GLB_SERIAL_HI, 0, 32⟩
abbrev Fld.GLB_FW_VER_VERSION : Fld := ⟨.GLB_FW_VER, 0, 32⟩
abbrev Fld.GLB_MEM_USABLE : Fld := ⟨.GLB_MEM, 0, 16⟩
abbrev Fld.GLB_MEM_RAW : Fld := ⟨.GLB_MEM, 16, 16⟩
abbrev Fld.GLB_DRAWER_CAP : Fld := ⟨.GLB_DRAWER, 0, 16⟩
abbrev Fld.GLB_CFG_DET_MODE : Fld := ⟨.GLB_CFG, 0, 1⟩
abbrev Fld.GLB_STATE_STAGE : Fld := ⟨.GLB_STATE, 0, 4⟩
abbrev Fld.GLB_STATE_READY : Fld := ⟨.GLB_STATE, 4, 1⟩
abbrev Fld.GLB_STATE_REQ_PEND : Fld := ⟨.GLB_STATE, 8, 8⟩
abbrev Fld.GLB_STATE_CRC_BUSY : Fld := ⟨.GLB_STATE, 16, 1⟩
abbrev Fld.GLB_STATE_CRC_HELD : Fld := ⟨.GLB_STATE, 17, 1⟩
abbrev Fld.GLB_STS_CRC_MISMATCH : Fld := ⟨.GLB_STS, 0, 1⟩
abbrev Fld.GLB_STS_CRC_RESTORED : Fld := ⟨.GLB_STS, 1, 1⟩
abbrev Fld.GLB_STS_HOLD_STUCK : Fld := ⟨.GLB_STS, 2, 1⟩
abbrev Fld.GLB_STS_ACCESS_ERR : Fld := ⟨.GLB_STS, 3, 1⟩
abbrev Fld.GLB_STS_LINK_RESET : Fld := ⟨.GLB_STS, 4, 1⟩
abbrev Fld.GLB_STS_ALT_SLOT : Fld := ⟨.GLB_STS, 5, 1⟩
abbrev Fld.GLB_STS_SEQ : Fld := ⟨.GLB_STS, 24, 8⟩
abbrev Fld.GLB_STS_EN_EVT_EN : Fld := ⟨.GLB_STS_EN, 0, 8⟩
abbrev Fld.GLB_CMD_CRC_NOW : Fld := ⟨.GLB_CMD, 0, 1⟩
abbrev Fld.GLB_CMD_CRC_COMMIT : Fld := ⟨.GLB_CMD, 1, 1⟩
abbrev Fld.GLB_CMD_RESET_ARM : Fld := ⟨.GLB_CMD, 2, 1⟩
abbrev Fld.GLB_CMD_RESET_GO : Fld := ⟨.GLB_CMD, 3, 1⟩
abbrev Fld.GLB_CRC_CTRL_CFG_CRC_HOLD : Fld := ⟨.GLB_CRC_CTRL, 0, 1⟩
abbrev Fld.GLB_CRC_CTRL_FW_HOLD : Fld := ⟨.GLB_CRC_CTRL, 1, 1⟩
abbrev Fld.GLB_CRC_CTRL_RESTORE : Fld := ⟨.GLB_CRC_CTRL, 2, 1⟩
abbrev Fld.GLB_CRC_CTRL_CHECK_EN : Fld := ⟨.GLB_CRC_CTRL, 3, 1⟩
abbrev Fld.GLB_CFG_CRC_REF_CRC_REF : Fld := ⟨.GLB_CFG_CRC_REF, 0, 32⟩
abbrev Fld.GLB_CFG_CRC_VAL_CRC_VAL : Fld := ⟨.GLB_CFG_CRC_VAL, 0, 32⟩
abbrev Fld.GLB_CRC_DIFF_OFFSET : Fld := ⟨.GLB_CRC_DIFF, 0, 8⟩
abbrev Fld.GLB_CRC_DIFF_BLOCK : Fld := ⟨.GLB_CRC_DIFF, 8, 5⟩
abbrev Fld.GLB_CRC_DIFF_UNIT : Fld := ⟨.GLB_CRC_DIFF, 13, 8⟩
abbrev Fld.GLB_CRC_DIFF_SELECT : Fld := ⟨.GLB_CRC_DIFF, 21, 10⟩
abbrev Fld.GLB_CRC_DIFF_VALID : Fld := ⟨.GLB_CRC_DIFF, 31, 1⟩
abbrev Fld.GLB_RESET_CAUSE_LAST : Fld := ⟨.GLB_RESET_CAUSE, 0, 2⟩
abbrev Fld.GLB_RESET_CAUSE_LINK_RESETS : Fld := ⟨.GLB_RESET_CAUSE, 8, 8⟩
abbrev Fld.GLB_RESET_CAUSE_STARTS : Fld := ⟨.GLB_RESET_CAUSE, 16, 16⟩
abbrev Fld.GLB_START_TIME_US : Fld := ⟨.GLB_START_TIME, 0, 32⟩
abbrev Fld.GLB_STRAPS_STAVE_HEAD : Fld := ⟨.GLB_STRAPS, 0, 1⟩
abbrev Fld.GLB_STRAPS_BENCH : Fld := ⟨.GLB_STRAPS, 1, 1⟩

/-- The GLB_ register page. -/
def regRowsGLB : List RegRow :=
  [⟨.GLB_ID, .none, 0x1, 0x0, 0x0, 0x0, 0x0⟩,
   ⟨.GLB_SERIAL_LO, .none, 0x0, 0x0, 0x0, 0x0, 0x0⟩,
   ⟨.GLB_SERIAL_HI, .none, 0x0, 0x0, 0x0, 0x0, 0x0⟩,
   ⟨.GLB_FW_VER, .none, 0x0, 0x0, 0x0, 0x0, 0x0⟩,
   ⟨.GLB_MEM, .none, 0x10000E00, 0x0, 0x0, 0x0, 0x0⟩,
   ⟨.GLB_DRAWER, .none, 0x2000, 0x0, 0x0, 0x0, 0x0⟩,
   ⟨.GLB_CFG, .none, 0x0, 0x1, 0x0, 0x0, 0x1⟩,
   ⟨.GLB_STATE, .none, 0x0, 0x0, 0x0, 0x0, 0x0⟩,
   ⟨.GLB_STS, .none, 0x0, 0x0, 0x0, 0x3F, 0x0⟩,
   ⟨.GLB_STS_EN, .none, 0x37, 0xFF, 0x0, 0x0, 0xFF⟩,
   ⟨.GLB_CMD, .none, 0x0, 0x0, 0xF, 0x0, 0x0⟩,
   ⟨.GLB_CRC_CTRL, .none, 0xC, 0xF, 0x0, 0x0, 0x0⟩,
   ⟨.GLB_CFG_CRC_REF, .none, 0x0, 0xFFFFFFFF, 0x0, 0x0, 0x0⟩,
   ⟨.GLB_CFG_CRC_VAL, .none, 0x0, 0x0, 0x0, 0x0, 0x0⟩,
   ⟨.GLB_CRC_DIFF, .none, 0x0, 0x0, 0x0, 0x0, 0x0⟩,
   ⟨.GLB_RESET_CAUSE, .none, 0x0, 0x0, 0x0, 0x0, 0x0⟩,
   ⟨.GLB_START_TIME, .none, 0x0, 0x0, 0x0, 0x0, 0x0⟩,
   ⟨.GLB_STRAPS, .none, 0x0, 0x0, 0x0, 0x0, 0x0⟩]

/-! ### CLK_ -/

abbrev Reg.CLK_ID : Reg := ⟨1, 0x000⟩
abbrev Reg.CLK_CTRL : Reg := ⟨1, 0x004⟩
abbrev Reg.CLK_STATE : Reg := ⟨1, 0x008⟩
abbrev Reg.CLK_STS : Reg := ⟨1, 0x00C⟩
abbrev Reg.CLK_STS_EN : Reg := ⟨1, 0x010⟩
abbrev Reg.CLK_CMD : Reg := ⟨1, 0x014⟩
abbrev Reg.CLK_TRIM : Reg := ⟨1, 0x018⟩
abbrev Reg.CLK_GATE : Reg := ⟨1, 0x01C⟩
abbrev Reg.CLK_TILE_SEL : Reg := ⟨1, 0x020⟩
abbrev Reg.CLK_TILE_GATE : Reg := ⟨1, 0x024⟩

abbrev Fld.CLK_ID_PLLS : Fld := ⟨.CLK_ID, 0, 4⟩
abbrev Fld.CLK_ID_DOMAINS : Fld := ⟨.CLK_ID, 4, 4⟩
abbrev Fld.CLK_CTRL_LOW_POWER : Fld := ⟨.CLK_CTRL, 0, 1⟩
abbrev Fld.CLK_CTRL_AUTO_TRIM : Fld := ⟨.CLK_CTRL, 1, 1⟩
abbrev Fld.CLK_CTRL_TRIM_STAVE : Fld := ⟨.CLK_CTRL, 2, 1⟩
abbrev Fld.CLK_STATE_REF_OK : Fld := ⟨.CLK_STATE, 0, 1⟩
abbrev Fld.CLK_STATE_RC_TRIMMED : Fld := ⟨.CLK_STATE, 1, 1⟩
abbrev Fld.CLK_STATE_PLL_OK : Fld := ⟨.CLK_STATE, 2, 4⟩
abbrev Fld.CLK_STATE_HOLDOVER : Fld := ⟨.CLK_STATE, 6, 1⟩
abbrev Fld.CLK_STATE_LOW_POWER : Fld := ⟨.CLK_STATE, 7, 1⟩
abbrev Fld.CLK_STATE_RAMP_BUSY : Fld := ⟨.CLK_STATE, 8, 1⟩
abbrev Fld.CLK_STATE_GATE_PEND : Fld := ⟨.CLK_STATE, 9, 1⟩
abbrev Fld.CLK_STS_REF_LOSS : Fld := ⟨.CLK_STS, 0, 1⟩
abbrev Fld.CLK_STS_REF_BACK : Fld := ⟨.CLK_STS, 1, 1⟩
abbrev Fld.CLK_STS_PLL_UNLOCK : Fld := ⟨.CLK_STS, 2, 1⟩
abbrev Fld.CLK_STS_FREQ_FAULT : Fld := ⟨.CLK_STS, 3, 1⟩
abbrev Fld.CLK_STS_TRIM_LIMIT : Fld := ⟨.CLK_STS, 4, 1⟩
abbrev Fld.CLK_STS_RAMP_DONE : Fld := ⟨.CLK_STS, 5, 1⟩
abbrev Fld.CLK_STS_SEQ : Fld := ⟨.CLK_STS, 24, 8⟩
abbrev Fld.CLK_STS_EN_EVT_EN : Fld := ⟨.CLK_STS_EN, 0, 8⟩
abbrev Fld.CLK_CMD_RETRIM : Fld := ⟨.CLK_CMD, 0, 1⟩
abbrev Fld.CLK_TRIM_CODE : Fld := ⟨.CLK_TRIM, 0, 9⟩
abbrev Fld.CLK_TRIM_SRC : Fld := ⟨.CLK_TRIM, 9, 2⟩
abbrev Fld.CLK_GATE_CLUSTER : Fld := ⟨.CLK_GATE, 0, 9⟩
abbrev Fld.CLK_GATE_VIDEO : Fld := ⟨.CLK_GATE, 9, 1⟩
abbrev Fld.CLK_GATE_SERVING : Fld := ⟨.CLK_GATE, 10, 1⟩
abbrev Fld.CLK_GATE_PORTS : Fld := ⟨.CLK_GATE, 11, 1⟩
abbrev Fld.CLK_TILE_SEL_CLU : Fld := ⟨.CLK_TILE_SEL, 0, 4⟩
abbrev Fld.CLK_TILE_GATE_TILE : Fld := ⟨.CLK_TILE_GATE, 0, 17⟩

/-- The CLK_ register page. -/
def regRowsCLK : List RegRow :=
  [⟨.CLK_ID, .none, 0xA4, 0x0, 0x0, 0x0, 0x0⟩,
   ⟨.CLK_CTRL, .none, 0x6, 0x7, 0x0, 0x0, 0x6⟩,
   ⟨.CLK_STATE, .none, 0x0, 0x0, 0x0, 0x0, 0x0⟩,
   ⟨.CLK_STS, .none, 0x0, 0x0, 0x0, 0x3F, 0x0⟩,
   ⟨.CLK_STS_EN, .none, 0x1F, 0xFF, 0x0, 0x0, 0xFF⟩,
   ⟨.CLK_CMD, .none, 0x0, 0x0, 0x1, 0x0, 0x0⟩,
   ⟨.CLK_TRIM, .none, 0x0, 0x0, 0x0, 0x0, 0x0⟩,
   ⟨.CLK_GATE, .none, 0x0, 0xFFF, 0x0, 0x0, 0xFFF⟩,
   ⟨.CLK_TILE_SEL, .none, 0x0, 0xF, 0x0, 0x0, 0x0⟩,
   ⟨.CLK_TILE_GATE, .clkTile, 0x0, 0x1FFFF, 0x0, 0x0, 0x1FFFF⟩]

/-! ### GAU_ -/

abbrev Reg.GAU_ID : Reg := ⟨2, 0x000⟩
abbrev Reg.GAU_CTRL : Reg := ⟨2, 0x004⟩
abbrev Reg.GAU_STATE : Reg := ⟨2, 0x008⟩
abbrev Reg.GAU_STS : Reg := ⟨2, 0x00C⟩
abbrev Reg.GAU_STS_EN : Reg := ⟨2, 0x010⟩
abbrev Reg.GAU_CMD : Reg := ⟨2, 0x014⟩
abbrev Reg.GAU_COUNT_LO : Reg := ⟨2, 0x018⟩
abbrev Reg.GAU_COUNT_HI : Reg := ⟨2, 0x01C⟩
abbrev Reg.GAU_OFFSET : Reg := ⟨2, 0x020⟩
abbrev Reg.GAU_LAUNCH_ID : Reg := ⟨2, 0x024⟩
abbrev Reg.GAU_LAUNCH_LO : Reg := ⟨2, 0x028⟩
abbrev Reg.GAU_LAUNCH_HI : Reg := ⟨2, 0x02C⟩

abbrev Fld.GAU_ID_FRAC_BITS : Fld := ⟨.GAU_ID, 0, 8⟩
abbrev Fld.GAU_ID_REALM_ROUND : Fld := ⟨.GAU_ID, 8, 8⟩
abbrev Fld.GAU_CTRL_SERVO_EN : Fld := ⟨.GAU_CTRL, 0, 1⟩
abbrev Fld.GAU_CTRL_STEP_EN : Fld := ⟨.GAU_CTRL, 1, 1⟩
abbrev Fld.GAU_STATE_STATE : Fld := ⟨.GAU_STATE, 0, 3⟩
abbrev Fld.GAU_STS_LOCKED : Fld := ⟨.GAU_STS, 0, 1⟩
abbrev Fld.GAU_STS_LOCK_LOST : Fld := ⟨.GAU_STS, 1, 1⟩
abbrev Fld.GAU_STS_HOLDOVER : Fld := ⟨.GAU_STS, 2, 1⟩
abbrev Fld.GAU_STS_STEP : Fld := ⟨.GAU_STS, 3, 1⟩
abbrev Fld.GAU_STS_LAUNCH_SET : Fld := ⟨.GAU_STS, 4, 1⟩
abbrev Fld.GAU_STS_SEQ : Fld := ⟨.GAU_STS, 24, 8⟩
abbrev Fld.GAU_STS_EN_EVT_EN : Fld := ⟨.GAU_STS_EN, 0, 8⟩
abbrev Fld.GAU_CMD_REALIGN : Fld := ⟨.GAU_CMD, 0, 1⟩
abbrev Fld.GAU_COUNT_LO_COUNT : Fld := ⟨.GAU_COUNT_LO, 0, 32⟩
abbrev Fld.GAU_COUNT_HI_COUNT : Fld := ⟨.GAU_COUNT_HI, 0, 32⟩
abbrev Fld.GAU_OFFSET_OFFSET : Fld := ⟨.GAU_OFFSET, 0, 32⟩
abbrev Fld.GAU_LAUNCH_ID_VALUE : Fld := ⟨.GAU_LAUNCH_ID, 0, 32⟩
abbrev Fld.GAU_LAUNCH_LO_VALUE : Fld := ⟨.GAU_LAUNCH_LO, 0, 32⟩
abbrev Fld.GAU_LAUNCH_HI_VALUE : Fld := ⟨.GAU_LAUNCH_HI, 0, 32⟩

/-- The GAU_ register page. -/
def regRowsGAU : List RegRow :=
  [⟨.GAU_ID, .none, 0x2008, 0x0, 0x0, 0x0, 0x0⟩,
   ⟨.GAU_CTRL, .none, 0x3, 0x3, 0x0, 0x0, 0x3⟩,
   ⟨.GAU_STATE, .none, 0x0, 0x0, 0x0, 0x0, 0x0⟩,
   ⟨.GAU_STS, .none, 0x0, 0x0, 0x0, 0x1F, 0x0⟩,
   ⟨.GAU_STS_EN, .none, 0xE, 0xFF, 0x0, 0x0, 0xFF⟩,
   ⟨.GAU_CMD, .none, 0x0, 0x0, 0x1, 0x0, 0x0⟩,
   ⟨.GAU_COUNT_LO, .none, 0x0, 0x0, 0x0, 0x0, 0x0⟩,
   ⟨.GAU_COUNT_HI, .none, 0x0, 0x0, 0x0, 0x0, 0x0⟩,
   ⟨.GAU_OFFSET, .none, 0x0, 0x0, 0x0, 0x0, 0x0⟩,
   ⟨.GAU_LAUNCH_ID, .none, 0x0, 0x0, 0x0, 0x0, 0x0⟩,
   ⟨.GAU_LAUNCH_LO, .none, 0x0, 0x0, 0x0, 0x0, 0x0⟩,
   ⟨.GAU_LAUNCH_HI, .none, 0x0, 0x0, 0x0, 0x0, 0x0⟩]

/-! ### STV_ -/

abbrev Reg.STV_ID : Reg := ⟨3, 0x000⟩
abbrev Reg.STV_CTRL : Reg := ⟨3, 0x004⟩
abbrev Reg.STV_STATE : Reg := ⟨3, 0x008⟩
abbrev Reg.STV_STS : Reg := ⟨3, 0x00C⟩
abbrev Reg.STV_STS_EN : Reg := ⟨3, 0x010⟩
abbrev Reg.STV_CMD : Reg := ⟨3, 0x014⟩
abbrev Reg.STV_WIRE : Reg := ⟨3, 0x018⟩
abbrev Reg.STV_LOOP : Reg := ⟨3, 0x01C⟩
abbrev Reg.STV_LAUNCH_ID : Reg := ⟨3, 0x020⟩
abbrev Reg.STV_LAUNCH_LO : Reg := ⟨3, 0x024⟩
abbrev Reg.STV_LAUNCH_HI : Reg := ⟨3, 0x028⟩
abbrev Reg.STV_ACT_LO : Reg := ⟨3, 0x02C⟩
abbrev Reg.STV_ACT_HI : Reg := ⟨3, 0x030⟩
abbrev Reg.STV_MAP_SEL : Reg := ⟨3, 0x034⟩
abbrev Reg.STV_MAP : Reg := ⟨3, 0x038⟩
abbrev Reg.STV_PERF_CRC : Reg := ⟨3, 0x03C⟩
abbrev Reg.STV_PERF_MSG : Reg := ⟨3, 0x040⟩

abbrev Fld.STV_ID_MAX_MODULES : Fld := ⟨.STV_ID, 0, 7⟩
abbrev Fld.STV_ID_SLOTS : Fld := ⟨.STV_ID, 8, 5⟩
abbrev Fld.STV_CTRL_ATTACH_EN : Fld := ⟨.STV_CTRL, 0, 1⟩
abbrev Fld.STV_CTRL_LAUNCH_EVT : Fld := ⟨.STV_CTRL, 1, 1⟩
abbrev Fld.STV_CTRL_TX_SLOTS : Fld := ⟨.STV_CTRL, 2, 2⟩
abbrev Fld.STV_STATE_ATTACH : Fld := ⟨.STV_STATE, 0, 2⟩
abbrev Fld.STV_STATE_HEAD : Fld := ⟨.STV_STATE, 2, 1⟩
abbrev Fld.STV_STATE_ADDR_VALID : Fld := ⟨.STV_STATE, 3, 1⟩
abbrev Fld.STV_STATE_ADDR : Fld := ⟨.STV_STATE, 4, 6⟩
abbrev Fld.STV_STATE_RING_CLOSED : Fld := ⟨.STV_STATE, 10, 1⟩
abbrev Fld.STV_STATE_MODULES : Fld := ⟨.STV_STATE, 11, 7⟩
abbrev Fld.STV_STS_ENUM_DONE : Fld := ⟨.STV_STS, 0, 1⟩
abbrev Fld.STV_STS_ADDR_CHANGE : Fld := ⟨.STV_STS, 1, 1⟩
abbrev Fld.STV_STS_CRC_ERR : Fld := ⟨.STV_STS, 2, 1⟩
abbrev Fld.STV_STS_RING_OPEN : Fld := ⟨.STV_STS, 3, 1⟩
abbrev Fld.STV_STS_HEAD_CONFLICT : Fld := ⟨.STV_STS, 4, 1⟩
abbrev Fld.STV_STS_CHAIN_FULL : Fld := ⟨.STV_STS, 5, 1⟩
abbrev Fld.STV_STS_PEER_STATE : Fld := ⟨.STV_STS, 6, 1⟩
abbrev Fld.STV_STS_TX_DROP : Fld := ⟨.STV_STS, 7, 1⟩
abbrev Fld.STV_STS_LAUNCH_REFUSED : Fld := ⟨.STV_STS, 8, 1⟩
abbrev Fld.STV_STS_ACT_DONE : Fld := ⟨.STV_STS, 9, 1⟩
abbrev Fld.STV_STS_SEQ : Fld := ⟨.STV_STS, 24, 8⟩
abbrev Fld.STV_STS_EN_EVT_EN : Fld := ⟨.STV_STS_EN, 0, 10⟩
abbrev Fld.STV_CMD_ENUM : Fld := ⟨.STV_CMD, 0, 1⟩
abbrev Fld.STV_CMD_LAUNCH_SEND : Fld := ⟨.STV_CMD, 1, 1⟩
abbrev Fld.STV_CMD_ACT_SEND : Fld := ⟨.STV_CMD, 2, 1⟩
abbrev Fld.STV_CMD_CNT_CLR : Fld := ⟨.STV_CMD, 3, 1⟩
abbrev Fld.STV_WIRE_DELAY : Fld := ⟨.STV_WIRE, 0, 16⟩
abbrev Fld.STV_WIRE_VALID : Fld := ⟨.STV_WIRE, 16, 1⟩
abbrev Fld.STV_LOOP_SHARE : Fld := ⟨.STV_LOOP, 0, 16⟩
abbrev Fld.STV_LOOP_HOPS : Fld := ⟨.STV_LOOP, 16, 7⟩
abbrev Fld.STV_LAUNCH_ID_VALUE : Fld := ⟨.STV_LAUNCH_ID, 0, 32⟩
abbrev Fld.STV_LAUNCH_LO_VALUE : Fld := ⟨.STV_LAUNCH_LO, 0, 32⟩
abbrev Fld.STV_LAUNCH_HI_VALUE : Fld := ⟨.STV_LAUNCH_HI, 0, 32⟩
abbrev Fld.STV_ACT_LO_ADDR : Fld := ⟨.STV_ACT_LO, 0, 32⟩
abbrev Fld.STV_ACT_HI_ADDR : Fld := ⟨.STV_ACT_HI, 0, 32⟩
abbrev Fld.STV_MAP_SEL_ADDR : Fld := ⟨.STV_MAP_SEL, 0, 6⟩
abbrev Fld.STV_MAP_PRESENT : Fld := ⟨.STV_MAP, 0, 1⟩
abbrev Fld.STV_MAP_STATE : Fld := ⟨.STV_MAP, 1, 3⟩
abbrev Fld.STV_MAP_GAUGE : Fld := ⟨.STV_MAP, 4, 3⟩
abbrev Fld.STV_MAP_SERIAL : Fld := ⟨.STV_MAP, 8, 24⟩
abbrev Fld.STV_PERF_CRC_COUNT : Fld := ⟨.STV_PERF_CRC, 0, 32⟩
abbrev Fld.STV_PERF_MSG_COUNT : Fld := ⟨.STV_PERF_MSG, 0, 32⟩

/-- The STV_ register page. -/
def regRowsSTV : List RegRow :=
  [⟨.STV_ID, .none, 0x1740, 0x0, 0x0, 0x0, 0x0⟩,
   ⟨.STV_CTRL, .none, 0xB, 0xF, 0x0, 0x0, 0xF⟩,
   ⟨.STV_STATE, .none, 0x0, 0x0, 0x0, 0x0, 0x0⟩,
   ⟨.STV_STS, .none, 0x0, 0x0, 0x0, 0x3FF, 0x0⟩,
   ⟨.STV_STS_EN, .none, 0x7A, 0x3FF, 0x0, 0x0, 0x3FF⟩,
   ⟨.STV_CMD, .none, 0x0, 0x0, 0xF, 0x0, 0x0⟩,
   ⟨.STV_WIRE, .none, 0x0, 0x1FFFF, 0x0, 0x0, 0x1FFFF⟩,
   ⟨.STV_LOOP, .none, 0x0, 0x0, 0x0, 0x0, 0x0⟩,
   ⟨.STV_LAUNCH_ID, .none, 0x0, 0xFFFFFFFF, 0x0, 0x0, 0x0⟩,
   ⟨.STV_LAUNCH_LO, .none, 0x0, 0xFFFFFFFF, 0x0, 0x0, 0x0⟩,
   ⟨.STV_LAUNCH_HI, .none, 0x0, 0xFFFFFFFF, 0x0, 0x0, 0x0⟩,
   ⟨.STV_ACT_LO, .none, 0x0, 0xFFFFFFFF, 0x0, 0x0, 0x0⟩,
   ⟨.STV_ACT_HI, .none, 0x0, 0xFFFFFFFF, 0x0, 0x0, 0x0⟩,
   ⟨.STV_MAP_SEL, .none, 0x0, 0x3F, 0x0, 0x0, 0x0⟩,
   ⟨.STV_MAP, .stvMap, 0x0, 0x0, 0x0, 0x0, 0x0⟩,
   ⟨.STV_PERF_CRC, .none, 0x0, 0x0, 0x0, 0x0, 0x0⟩,
   ⟨.STV_PERF_MSG, .none, 0x0, 0x0, 0x0, 0x0, 0x0⟩]

/-! ### RING_ -/

abbrev Reg.RING_ID : Reg := ⟨4, 0x000⟩
abbrev Reg.RING_CTRL : Reg := ⟨4, 0x004⟩
abbrev Reg.RING_STS : Reg := ⟨4, 0x008⟩
abbrev Reg.RING_STS_EN : Reg := ⟨4, 0x00C⟩
abbrev Reg.RING_CMD : Reg := ⟨4, 0x010⟩
abbrev Reg.RING_SEL : Reg := ⟨4, 0x014⟩
abbrev Reg.RING_SQ_LO : Reg := ⟨4, 0x018⟩
abbrev Reg.RING_SQ_HI : Reg := ⟨4, 0x01C⟩
abbrev Reg.RING_CQ_LO : Reg := ⟨4, 0x020⟩
abbrev Reg.RING_CQ_HI : Reg := ⟨4, 0x024⟩
abbrev Reg.RING_SIZE : Reg := ⟨4, 0x028⟩
abbrev Reg.RING_POS : Reg := ⟨4, 0x02C⟩
abbrev Reg.RING_EQ_LO : Reg := ⟨4, 0x030⟩
abbrev Reg.RING_EQ_HI : Reg := ⟨4, 0x034⟩
abbrev Reg.RING_EQ_CFG : Reg := ⟨4, 0x038⟩
abbrev Reg.RING_EQ_POS : Reg := ⟨4, 0x03C⟩
abbrev Reg.RING_EQ_DROP : Reg := ⟨4, 0x040⟩
abbrev Reg.RING_PERF_DONE : Reg := ⟨4, 0x044⟩

abbrev Fld.RING_ID_REALM : Fld := ⟨.RING_ID, 0, 2⟩
abbrev Fld.RING_ID_RING_PAIRS : Fld := ⟨.RING_ID, 8, 7⟩
abbrev Fld.RING_CTRL_FETCH_EN : Fld := ⟨.RING_CTRL, 0, 1⟩
abbrev Fld.RING_STS_DB_INVALID : Fld := ⟨.RING_STS, 0, 1⟩
abbrev Fld.RING_STS_SQ_READ_ERR : Fld := ⟨.RING_STS, 1, 1⟩
abbrev Fld.RING_STS_CQ_WRITE_ERR : Fld := ⟨.RING_STS, 2, 1⟩
abbrev Fld.RING_STS_EQ_OVERFLOW : Fld := ⟨.RING_STS, 3, 1⟩
abbrev Fld.RING_STS_RESET_DONE : Fld := ⟨.RING_STS, 4, 1⟩
abbrev Fld.RING_STS_SEQ : Fld := ⟨.RING_STS, 24, 8⟩
abbrev Fld.RING_STS_EN_EVT_EN : Fld := ⟨.RING_STS_EN, 0, 8⟩
abbrev Fld.RING_CMD_RESET : Fld := ⟨.RING_CMD, 0, 1⟩
abbrev Fld.RING_CMD_EQ_RESET : Fld := ⟨.RING_CMD, 1, 1⟩
abbrev Fld.RING_CMD_CNT_CLR : Fld := ⟨.RING_CMD, 2, 1⟩
abbrev Fld.RING_SEL_RING : Fld := ⟨.RING_SEL, 0, 6⟩
abbrev Fld.RING_SQ_LO_BASE_LO : Fld := ⟨.RING_SQ_LO, 12, 20⟩
abbrev Fld.RING_SQ_HI_BASE_HI : Fld := ⟨.RING_SQ_HI, 0, 32⟩
abbrev Fld.RING_CQ_LO_BASE_LO : Fld := ⟨.RING_CQ_LO, 12, 20⟩
abbrev Fld.RING_CQ_HI_BASE_HI : Fld := ⟨.RING_CQ_HI, 0, 32⟩
abbrev Fld.RING_SIZE_SQ_LOG : Fld := ⟨.RING_SIZE, 0, 4⟩
abbrev Fld.RING_SIZE_CQ_LOG : Fld := ⟨.RING_SIZE, 4, 4⟩
abbrev Fld.RING_SIZE_CQ_REC : Fld := ⟨.RING_SIZE, 8, 1⟩
abbrev Fld.RING_SIZE_IRQ_EN : Fld := ⟨.RING_SIZE, 9, 1⟩
abbrev Fld.RING_SIZE_COAL_US : Fld := ⟨.RING_SIZE, 10, 8⟩
abbrev Fld.RING_SIZE_ENABLE : Fld := ⟨.RING_SIZE, 31, 1⟩
abbrev Fld.RING_POS_SQ_HEAD : Fld := ⟨.RING_POS, 0, 15⟩
abbrev Fld.RING_POS_CQ_TAIL : Fld := ⟨.RING_POS, 16, 15⟩
abbrev Fld.RING_POS_STOPPED : Fld := ⟨.RING_POS, 31, 1⟩
abbrev Fld.RING_EQ_LO_BASE_LO : Fld := ⟨.RING_EQ_LO, 12, 20⟩
abbrev Fld.RING_EQ_HI_BASE_HI : Fld := ⟨.RING_EQ_HI, 0, 32⟩
abbrev Fld.RING_EQ_CFG_EQ_LOG : Fld := ⟨.RING_EQ_CFG, 0, 4⟩
abbrev Fld.RING_EQ_CFG_IRQ_EN : Fld := ⟨.RING_EQ_CFG, 4, 1⟩
abbrev Fld.RING_EQ_CFG_COAL_US : Fld := ⟨.RING_EQ_CFG, 5, 8⟩
abbrev Fld.RING_EQ_CFG_ENABLE : Fld := ⟨.RING_EQ_CFG, 15, 1⟩
abbrev Fld.RING_EQ_CFG_CLASS_MASK : Fld := ⟨.RING_EQ_CFG, 16, 16⟩
abbrev Fld.RING_EQ_POS_EQ_TAIL : Fld := ⟨.RING_EQ_POS, 0, 16⟩
abbrev Fld.RING_EQ_POS_EQ_HEAD : Fld := ⟨.RING_EQ_POS, 16, 16⟩
abbrev Fld.RING_EQ_DROP_COUNT : Fld := ⟨.RING_EQ_DROP, 0, 32⟩
abbrev Fld.RING_PERF_DONE_COUNT : Fld := ⟨.RING_PERF_DONE, 0, 32⟩

/-- The RING_ register page. -/
def regRowsRING : List RegRow :=
  [⟨.RING_ID, .none, 0x4000, 0x0, 0x0, 0x0, 0x0⟩,
   ⟨.RING_CTRL, .none, 0x1, 0x1, 0x0, 0x0, 0x0⟩,
   ⟨.RING_STS, .none, 0x0, 0x0, 0x0, 0x1F, 0x0⟩,
   ⟨.RING_STS_EN, .none, 0x17, 0xFF, 0x0, 0x0, 0x0⟩,
   ⟨.RING_CMD, .none, 0x0, 0x0, 0x7, 0x0, 0x0⟩,
   ⟨.RING_SEL, .none, 0x0, 0x3F, 0x0, 0x0, 0x0⟩,
   ⟨.RING_SQ_LO, .ring, 0x0, 0xFFFFF000, 0x0, 0x0, 0x0⟩,
   ⟨.RING_SQ_HI, .ring, 0x0, 0xFFFFFFFF, 0x0, 0x0, 0x0⟩,
   ⟨.RING_CQ_LO, .ring, 0x0, 0xFFFFF000, 0x0, 0x0, 0x0⟩,
   ⟨.RING_CQ_HI, .ring, 0x0, 0xFFFFFFFF, 0x0, 0x0, 0x0⟩,
   ⟨.RING_SIZE, .ring, 0x44, 0x8003FFFF, 0x0, 0x0, 0x0⟩,
   ⟨.RING_POS, .ring, 0x0, 0x0, 0x0, 0x0, 0x0⟩,
   ⟨.RING_EQ_LO, .none, 0x0, 0xFFFFF000, 0x0, 0x0, 0x0⟩,
   ⟨.RING_EQ_HI, .none, 0x0, 0xFFFFFFFF, 0x0, 0x0, 0x0⟩,
   ⟨.RING_EQ_CFG, .none, 0xFFFF0006, 0xFFFF9FFF, 0x0, 0x0, 0x0⟩,
   ⟨.RING_EQ_POS, .none, 0x0, 0x0, 0x0, 0x0, 0x0⟩,
   ⟨.RING_EQ_DROP, .none, 0x0, 0x0, 0x0, 0x0, 0x0⟩,
   ⟨.RING_PERF_DONE, .none, 0x0, 0x0, 0x0, 0x0, 0x0⟩]

/-! ### CLU_ -/

abbrev Reg.CLU_ID : Reg := ⟨5, 0x000⟩
abbrev Reg.CLU_CTRL : Reg := ⟨5, 0x004⟩
abbrev Reg.CLU_STATE : Reg := ⟨5, 0x008⟩
abbrev Reg.CLU_STS : Reg := ⟨5, 0x00C⟩
abbrev Reg.CLU_STS_EN : Reg := ⟨5, 0x010⟩
abbrev Reg.CLU_CMD : Reg := ⟨5, 0x014⟩
abbrev Reg.CLU_LB_BASE : Reg := ⟨5, 0x018⟩
abbrev Reg.CLU_LB_SIZE : Reg := ⟨5, 0x01C⟩
abbrev Reg.CLU_S2D_SCRATCH : Reg := ⟨5, 0x020⟩
abbrev Reg.CLU_LB_TIMEOUT : Reg := ⟨5, 0x024⟩
abbrev Reg.CLU_LB_SEL : Reg := ⟨5, 0x028⟩
abbrev Reg.CLU_LB_CFG : Reg := ⟨5, 0x02C⟩
abbrev Reg.CLU_LB_GEOM : Reg := ⟨5, 0x030⟩
abbrev Reg.CLU_LB_COUNT : Reg := ⟨5, 0x034⟩
abbrev Reg.CLU_LB_STALL : Reg := ⟨5, 0x038⟩
abbrev Reg.CLU_PERF_TCE_BUSY : Reg := ⟨5, 0x03C⟩
abbrev Reg.CLU_PERF_LB_STALL : Reg := ⟨5, 0x040⟩
abbrev Reg.CLU_PERF_LB_WAIT : Reg := ⟨5, 0x044⟩
abbrev Reg.CLU_PERF_RECOMP : Reg := ⟨5, 0x048⟩

abbrev Fld.CLU_ID_PHYS_CLU : Fld := ⟨.CLU_ID, 0, 4⟩
abbrev Fld.CLU_ID_LOG_CLU : Fld := ⟨.CLU_ID, 8, 3⟩
abbrev Fld.CLU_ID_MAPPED : Fld := ⟨.CLU_ID, 11, 1⟩
abbrev Fld.CLU_CTRL_TCE_EN : Fld := ⟨.CLU_CTRL, 0, 1⟩
abbrev Fld.CLU_CTRL_S2D_EN : Fld := ⟨.CLU_CTRL, 1, 1⟩
abbrev Fld.CLU_CTRL_SPLIT_EN : Fld := ⟨.CLU_CTRL, 2, 1⟩
abbrev Fld.CLU_STATE_TCE_BUSY : Fld := ⟨.CLU_STATE, 0, 1⟩
abbrev Fld.CLU_STATE_TCE_QUEUED : Fld := ⟨.CLU_STATE, 4, 4⟩
abbrev Fld.CLU_STATE_GROUPS : Fld := ⟨.CLU_STATE, 8, 5⟩
abbrev Fld.CLU_STATE_S2D_BUSY : Fld := ⟨.CLU_STATE, 13, 1⟩
abbrev Fld.CLU_STS_LB_TIMEOUT : Fld := ⟨.CLU_STS, 0, 1⟩
abbrev Fld.CLU_STS_LB_ABORT : Fld := ⟨.CLU_STS, 1, 1⟩
abbrev Fld.CLU_STS_TCE_ECC_UE : Fld := ⟨.CLU_STS, 2, 1⟩
abbrev Fld.CLU_STS_TCE_ECC_CE : Fld := ⟨.CLU_STS, 3, 1⟩
abbrev Fld.CLU_STS_S2D_NOSPACE : Fld := ⟨.CLU_STS, 4, 1⟩
abbrev Fld.CLU_STS_ARG_NAN : Fld := ⟨.CLU_STS, 5, 1⟩
abbrev Fld.CLU_STS_TCE_ACC_SAT : Fld := ⟨.CLU_STS, 6, 1⟩
abbrev Fld.CLU_STS_SEQ : Fld := ⟨.CLU_STS, 24, 8⟩
abbrev Fld.CLU_STS_EN_EVT_EN : Fld := ⟨.CLU_STS_EN, 0, 8⟩
abbrev Fld.CLU_CMD_LB_FLUSH : Fld := ⟨.CLU_CMD, 0, 1⟩
abbrev Fld.CLU_CMD_CNT_CLR : Fld := ⟨.CLU_CMD, 1, 1⟩
abbrev Fld.CLU_LB_BASE_BASE : Fld := ⟨.CLU_LB_BASE, 0, 12⟩
abbrev Fld.CLU_LB_SIZE_SIZE : Fld := ⟨.CLU_LB_SIZE, 0, 10⟩
abbrev Fld.CLU_S2D_SCRATCH_BASE : Fld := ⟨.CLU_S2D_SCRATCH, 0, 12⟩
abbrev Fld.CLU_S2D_SCRATCH_SIZE : Fld := ⟨.CLU_S2D_SCRATCH, 12, 10⟩
abbrev Fld.CLU_LB_TIMEOUT_LIMIT : Fld := ⟨.CLU_LB_TIMEOUT, 0, 24⟩
abbrev Fld.CLU_LB_SEL_BUF : Fld := ⟨.CLU_LB_SEL, 0, 8⟩
abbrev Fld.CLU_LB_CFG_VALID : Fld := ⟨.CLU_LB_CFG, 0, 1⟩
abbrev Fld.CLU_LB_CFG_DIR : Fld := ⟨.CLU_LB_CFG, 1, 1⟩
abbrev Fld.CLU_LB_CFG_LAYER : Fld := ⟨.CLU_LB_CFG, 4, 3⟩
abbrev Fld.CLU_LB_CFG_PROD_TILE : Fld := ⟨.CLU_LB_CFG, 8, 4⟩
abbrev Fld.CLU_LB_CFG_CONS_TILE : Fld := ⟨.CLU_LB_CFG, 12, 4⟩
abbrev Fld.CLU_LB_CFG_DEPTH : Fld := ⟨.CLU_LB_CFG, 16, 9⟩
abbrev Fld.CLU_LB_GEOM_ROW_LINES : Fld := ⟨.CLU_LB_GEOM, 0, 8⟩
abbrev Fld.CLU_LB_GEOM_SLOT_BASE : Fld := ⟨.CLU_LB_GEOM, 8, 15⟩
abbrev Fld.CLU_LB_COUNT_PROD_CNT : Fld := ⟨.CLU_LB_COUNT, 0, 16⟩
abbrev Fld.CLU_LB_COUNT_CONS_CNT : Fld := ⟨.CLU_LB_COUNT, 16, 16⟩
abbrev Fld.CLU_LB_STALL_COUNT : Fld := ⟨.CLU_LB_STALL, 0, 32⟩
abbrev Fld.CLU_PERF_TCE_BUSY_COUNT : Fld := ⟨.CLU_PERF_TCE_BUSY, 0, 32⟩
abbrev Fld.CLU_PERF_LB_STALL_COUNT : Fld := ⟨.CLU_PERF_LB_STALL, 0, 32⟩
abbrev Fld.CLU_PERF_LB_WAIT_COUNT : Fld := ⟨.CLU_PERF_LB_WAIT, 0, 32⟩
abbrev Fld.CLU_PERF_RECOMP_COUNT : Fld := ⟨.CLU_PERF_RECOMP, 0, 32⟩

/-- The CLU_ register page. -/
def regRowsCLU : List RegRow :=
  [⟨.CLU_ID, .none, 0x0, 0x0, 0x0, 0x0, 0x0⟩,
   ⟨.CLU_CTRL, .none, 0x7, 0x7, 0x0, 0x0, 0x7⟩,
   ⟨.CLU_STATE, .none, 0x0, 0x0, 0x0, 0x0, 0x0⟩,
   ⟨.CLU_STS, .none, 0x0, 0x0, 0x0, 0x7F, 0x0⟩,
   ⟨.CLU_STS_EN, .none, 0x47, 0xFF, 0x0, 0x0, 0xFF⟩,
   ⟨.CLU_CMD, .none, 0x0, 0x0, 0x3, 0x0, 0x0⟩,
   ⟨.CLU_LB_BASE, .none, 0xE00, 0xFFF, 0x0, 0x0, 0xFFF⟩,
   ⟨.CLU_LB_SIZE, .none, 0x100, 0x3FF, 0x0, 0x0, 0x3FF⟩,
   ⟨.CLU_S2D_SCRATCH, .none, 0x100F00, 0x3FFFFF, 0x0, 0x0, 0x3FFFFF⟩,
   ⟨.CLU_LB_TIMEOUT, .none, 0x30D4, 0xFFFFFF, 0x0, 0x0, 0xFFFFFF⟩,
   ⟨.CLU_LB_SEL, .none, 0x0, 0xFF, 0x0, 0x0, 0x0⟩,
   ⟨.CLU_LB_CFG, .cluLb, 0x0, 0x0, 0x0, 0x0, 0x0⟩,
   ⟨.CLU_LB_GEOM, .cluLb, 0x0, 0x0, 0x0, 0x0, 0x0⟩,
   ⟨.CLU_LB_COUNT, .cluLb, 0x0, 0x0, 0x0, 0x0, 0x0⟩,
   ⟨.CLU_LB_STALL, .cluLb, 0x0, 0x0, 0x0, 0x0, 0x0⟩,
   ⟨.CLU_PERF_TCE_BUSY, .none, 0x0, 0x0, 0x0, 0x0, 0x0⟩,
   ⟨.CLU_PERF_LB_STALL, .none, 0x0, 0x0, 0x0, 0x0, 0x0⟩,
   ⟨.CLU_PERF_LB_WAIT, .none, 0x0, 0x0, 0x0, 0x0, 0x0⟩,
   ⟨.CLU_PERF_RECOMP, .none, 0x0, 0x0, 0x0, 0x0, 0x0⟩]

/-! ### TIL_ -/

abbrev Reg.TIL_ID : Reg := ⟨6, 0x000⟩
abbrev Reg.TIL_CTRL : Reg := ⟨6, 0x004⟩
abbrev Reg.TIL_STATE : Reg := ⟨6, 0x008⟩
abbrev Reg.TIL_CVT : Reg := ⟨6, 0x00C⟩
abbrev Reg.TIL_STS : Reg := ⟨6, 0x010⟩
abbrev Reg.TIL_STS_EN : Reg := ⟨6, 0x014⟩
abbrev Reg.TIL_CMD : Reg := ⟨6, 0x018⟩
abbrev Reg.TIL_ECC_CNT : Reg := ⟨6, 0x01C⟩
abbrev Reg.TIL_ECC_ADDR : Reg := ⟨6, 0x020⟩
abbrev Reg.TIL_SCRUB_CFG : Reg := ⟨6, 0x024⟩
abbrev Reg.TIL_COLMAP_SEL : Reg := ⟨6, 0x028⟩
abbrev Reg.TIL_COLMAP : Reg := ⟨6, 0x02C⟩
abbrev Reg.TIL_PERF_BUSY : Reg := ⟨6, 0x030⟩
abbrev Reg.TIL_PERF_CONFLICT : Reg := ⟨6, 0x034⟩
abbrev Reg.TIL_PERF_IDXWAIT : Reg := ⟨6, 0x038⟩
abbrev Reg.TIL_UCODE_ID : Reg := ⟨6, 0x03C⟩

abbrev Fld.TIL_ID_PHYS_TILE : Fld := ⟨.TIL_ID, 0, 5⟩
abbrev Fld.TIL_ID_PHYS_CLU : Fld := ⟨.TIL_ID, 8, 4⟩
abbrev Fld.TIL_ID_LOG_TILE : Fld := ⟨.TIL_ID, 16, 7⟩
abbrev Fld.TIL_ID_MAPPED : Fld := ⟨.TIL_ID, 23, 1⟩
abbrev Fld.TIL_CTRL_ENABLE : Fld := ⟨.TIL_CTRL, 0, 1⟩
abbrev Fld.TIL_CTRL_HALT : Fld := ⟨.TIL_CTRL, 1, 1⟩
abbrev Fld.TIL_CTRL_SCRUB_EN : Fld := ⟨.TIL_CTRL, 2, 1⟩
abbrev Fld.TIL_STATE_STATE : Fld := ⟨.TIL_STATE, 0, 2⟩
abbrev Fld.TIL_STATE_OPS_QUEUED : Fld := ⟨.TIL_STATE, 8, 4⟩
abbrev Fld.TIL_CVT_RND : Fld := ⟨.TIL_CVT, 0, 1⟩
abbrev Fld.TIL_CVT_OVF_SAT : Fld := ⟨.TIL_CVT, 1, 1⟩
abbrev Fld.TIL_STS_ACC_SAT : Fld := ⟨.TIL_STS, 0, 1⟩
abbrev Fld.TIL_STS_NAN_OUT : Fld := ⟨.TIL_STS, 1, 1⟩
abbrev Fld.TIL_STS_CVT_OVF : Fld := ⟨.TIL_STS, 2, 1⟩
abbrev Fld.TIL_STS_ECC_CE : Fld := ⟨.TIL_STS, 3, 1⟩
abbrev Fld.TIL_STS_ECC_UE : Fld := ⟨.TIL_STS, 4, 1⟩
abbrev Fld.TIL_STS_OP_FAULT : Fld := ⟨.TIL_STS, 5, 1⟩
abbrev Fld.TIL_STS_COL_RETIRE : Fld := ⟨.TIL_STS, 6, 1⟩
abbrev Fld.TIL_STS_COL_EXHAUST : Fld := ⟨.TIL_STS, 7, 1⟩
abbrev Fld.TIL_STS_SEQ : Fld := ⟨.TIL_STS, 24, 8⟩
abbrev Fld.TIL_STS_EN_EVT_EN : Fld := ⟨.TIL_STS_EN, 0, 8⟩
abbrev Fld.TIL_CMD_CNT_CLR : Fld := ⟨.TIL_CMD, 0, 1⟩
abbrev Fld.TIL_CMD_SCRUB_NOW : Fld := ⟨.TIL_CMD, 1, 1⟩
abbrev Fld.TIL_ECC_CNT_CE_COUNT : Fld := ⟨.TIL_ECC_CNT, 0, 16⟩
abbrev Fld.TIL_ECC_CNT_UE_COUNT : Fld := ⟨.TIL_ECC_CNT, 16, 8⟩
abbrev Fld.TIL_ECC_ADDR_WORD : Fld := ⟨.TIL_ECC_ADDR, 0, 3⟩
abbrev Fld.TIL_ECC_ADDR_BANK : Fld := ⟨.TIL_ECC_ADDR, 3, 5⟩
abbrev Fld.TIL_ECC_ADDR_ROW : Fld := ⟨.TIL_ECC_ADDR, 8, 10⟩
abbrev Fld.TIL_ECC_ADDR_VALID : Fld := ⟨.TIL_ECC_ADDR, 18, 1⟩
abbrev Fld.TIL_SCRUB_CFG_PASS_TIME : Fld := ⟨.TIL_SCRUB_CFG, 0, 8⟩
abbrev Fld.TIL_SCRUB_CFG_CE_LIMIT : Fld := ⟨.TIL_SCRUB_CFG, 8, 8⟩
abbrev Fld.TIL_COLMAP_SEL_BANK : Fld := ⟨.TIL_COLMAP_SEL, 0, 5⟩
abbrev Fld.TIL_COLMAP_SEL_GROUP : Fld := ⟨.TIL_COLMAP_SEL, 5, 4⟩
abbrev Fld.TIL_COLMAP_FAILED_COL : Fld := ⟨.TIL_COLMAP, 0, 6⟩
abbrev Fld.TIL_COLMAP_IN_USE : Fld := ⟨.TIL_COLMAP, 6, 1⟩
abbrev Fld.TIL_COLMAP_FACTORY : Fld := ⟨.TIL_COLMAP, 7, 1⟩
abbrev Fld.TIL_PERF_BUSY_COUNT : Fld := ⟨.TIL_PERF_BUSY, 0, 32⟩
abbrev Fld.TIL_PERF_CONFLICT_COUNT : Fld := ⟨.TIL_PERF_CONFLICT, 0, 32⟩
abbrev Fld.TIL_PERF_IDXWAIT_COUNT : Fld := ⟨.TIL_PERF_IDXWAIT, 0, 32⟩
abbrev Fld.TIL_UCODE_ID_IMAGE : Fld := ⟨.TIL_UCODE_ID, 0, 16⟩
abbrev Fld.TIL_UCODE_ID_BUILD : Fld := ⟨.TIL_UCODE_ID, 16, 16⟩

/-- The TIL_ register page. -/
def regRowsTIL : List RegRow :=
  [⟨.TIL_ID, .none, 0x0, 0x0, 0x0, 0x0, 0x0⟩,
   ⟨.TIL_CTRL, .none, 0x5, 0x7, 0x0, 0x0, 0x7⟩,
   ⟨.TIL_STATE, .none, 0x0, 0x0, 0x0, 0x0, 0x0⟩,
   ⟨.TIL_CVT, .none, 0x2, 0x3, 0x0, 0x0, 0x3⟩,
   ⟨.TIL_STS, .none, 0x0, 0x0, 0x0, 0xFF, 0x0⟩,
   ⟨.TIL_STS_EN, .none, 0xF0, 0xFF, 0x0, 0x0, 0xFF⟩,
   ⟨.TIL_CMD, .none, 0x0, 0x0, 0x3, 0x0, 0x0⟩,
   ⟨.TIL_ECC_CNT, .none, 0x0, 0x0, 0x0, 0x0, 0x0⟩,
   ⟨.TIL_ECC_ADDR, .none, 0x0, 0x0, 0x0, 0x0, 0x0⟩,
   ⟨.TIL_SCRUB_CFG, .none, 0x414, 0xFFFF, 0x0, 0x0, 0xFFFF⟩,
   ⟨.TIL_COLMAP_SEL, .none, 0x0, 0x1FF, 0x0, 0x0, 0x0⟩,
   ⟨.TIL_COLMAP, .tilColmap, 0x0, 0x0, 0x0, 0x0, 0x0⟩,
   ⟨.TIL_PERF_BUSY, .none, 0x0, 0x0, 0x0, 0x0, 0x0⟩,
   ⟨.TIL_PERF_CONFLICT, .none, 0x0, 0x0, 0x0, 0x0, 0x0⟩,
   ⟨.TIL_PERF_IDXWAIT, .none, 0x0, 0x0, 0x0, 0x0, 0x0⟩,
   ⟨.TIL_UCODE_ID, .none, 0x0, 0x0, 0x0, 0x0, 0x0⟩]

/-! ### KVM_ -/

abbrev Reg.KVM_ID : Reg := ⟨7, 0x000⟩
abbrev Reg.KVM_CTRL : Reg := ⟨7, 0x004⟩
abbrev Reg.KVM_STATE : Reg := ⟨7, 0x008⟩
abbrev Reg.KVM_STS : Reg := ⟨7, 0x00C⟩
abbrev Reg.KVM_STS_EN : Reg := ⟨7, 0x010⟩
abbrev Reg.KVM_CMD : Reg := ⟨7, 0x014⟩
abbrev Reg.KVM_EPOCH : Reg := ⟨7, 0x018⟩
abbrev Reg.KVM_DEFER : Reg := ⟨7, 0x01C⟩
abbrev Reg.KVM_RLM_SEL : Reg := ⟨7, 0x020⟩
abbrev Reg.KVM_RLM_POOL : Reg := ⟨7, 0x024⟩
abbrev Reg.KVM_RLM_POOLSZ : Reg := ⟨7, 0x028⟩
abbrev Reg.KVM_RLM_ENT : Reg := ⟨7, 0x02C⟩
abbrev Reg.KVM_RLM_SPILL : Reg := ⟨7, 0x030⟩
abbrev Reg.KVM_RLM_HOST_LO : Reg := ⟨7, 0x034⟩
abbrev Reg.KVM_RLM_HOST_HI : Reg := ⟨7, 0x038⟩
abbrev Reg.KVM_RLM_HOST_SZ : Reg := ⟨7, 0x03C⟩
abbrev Reg.KVM_RLM_USE : Reg := ⟨7, 0x040⟩
abbrev Reg.KVM_RLM_FREE : Reg := ⟨7, 0x044⟩
abbrev Reg.KVM_PROF_SEL : Reg := ⟨7, 0x048⟩
abbrev Reg.KVM_PROF_GEOM : Reg := ⟨7, 0x04C⟩
abbrev Reg.KVM_PROF_POLICY : Reg := ⟨7, 0x050⟩
abbrev Reg.KVM_PROF_KEEP : Reg := ⟨7, 0x054⟩
abbrev Reg.KVM_ERR_ENTRY : Reg := ⟨7, 0x058⟩
abbrev Reg.KVM_PERF_SPILL : Reg := ⟨7, 0x05C⟩
abbrev Reg.KVM_PERF_FETCH : Reg := ⟨7, 0x060⟩
abbrev Reg.KVM_PERF_FETCH_WAIT : Reg := ⟨7, 0x064⟩
abbrev Reg.KVM_PERF_COW : Reg := ⟨7, 0x068⟩

abbrev Fld.KVM_ID_MAP_ENTRIES : Fld := ⟨.KVM_ID, 0, 21⟩
abbrev Fld.KVM_ID_PROFILES : Fld := ⟨.KVM_ID, 21, 7⟩
abbrev Fld.KVM_CTRL_SPILL_EN : Fld := ⟨.KVM_CTRL, 0, 1⟩
abbrev Fld.KVM_CTRL_PREFETCH_EN : Fld := ⟨.KVM_CTRL, 1, 1⟩
abbrev Fld.KVM_CTRL_SCORE_EN : Fld := ⟨.KVM_CTRL, 2, 1⟩
abbrev Fld.KVM_CTRL_PREFETCH_PAGES : Fld := ⟨.KVM_CTRL, 4, 4⟩
abbrev Fld.KVM_STATE_FREE_ENTRIES : Fld := ⟨.KVM_STATE, 0, 21⟩
abbrev Fld.KVM_STATE_SPILL_BUSY : Fld := ⟨.KVM_STATE, 21, 1⟩
abbrev Fld.KVM_STATE_FETCH_BUSY : Fld := ⟨.KVM_STATE, 22, 1⟩
abbrev Fld.KVM_STS_MAP_CE : Fld := ⟨.KVM_STS, 0, 1⟩
abbrev Fld.KVM_STS_MAP_UE : Fld := ⟨.KVM_STS, 1, 1⟩
abbrev Fld.KVM_STS_FRAME_UE : Fld := ⟨.KVM_STS, 2, 1⟩
abbrev Fld.KVM_STS_SEAL_FAIL : Fld := ⟨.KVM_STS, 3, 1⟩
abbrev Fld.KVM_STS_NOPAGE : Fld := ⟨.KVM_STS, 4, 1⟩
abbrev Fld.KVM_STS_NOFRAME : Fld := ⟨.KVM_STS, 5, 1⟩
abbrev Fld.KVM_STS_EVICT : Fld := ⟨.KVM_STS, 6, 1⟩
abbrev Fld.KVM_STS_EPOCH_HOLD : Fld := ⟨.KVM_STS, 7, 1⟩
abbrev Fld.KVM_STS_SEQ : Fld := ⟨.KVM_STS, 24, 8⟩
abbrev Fld.KVM_STS_EN_EVT_EN : Fld := ⟨.KVM_STS_EN, 0, 8⟩
abbrev Fld.KVM_CMD_CNT_CLR : Fld := ⟨.KVM_CMD, 0, 1⟩
abbrev Fld.KVM_CMD_RECLAIM_NOW : Fld := ⟨.KVM_CMD, 1, 1⟩
abbrev Fld.KVM_EPOCH_CUR : Fld := ⟨.KVM_EPOCH, 0, 16⟩
abbrev Fld.KVM_EPOCH_OLDEST : Fld := ⟨.KVM_EPOCH, 16, 16⟩
abbrev Fld.KVM_DEFER_DEFERRED : Fld := ⟨.KVM_DEFER, 0, 21⟩
abbrev Fld.KVM_RLM_SEL_REALM : Fld := ⟨.KVM_RLM_SEL, 0, 2⟩
abbrev Fld.KVM_RLM_POOL_BASE : Fld := ⟨.KVM_RLM_POOL, 0, 32⟩
abbrev Fld.KVM_RLM_POOLSZ_SIZE : Fld := ⟨.KVM_RLM_POOLSZ, 0, 26⟩
abbrev Fld.KVM_RLM_ENT_MIN : Fld := ⟨.KVM_RLM_ENT, 0, 16⟩
abbrev Fld.KVM_RLM_ENT_MAX : Fld := ⟨.KVM_RLM_ENT, 16, 16⟩
abbrev Fld.KVM_RLM_SPILL_HOST : Fld := ⟨.KVM_RLM_SPILL, 0, 1⟩
abbrev Fld.KVM_RLM_SPILL_DRAWER : Fld := ⟨.KVM_RLM_SPILL, 1, 1⟩
abbrev Fld.KVM_RLM_SPILL_LOW : Fld := ⟨.KVM_RLM_SPILL, 8, 8⟩
abbrev Fld.KVM_RLM_SPILL_HIGH : Fld := ⟨.KVM_RLM_SPILL, 16, 8⟩
abbrev Fld.KVM_RLM_SPILL_RESERVE : Fld := ⟨.KVM_RLM_SPILL, 24, 8⟩
abbrev Fld.KVM_RLM_HOST_LO_BASE_LO : Fld := ⟨.KVM_RLM_HOST_LO, 12, 20⟩
abbrev Fld.KVM_RLM_HOST_HI_BASE_HI : Fld := ⟨.KVM_RLM_HOST_HI, 0, 32⟩
abbrev Fld.KVM_RLM_HOST_SZ_SIZE : Fld := ⟨.KVM_RLM_HOST_SZ, 0, 32⟩
abbrev Fld.KVM_RLM_USE_ENTRIES : Fld := ⟨.KVM_RLM_USE, 0, 21⟩
abbrev Fld.KVM_RLM_FREE_GRANULES : Fld := ⟨.KVM_RLM_FREE, 0, 26⟩
abbrev Fld.KVM_PROF_SEL_PROF : Fld := ⟨.KVM_PROF_SEL, 0, 6⟩
abbrev Fld.KVM_PROF_GEOM_ROW_LINES : Fld := ⟨.KVM_PROF_GEOM, 0, 11⟩
abbrev Fld.KVM_PROF_GEOM_PLANES_M1 : Fld := ⟨.KVM_PROF_GEOM, 16, 8⟩
abbrev Fld.KVM_PROF_GEOM_S0_LOG : Fld := ⟨.KVM_PROF_GEOM, 24, 3⟩
abbrev Fld.KVM_PROF_GEOM_CAP_LOG : Fld := ⟨.KVM_PROF_GEOM, 27, 3⟩
abbrev Fld.KVM_PROF_GEOM_VALID : Fld := ⟨.KVM_PROF_GEOM, 30, 1⟩
abbrev Fld.KVM_PROF_POLICY_EVICT : Fld := ⟨.KVM_PROF_POLICY, 0, 1⟩
abbrev Fld.KVM_PROF_POLICY_DECAY : Fld := ⟨.KVM_PROF_POLICY, 1, 3⟩
abbrev Fld.KVM_PROF_POLICY_STAGE_TOKENS : Fld := ⟨.KVM_PROF_POLICY, 4, 12⟩
abbrev Fld.KVM_PROF_POLICY_RECENT : Fld := ⟨.KVM_PROF_POLICY, 16, 16⟩
abbrev Fld.KVM_PROF_KEEP_KEEP : Fld := ⟨.KVM_PROF_KEEP, 0, 16⟩
abbrev Fld.KVM_ERR_ENTRY_ENTRY : Fld := ⟨.KVM_ERR_ENTRY, 0, 20⟩
abbrev Fld.KVM_ERR_ENTRY_VALID : Fld := ⟨.KVM_ERR_ENTRY, 20, 1⟩
abbrev Fld.KVM_PERF_SPILL_COUNT : Fld := ⟨.KVM_PERF_SPILL, 0, 32⟩
abbrev Fld.KVM_PERF_FETCH_COUNT : Fld := ⟨.KVM_PERF_FETCH, 0, 32⟩
abbrev Fld.KVM_PERF_FETCH_WAIT_COUNT : Fld := ⟨.KVM_PERF_FETCH_WAIT, 0, 32⟩
abbrev Fld.KVM_PERF_COW_COUNT : Fld := ⟨.KVM_PERF_COW, 0, 32⟩

/-- The KVM_ register page. -/
def regRowsKVM : List RegRow :=
  [⟨.KVM_ID, .none, 0x8100000, 0x0, 0x0, 0x0, 0x0⟩,
   ⟨.KVM_CTRL, .none, 0x27, 0xF7, 0x0, 0x0, 0xF7⟩,
   ⟨.KVM_STATE, .none, 0xFFFFF, 0x0, 0x0, 0x0, 0x0⟩,
   ⟨.KVM_STS, .none, 0x0, 0x0, 0x0, 0xFF, 0x0⟩,
   ⟨.KVM_STS_EN, .none, 0xAE, 0xFF, 0x0, 0x0, 0xFF⟩,
   ⟨.KVM_CMD, .none, 0x0, 0x0, 0x3, 0x0, 0x0⟩,
   ⟨.KVM_EPOCH, .none, 0x0, 0x0, 0x0, 0x0, 0x0⟩,
   ⟨.KVM_DEFER, .none, 0x0, 0x0, 0x0, 0x0, 0x0⟩,
   ⟨.KVM_RLM_SEL, .none, 0x0, 0x3, 0x0, 0x0, 0x0⟩,
   ⟨.KVM_RLM_POOL, .kvmRlm, 0x0, 0xFFFFFFFF, 0x0, 0x0, 0xFFFFFFFF⟩,
   ⟨.KVM_RLM_POOLSZ, .kvmRlm, 0x0, 0x3FFFFFF, 0x0, 0x0, 0x3FFFFFF⟩,
   ⟨.KVM_RLM_ENT, .kvmRlm, 0xFFFF0000, 0xFFFFFFFF, 0x0, 0x0, 0xFFFFFFFF⟩,
   ⟨.KVM_RLM_SPILL, .kvmRlm, 0x4100801, 0xFFFFFF03, 0x0, 0x0, 0xFFFFFF03⟩,
   ⟨.KVM_RLM_HOST_LO, .kvmRlm, 0x0, 0xFFFFF000, 0x0, 0x0, 0xFFFFF000⟩,
   ⟨.KVM_RLM_HOST_HI, .kvmRlm, 0x0, 0xFFFFFFFF, 0x0, 0x0, 0xFFFFFFFF⟩,
   ⟨.KVM_RLM_HOST_SZ, .kvmRlm, 0x0, 0xFFFFFFFF, 0x0, 0x0, 0xFFFFFFFF⟩,
   ⟨.KVM_RLM_USE, .kvmRlm, 0x0, 0x0, 0x0, 0x0, 0x0⟩,
   ⟨.KVM_RLM_FREE, .kvmRlm, 0x0, 0x0, 0x0, 0x0, 0x0⟩,
   ⟨.KVM_PROF_SEL, .none, 0x0, 0x3F, 0x0, 0x0, 0x0⟩,
   ⟨.KVM_PROF_GEOM, .kvmProf, 0x0, 0x7FFF07FF, 0x0, 0x0, 0x7FFF07FF⟩,
   ⟨.KVM_PROF_POLICY, .kvmProf, 0x100406, 0xFFFFFFFF, 0x0, 0x0, 0xFFFFFFFF⟩,
   ⟨.KVM_PROF_KEEP, .kvmProf, 0x8000, 0xFFFF, 0x0, 0x0, 0xFFFF⟩,
   ⟨.KVM_ERR_ENTRY, .none, 0x0, 0x0, 0x0, 0x0, 0x0⟩,
   ⟨.KVM_PERF_SPILL, .none, 0x0, 0x0, 0x0, 0x0, 0x0⟩,
   ⟨.KVM_PERF_FETCH, .none, 0x0, 0x0, 0x0, 0x0, 0x0⟩,
   ⟨.KVM_PERF_FETCH_WAIT, .none, 0x0, 0x0, 0x0, 0x0, 0x0⟩,
   ⟨.KVM_PERF_COW, .none, 0x0, 0x0, 0x0, 0x0, 0x0⟩]

/-! ### SRV_ -/

abbrev Reg.SRV_ID : Reg := ⟨8, 0x000⟩
abbrev Reg.SRV_CTRL : Reg := ⟨8, 0x004⟩
abbrev Reg.SRV_STATE : Reg := ⟨8, 0x008⟩
abbrev Reg.SRV_STS : Reg := ⟨8, 0x00C⟩
abbrev Reg.SRV_STS_EN : Reg := ⟨8, 0x010⟩
abbrev Reg.SRV_CMD : Reg := ⟨8, 0x014⟩
abbrev Reg.SRV_STEP : Reg := ⟨8, 0x018⟩
abbrev Reg.SRV_STEP_CNT : Reg := ⟨8, 0x01C⟩
abbrev Reg.SRV_RLM_SEL : Reg := ⟨8, 0x020⟩
abbrev Reg.SRV_RLM_SLOTS : Reg := ⟨8, 0x024⟩
abbrev Reg.SRV_RLM_USE : Reg := ⟨8, 0x028⟩
abbrev Reg.SRV_RLM_MDL_BASE : Reg := ⟨8, 0x02C⟩
abbrev Reg.SRV_RLM_MDL_SIZE : Reg := ⟨8, 0x030⟩
abbrev Reg.SRV_ACC_SEL : Reg := ⟨8, 0x034⟩
abbrev Reg.SRV_ACC_CFG : Reg := ⟨8, 0x038⟩
abbrev Reg.SRV_ACC_RATE : Reg := ⟨8, 0x03C⟩
abbrev Reg.SRV_ACC_LEVEL : Reg := ⟨8, 0x040⟩
abbrev Reg.SRV_MDL_SEL : Reg := ⟨8, 0x044⟩
abbrev Reg.SRV_MDL_STATE : Reg := ⟨8, 0x048⟩
abbrev Reg.SRV_PERF_TOKENS : Reg := ⟨8, 0x04C⟩
abbrev Reg.SRV_PERF_PAUSE : Reg := ⟨8, 0x050⟩
abbrev Reg.SRV_PERF_REFUSE : Reg := ⟨8, 0x054⟩
abbrev Reg.SRV_STEP_CHUNK : Reg := ⟨8, 0x058⟩

abbrev Fld.SRV_ID_SLOTS : Fld := ⟨.SRV_ID, 0, 17⟩
abbrev Fld.SRV_ID_ACCOUNTS : Fld := ⟨.SRV_ID, 17, 11⟩
abbrev Fld.SRV_CTRL_ENABLE : Fld := ⟨.SRV_CTRL, 0, 1⟩
abbrev Fld.SRV_CTRL_ADMIT_EN : Fld := ⟨.SRV_CTRL, 1, 1⟩
abbrev Fld.SRV_CTRL_RETRY : Fld := ⟨.SRV_CTRL, 2, 2⟩
abbrev Fld.SRV_CTRL_TRACK_EVT : Fld := ⟨.SRV_CTRL, 4, 1⟩
abbrev Fld.SRV_STATE_STEP_BUSY : Fld := ⟨.SRV_STATE, 0, 4⟩
abbrev Fld.SRV_STATE_LIVE : Fld := ⟨.SRV_STATE, 4, 17⟩
abbrev Fld.SRV_STS_REFUSE_SLOT : Fld := ⟨.SRV_STS, 0, 1⟩
abbrev Fld.SRV_STS_REFUSE_POOL : Fld := ⟨.SRV_STS, 1, 1⟩
abbrev Fld.SRV_STS_STEP_RETRY : Fld := ⟨.SRV_STS, 2, 1⟩
abbrev Fld.SRV_STS_STEP_FAIL : Fld := ⟨.SRV_STS, 3, 1⟩
abbrev Fld.SRV_STS_RECLAIM : Fld := ⟨.SRV_STS, 4, 1⟩
abbrev Fld.SRV_STS_MODEL_LOADED : Fld := ⟨.SRV_STS, 5, 1⟩
abbrev Fld.SRV_STS_MODEL_FAIL : Fld := ⟨.SRV_STS, 6, 1⟩
abbrev Fld.SRV_STS_SEQ : Fld := ⟨.SRV_STS, 24, 8⟩
abbrev Fld.SRV_STS_EN_EVT_EN : Fld := ⟨.SRV_STS_EN, 0, 8⟩
abbrev Fld.SRV_CMD_CNT_CLR : Fld := ⟨.SRV_CMD, 0, 1⟩
abbrev Fld.SRV_CMD_ACC_REFILL : Fld := ⟨.SRV_CMD, 1, 1⟩
abbrev Fld.SRV_STEP_MAX_SEQS : Fld := ⟨.SRV_STEP, 0, 12⟩
abbrev Fld.SRV_STEP_MAX_TOKENS : Fld := ⟨.SRV_STEP, 16, 15⟩
abbrev Fld.SRV_STEP_CNT_COUNT : Fld := ⟨.SRV_STEP_CNT, 0, 32⟩
abbrev Fld.SRV_RLM_SEL_REALM : Fld := ⟨.SRV_RLM_SEL, 0, 2⟩
abbrev Fld.SRV_RLM_SLOTS_MIN : Fld := ⟨.SRV_RLM_SLOTS, 0, 16⟩
abbrev Fld.SRV_RLM_SLOTS_MAX : Fld := ⟨.SRV_RLM_SLOTS, 16, 16⟩
abbrev Fld.SRV_RLM_USE_LIVE : Fld := ⟨.SRV_RLM_USE, 0, 17⟩
abbrev Fld.SRV_RLM_MDL_BASE_BASE : Fld := ⟨.SRV_RLM_MDL_BASE, 0, 32⟩
abbrev Fld.SRV_RLM_MDL_SIZE_SIZE : Fld := ⟨.SRV_RLM_MDL_SIZE, 0, 26⟩
abbrev Fld.SRV_ACC_SEL_ACC : Fld := ⟨.SRV_ACC_SEL, 0, 10⟩
abbrev Fld.SRV_ACC_CFG_ENABLE : Fld := ⟨.SRV_ACC_CFG, 0, 1⟩
abbrev Fld.SRV_ACC_CFG_REALM : Fld := ⟨.SRV_ACC_CFG, 1, 2⟩
abbrev Fld.SRV_ACC_CFG_DROP_LATE : Fld := ⟨.SRV_ACC_CFG, 3, 1⟩
abbrev Fld.SRV_ACC_CFG_PREFILL_WEIGHT : Fld := ⟨.SRV_ACC_CFG, 4, 8⟩
abbrev Fld.SRV_ACC_CFG_BURST : Fld := ⟨.SRV_ACC_CFG, 12, 20⟩
abbrev Fld.SRV_ACC_RATE_RATE : Fld := ⟨.SRV_ACC_RATE, 0, 24⟩
abbrev Fld.SRV_ACC_RATE_ASSIGNED : Fld := ⟨.SRV_ACC_RATE, 24, 1⟩
abbrev Fld.SRV_ACC_LEVEL_LEVEL : Fld := ⟨.SRV_ACC_LEVEL, 0, 32⟩
abbrev Fld.SRV_MDL_SEL_MODEL : Fld := ⟨.SRV_MDL_SEL, 0, 8⟩
abbrev Fld.SRV_MDL_STATE_STATE : Fld := ⟨.SRV_MDL_STATE, 0, 3⟩
abbrev Fld.SRV_MDL_STATE_REALM : Fld := ⟨.SRV_MDL_STATE, 3, 2⟩
abbrev Fld.SRV_MDL_STATE_PROFILE : Fld := ⟨.SRV_MDL_STATE, 6, 6⟩
abbrev Fld.SRV_MDL_STATE_LIVE : Fld := ⟨.SRV_MDL_STATE, 12, 16⟩
abbrev Fld.SRV_PERF_TOKENS_COUNT : Fld := ⟨.SRV_PERF_TOKENS, 0, 32⟩
abbrev Fld.SRV_PERF_PAUSE_COUNT : Fld := ⟨.SRV_PERF_PAUSE, 0, 32⟩
abbrev Fld.SRV_PERF_REFUSE_COUNT : Fld := ⟨.SRV_PERF_REFUSE, 0, 32⟩
abbrev Fld.SRV_STEP_CHUNK_MAX_CHUNK : Fld := ⟨.SRV_STEP_CHUNK, 0, 12⟩

/-- The SRV_ register page. -/
def regRowsSRV : List RegRow :=
  [⟨.SRV_ID, .none, 0x8010000, 0x0, 0x0, 0x0, 0x0⟩,
   ⟨.SRV_CTRL, .none, 0x1B, 0x1F, 0x0, 0x0, 0x1F⟩,
   ⟨.SRV_STATE, .none, 0x0, 0x0, 0x0, 0x0, 0x0⟩,
   ⟨.SRV_STS, .none, 0x0, 0x0, 0x0, 0x7F, 0x0⟩,
   ⟨.SRV_STS_EN, .none, 0x5C, 0xFF, 0x0, 0x0, 0xFF⟩,
   ⟨.SRV_CMD, .none, 0x0, 0x0, 0x3, 0x0, 0x0⟩,
   ⟨.SRV_STEP, .none, 0x20000800, 0x7FFF0FFF, 0x0, 0x0, 0x7FFF0FFF⟩,
   ⟨.SRV_STEP_CNT, .none, 0x0, 0x0, 0x0, 0x0, 0x0⟩,
   ⟨.SRV_RLM_SEL, .none, 0x0, 0x3, 0x0, 0x0, 0x0⟩,
   ⟨.SRV_RLM_SLOTS, .srvRlm, 0xFFFF0000, 0xFFFFFFFF, 0x0, 0x0, 0xFFFFFFFF⟩,
   ⟨.SRV_RLM_USE, .srvRlm, 0x0, 0x0, 0x0, 0x0, 0x0⟩,
   ⟨.SRV_RLM_MDL_BASE, .srvRlm, 0x0, 0xFFFFFFFF, 0x0, 0x0, 0xFFFFFFFF⟩,
   ⟨.SRV_RLM_MDL_SIZE, .srvRlm, 0x0, 0x3FFFFFF, 0x0, 0x0, 0x3FFFFFF⟩,
   ⟨.SRV_ACC_SEL, .none, 0x0, 0x3FF, 0x0, 0x0, 0x0⟩,
   ⟨.SRV_ACC_CFG, .srvAcc, 0x1000100, 0xFFFFFFFF, 0x0, 0x0, 0x7⟩,
   ⟨.SRV_ACC_RATE, .srvAcc, 0x0, 0x1FFFFFF, 0x0, 0x0, 0x1000000⟩,
   ⟨.SRV_ACC_LEVEL, .srvAcc, 0x0, 0x0, 0x0, 0x0, 0x0⟩,
   ⟨.SRV_MDL_SEL, .none, 0x0, 0xFF, 0x0, 0x0, 0x0⟩,
   ⟨.SRV_MDL_STATE, .srvMdl, 0x0, 0x0, 0x0, 0x0, 0x0⟩,
   ⟨.SRV_PERF_TOKENS, .none, 0x0, 0x0, 0x0, 0x0, 0x0⟩,
   ⟨.SRV_PERF_PAUSE, .none, 0x0, 0x0, 0x0, 0x0, 0x0⟩,
   ⟨.SRV_PERF_REFUSE, .none, 0x0, 0x0, 0x0, 0x0, 0x0⟩,
   ⟨.SRV_STEP_CHUNK, .none, 0x200, 0xFFF, 0x0, 0x0, 0xFFF⟩]

/-! ### CTL_ -/

abbrev Reg.CTL_ID : Reg := ⟨9, 0x000⟩
abbrev Reg.CTL_CTRL : Reg := ⟨9, 0x004⟩
abbrev Reg.CTL_STATE : Reg := ⟨9, 0x008⟩
abbrev Reg.CTL_STS : Reg := ⟨9, 0x00C⟩
abbrev Reg.CTL_STS_EN : Reg := ⟨9, 0x010⟩
abbrev Reg.CTL_CMD : Reg := ⟨9, 0x014⟩
abbrev Reg.CTL_PERIOD : Reg := ⟨9, 0x018⟩
abbrev Reg.CTL_GRID_LO : Reg := ⟨9, 0x01C⟩
abbrev Reg.CTL_GRID_HI : Reg := ⟨9, 0x020⟩
abbrev Reg.CTL_SWAP_LO : Reg := ⟨9, 0x024⟩
abbrev Reg.CTL_SWAP_HI : Reg := ⟨9, 0x028⟩
abbrev Reg.CTL_CLAIM : Reg := ⟨9, 0x02C⟩
abbrev Reg.CTL_CLAIM_LAST : Reg := ⟨9, 0x030⟩
abbrev Reg.CTL_PERIOD_CNT : Reg := ⟨9, 0x034⟩
abbrev Reg.CTL_CKPT_BASE : Reg := ⟨9, 0x038⟩
abbrev Reg.CTL_CKPT_STS : Reg := ⟨9, 0x03C⟩
abbrev Reg.CTL_LAT : Reg := ⟨9, 0x040⟩
abbrev Reg.CTL_PORT_SEL : Reg := ⟨9, 0x044⟩
abbrev Reg.CTL_PORT_CFG : Reg := ⟨9, 0x048⟩
abbrev Reg.CTL_PORT_STS : Reg := ⟨9, 0x04C⟩
abbrev Reg.CTL_Q_SEL : Reg := ⟨9, 0x050⟩
abbrev Reg.CTL_Q_STS : Reg := ⟨9, 0x054⟩
abbrev Reg.CTL_PERF_HOLD : Reg := ⟨9, 0x058⟩
abbrev Reg.CTL_PERF_REJECT : Reg := ⟨9, 0x05C⟩
abbrev Reg.CTL_PERF_MAXLAT : Reg := ⟨9, 0x060⟩

abbrev Fld.CTL_ID_AXES_MAX : Fld := ⟨.CTL_ID, 0, 9⟩
abbrev Fld.CTL_ID_PORTS : Fld := ⟨.CTL_ID, 16, 4⟩
abbrev Fld.CTL_ID_QUEUES : Fld := ⟨.CTL_ID, 20, 5⟩
abbrev Fld.CTL_CTRL_LANE_EN : Fld := ⟨.CTL_CTRL, 0, 1⟩
abbrev Fld.CTL_CTRL_AUTO_REPAIR : Fld := ⟨.CTL_CTRL, 1, 1⟩
abbrev Fld.CTL_CTRL_CKPT_EN : Fld := ⟨.CTL_CTRL, 2, 1⟩
abbrev Fld.CTL_CTRL_TIMEBASE : Fld := ⟨.CTL_CTRL, 3, 1⟩
abbrev Fld.CTL_CTRL_TS_ROLE : Fld := ⟨.CTL_CTRL, 4, 1⟩
abbrev Fld.CTL_CTRL_OWNER : Fld := ⟨.CTL_CTRL, 8, 2⟩
abbrev Fld.CTL_CTRL_LANE_MODEL : Fld := ⟨.CTL_CTRL, 16, 8⟩
abbrev Fld.CTL_STATE_STATE_A : Fld := ⟨.CTL_STATE, 0, 4⟩
abbrev Fld.CTL_STATE_STATE_B : Fld := ⟨.CTL_STATE, 4, 4⟩
abbrev Fld.CTL_STATE_HOLDER : Fld := ⟨.CTL_STATE, 8, 1⟩
abbrev Fld.CTL_STATE_LOST : Fld := ⟨.CTL_STATE, 9, 1⟩
abbrev Fld.CTL_STATE_SIMPLEX : Fld := ⟨.CTL_STATE, 10, 1⟩
abbrev Fld.CTL_STATE_TS_LOCK : Fld := ⟨.CTL_STATE, 11, 1⟩
abbrev Fld.CTL_STATE_INSTALL : Fld := ⟨.CTL_STATE, 12, 2⟩
abbrev Fld.CTL_STATE_PLACE_A : Fld := ⟨.CTL_STATE, 16, 2⟩
abbrev Fld.CTL_STATE_PLACE_B : Fld := ⟨.CTL_STATE, 18, 2⟩
abbrev Fld.CTL_STATE_INSTALL_ERR : Fld := ⟨.CTL_STATE, 24, 8⟩
abbrev Fld.CTL_STS_TAKEOVER : Fld := ⟨.CTL_STS, 0, 1⟩
abbrev Fld.CTL_STS_SELF_FAIL : Fld := ⟨.CTL_STS, 1, 1⟩
abbrev Fld.CTL_STS_LOST : Fld := ⟨.CTL_STS, 2, 1⟩
abbrev Fld.CTL_STS_SHADOW_MISMATCH : Fld := ⟨.CTL_STS, 3, 1⟩
abbrev Fld.CTL_STS_COPY_FAIL : Fld := ⟨.CTL_STS, 4, 1⟩
abbrev Fld.CTL_STS_HOLD : Fld := ⟨.CTL_STS, 5, 1⟩
abbrev Fld.CTL_STS_INGRESS_GAP : Fld := ⟨.CTL_STS, 6, 1⟩
abbrev Fld.CTL_STS_INGRESS_POISON : Fld := ⟨.CTL_STS, 7, 1⟩
abbrev Fld.CTL_STS_LINK_FLAP : Fld := ⟨.CTL_STS, 8, 1⟩
abbrev Fld.CTL_STS_TS_UNLOCK : Fld := ⟨.CTL_STS, 9, 1⟩
abbrev Fld.CTL_STS_CKPT_FAIL : Fld := ⟨.CTL_STS, 10, 1⟩
abbrev Fld.CTL_STS_INSTALL_DONE : Fld := ⟨.CTL_STS, 11, 1⟩
abbrev Fld.CTL_STS_SWAP_DONE : Fld := ⟨.CTL_STS, 12, 1⟩
abbrev Fld.CTL_STS_EGRESS_REJECT : Fld := ⟨.CTL_STS, 13, 1⟩
abbrev Fld.CTL_STS_SEQ : Fld := ⟨.CTL_STS, 24, 8⟩
abbrev Fld.CTL_STS_EN_EVT_EN : Fld := ⟨.CTL_STS_EN, 0, 14⟩
abbrev Fld.CTL_CMD_INSTALL : Fld := ⟨.CTL_CMD, 0, 1⟩
abbrev Fld.CTL_CMD_REPAIR_A : Fld := ⟨.CTL_CMD, 1, 1⟩
abbrev Fld.CTL_CMD_REPAIR_B : Fld := ⟨.CTL_CMD, 2, 1⟩
abbrev Fld.CTL_CMD_SWAP_ARM : Fld := ⟨.CTL_CMD, 3, 1⟩
abbrev Fld.CTL_CMD_SWAP_CANCEL : Fld := ⟨.CTL_CMD, 4, 1⟩
abbrev Fld.CTL_CMD_ACK_LOST : Fld := ⟨.CTL_CMD, 5, 1⟩
abbrev Fld.CTL_CMD_CNT_CLR : Fld := ⟨.CTL_CMD, 6, 1⟩
abbrev Fld.CTL_CMD_RETIRE_A : Fld := ⟨.CTL_CMD, 7, 1⟩
abbrev Fld.CTL_CMD_RETIRE_B : Fld := ⟨.CTL_CMD, 8, 1⟩
abbrev Fld.CTL_CMD_Q_FLUSH : Fld := ⟨.CTL_CMD, 9, 1⟩
abbrev Fld.CTL_PERIOD_PLOG : Fld := ⟨.CTL_PERIOD, 0, 3⟩
abbrev Fld.CTL_PERIOD_CUT : Fld := ⟨.CTL_PERIOD, 16, 16⟩
abbrev Fld.CTL_GRID_LO_GRID : Fld := ⟨.CTL_GRID_LO, 0, 32⟩
abbrev Fld.CTL_GRID_HI_GRID : Fld := ⟨.CTL_GRID_HI, 0, 32⟩
abbrev Fld.CTL_SWAP_LO_COUNT : Fld := ⟨.CTL_SWAP_LO, 0, 32⟩
abbrev Fld.CTL_SWAP_HI_COUNT : Fld := ⟨.CTL_SWAP_HI, 0, 32⟩
abbrev Fld.CTL_CLAIM_CLAIM_A : Fld := ⟨.CTL_CLAIM, 0, 16⟩
abbrev Fld.CTL_CLAIM_CLAIM_B : Fld := ⟨.CTL_CLAIM, 16, 16⟩
abbrev Fld.CTL_CLAIM_LAST_LAST : Fld := ⟨.CTL_CLAIM_LAST, 0, 16⟩
abbrev Fld.CTL_CLAIM_LAST_TAKEOVERS : Fld := ⟨.CTL_CLAIM_LAST, 16, 16⟩
abbrev Fld.CTL_PERIOD_CNT_COUNT : Fld := ⟨.CTL_PERIOD_CNT, 0, 32⟩
abbrev Fld.CTL_CKPT_BASE_BASE : Fld := ⟨.CTL_CKPT_BASE, 0, 32⟩
abbrev Fld.CTL_CKPT_STS_PERIOD : Fld := ⟨.CTL_CKPT_STS, 0, 32⟩
abbrev Fld.CTL_LAT_LAT_GT : Fld := ⟨.CTL_LAT, 0, 19⟩
abbrev Fld.CTL_LAT_AXES : Fld := ⟨.CTL_LAT, 23, 9⟩
abbrev Fld.CTL_PORT_SEL_PORT : Fld := ⟨.CTL_PORT_SEL, 0, 2⟩
abbrev Fld.CTL_PORT_CFG_EN : Fld := ⟨.CTL_PORT_CFG, 0, 1⟩
abbrev Fld.CTL_PORT_CFG_FEC : Fld := ⟨.CTL_PORT_CFG, 1, 2⟩
abbrev Fld.CTL_PORT_CFG_FLAP_LIMIT : Fld := ⟨.CTL_PORT_CFG, 4, 4⟩
abbrev Fld.CTL_PORT_CFG_UP_HOLD : Fld := ⟨.CTL_PORT_CFG, 8, 8⟩
abbrev Fld.CTL_PORT_CFG_FLAP_HOLD : Fld := ⟨.CTL_PORT_CFG, 16, 8⟩
abbrev Fld.CTL_PORT_STS_LINK_UP : Fld := ⟨.CTL_PORT_STS, 0, 1⟩
abbrev Fld.CTL_PORT_STS_QUARANTINE : Fld := ⟨.CTL_PORT_STS, 1, 1⟩
abbrev Fld.CTL_PORT_STS_FEC_ACTIVE : Fld := ⟨.CTL_PORT_STS, 2, 2⟩
abbrev Fld.CTL_PORT_STS_TS_PORT : Fld := ⟨.CTL_PORT_STS, 4, 1⟩
abbrev Fld.CTL_PORT_STS_FLAPS : Fld := ⟨.CTL_PORT_STS, 8, 8⟩
abbrev Fld.CTL_PORT_STS_RX_DROP : Fld := ⟨.CTL_PORT_STS, 16, 16⟩
abbrev Fld.CTL_Q_SEL_QUEUE : Fld := ⟨.CTL_Q_SEL, 0, 4⟩
abbrev Fld.CTL_Q_STS_COUNT : Fld := ⟨.CTL_Q_STS, 0, 6⟩
abbrev Fld.CTL_Q_STS_GAP_PEND : Fld := ⟨.CTL_Q_STS, 8, 1⟩
abbrev Fld.CTL_Q_STS_GAPS : Fld := ⟨.CTL_Q_STS, 16, 16⟩
abbrev Fld.CTL_PERF_HOLD_COUNT : Fld := ⟨.CTL_PERF_HOLD, 0, 32⟩
abbrev Fld.CTL_PERF_REJECT_COUNT : Fld := ⟨.CTL_PERF_REJECT, 0, 32⟩
abbrev Fld.CTL_PERF_MAXLAT_COUNT : Fld := ⟨.CTL_PERF_MAXLAT, 0, 32⟩

/-- The CTL_ register page. -/
def regRowsCTL : List RegRow :=
  [⟨.CTL_ID, .none, 0x1040100, 0x0, 0x0, 0x0, 0x0⟩,
   ⟨.CTL_CTRL, .none, 0x6, 0xFF031F, 0x0, 0x0, 0xFF031F⟩,
   ⟨.CTL_STATE, .none, 0x40000, 0x0, 0x0, 0x0, 0x0⟩,
   ⟨.CTL_STS, .none, 0x0, 0x0, 0x0, 0x3FFF, 0x0⟩,
   ⟨.CTL_STS_EN, .none, 0x0, 0x3FFF, 0x0, 0x0, 0x3FFF⟩,
   ⟨.CTL_CMD, .none, 0x0, 0x0, 0x3FF, 0x0, 0x0⟩,
   ⟨.CTL_PERIOD, .none, 0x0, 0x0, 0x0, 0x0, 0x0⟩,
   ⟨.CTL_GRID_LO, .none, 0x0, 0xFFFFFFFF, 0x0, 0x0, 0xFFFFFFFF⟩,
   ⟨.CTL_GRID_HI, .none, 0x0, 0xFFFFFFFF, 0x0, 0x0, 0xFFFFFFFF⟩,
   ⟨.CTL_SWAP_LO, .none, 0x0, 0xFFFFFFFF, 0x0, 0x0, 0x0⟩,
   ⟨.CTL_SWAP_HI, .none, 0x0, 0xFFFFFFFF, 0x0, 0x0, 0x0⟩,
   ⟨.CTL_CLAIM, .none, 0x0, 0x0, 0x0, 0x0, 0x0⟩,
   ⟨.CTL_CLAIM_LAST, .none, 0x0, 0x0, 0x0, 0x0, 0x0⟩,
   ⟨.CTL_PERIOD_CNT, .none, 0x0, 0x0, 0x0, 0x0, 0x0⟩,
   ⟨.CTL_CKPT_BASE, .none, 0x0, 0xFFFFFFFF, 0x0, 0x0, 0xFFFFFFFF⟩,
   ⟨.CTL_CKPT_STS, .none, 0x0, 0x0, 0x0, 0x0, 0x0⟩,
   ⟨.CTL_LAT, .none, 0x0, 0x0, 0x0, 0x0, 0x0⟩,
   ⟨.CTL_PORT_SEL, .none, 0x0, 0x3, 0x0, 0x0, 0x0⟩,
   ⟨.CTL_PORT_CFG, .ctlPort, 0x3C0A51, 0xFFFFF7, 0x0, 0x0, 0xFFFFF7⟩,
   ⟨.CTL_PORT_STS, .ctlPort, 0x0, 0x0, 0x0, 0x0, 0x0⟩,
   ⟨.CTL_Q_SEL, .none, 0x0, 0xF, 0x0, 0x0, 0x0⟩,
   ⟨.CTL_Q_STS, .ctlQ, 0x0, 0x0, 0x0, 0x0, 0x0⟩,
   ⟨.CTL_PERF_HOLD, .none, 0x0, 0x0, 0x0, 0x0, 0x0⟩,
   ⟨.CTL_PERF_REJECT, .none, 0x0, 0x0, 0x0, 0x0, 0x0⟩,
   ⟨.CTL_PERF_MAXLAT, .none, 0x0, 0x0, 0x0, 0x0, 0x0⟩]

/-! ### VID_ -/

abbrev Reg.VID_ID : Reg := ⟨10, 0x000⟩
abbrev Reg.VID_CTRL : Reg := ⟨10, 0x004⟩
abbrev Reg.VID_STATE : Reg := ⟨10, 0x008⟩
abbrev Reg.VID_STS : Reg := ⟨10, 0x00C⟩
abbrev Reg.VID_STS_EN : Reg := ⟨10, 0x010⟩
abbrev Reg.VID_CMD : Reg := ⟨10, 0x014⟩
abbrev Reg.VID_CAPACITY : Reg := ⟨10, 0x018⟩
abbrev Reg.VID_RLM_SEL : Reg := ⟨10, 0x01C⟩
abbrev Reg.VID_RLM_CAP : Reg := ⟨10, 0x020⟩
abbrev Reg.VID_RLM_STRM : Reg := ⟨10, 0x024⟩
abbrev Reg.VID_STRM_SEL : Reg := ⟨10, 0x028⟩
abbrev Reg.VID_STRM_STATE : Reg := ⟨10, 0x02C⟩
abbrev Reg.VID_STRM_FRAME : Reg := ⟨10, 0x030⟩
abbrev Reg.VID_STRM_BUF : Reg := ⟨10, 0x034⟩
abbrev Reg.VID_STRM_MARK : Reg := ⟨10, 0x038⟩
abbrev Reg.VID_PERF_BUSY : Reg := ⟨10, 0x03C⟩
abbrev Reg.VID_PERF_PREEMPT : Reg := ⟨10, 0x040⟩
abbrev Reg.VID_PERF_REENC : Reg := ⟨10, 0x044⟩
abbrev Reg.VID_PERF_FRAMES : Reg := ⟨10, 0x048⟩

abbrev Fld.VID_ID_CORES : Fld := ⟨.VID_ID, 0, 4⟩
abbrev Fld.VID_ID_STREAMS : Fld := ⟨.VID_ID, 4, 9⟩
abbrev Fld.VID_ID_CODECS : Fld := ⟨.VID_ID, 13, 3⟩
abbrev Fld.VID_CTRL_ENABLE : Fld := ⟨.VID_CTRL, 0, 1⟩
abbrev Fld.VID_CTRL_OPEN_EN : Fld := ⟨.VID_CTRL, 1, 1⟩
abbrev Fld.VID_CTRL_CORE_EN : Fld := ⟨.VID_CTRL, 4, 4⟩
abbrev Fld.VID_STATE_CORE_BUSY : Fld := ⟨.VID_STATE, 0, 4⟩
abbrev Fld.VID_STATE_OPEN : Fld := ⟨.VID_STATE, 4, 9⟩
abbrev Fld.VID_STS_STREAM_ERR : Fld := ⟨.VID_STS, 0, 1⟩
abbrev Fld.VID_STS_CAP_REFUSE : Fld := ⟨.VID_STS, 1, 1⟩
abbrev Fld.VID_STS_CONCEALED : Fld := ⟨.VID_STS, 2, 1⟩
abbrev Fld.VID_STS_CAP_MISS : Fld := ⟨.VID_STS, 3, 1⟩
abbrev Fld.VID_STS_CORE_CE : Fld := ⟨.VID_STS, 4, 1⟩
abbrev Fld.VID_STS_CORE_UE : Fld := ⟨.VID_STS, 5, 1⟩
abbrev Fld.VID_STS_SEQ : Fld := ⟨.VID_STS, 24, 8⟩
abbrev Fld.VID_STS_EN_EVT_EN : Fld := ⟨.VID_STS_EN, 0, 8⟩
abbrev Fld.VID_CMD_CNT_CLR : Fld := ⟨.VID_CMD, 0, 1⟩
abbrev Fld.VID_CMD_STRM_KILL : Fld := ⟨.VID_CMD, 1, 1⟩
abbrev Fld.VID_CAPACITY_CAP : Fld := ⟨.VID_CAPACITY, 0, 16⟩
abbrev Fld.VID_CAPACITY_RESERVED : Fld := ⟨.VID_CAPACITY, 16, 16⟩
abbrev Fld.VID_RLM_SEL_REALM : Fld := ⟨.VID_RLM_SEL, 0, 2⟩
abbrev Fld.VID_RLM_CAP_SHARE : Fld := ⟨.VID_RLM_CAP, 0, 9⟩
abbrev Fld.VID_RLM_CAP_USED : Fld := ⟨.VID_RLM_CAP, 16, 16⟩
abbrev Fld.VID_RLM_STRM_BASE : Fld := ⟨.VID_RLM_STRM, 0, 32⟩
abbrev Fld.VID_STRM_SEL_STREAM : Fld := ⟨.VID_STRM_SEL, 0, 8⟩
abbrev Fld.VID_STRM_SEL_REALM : Fld := ⟨.VID_STRM_SEL, 8, 2⟩
abbrev Fld.VID_STRM_STATE_STATE : Fld := ⟨.VID_STRM_STATE, 0, 2⟩
abbrev Fld.VID_STRM_STATE_CLASS : Fld := ⟨.VID_STRM_STATE, 2, 2⟩
abbrev Fld.VID_STRM_STATE_CODEC : Fld := ⟨.VID_STRM_STATE, 4, 2⟩
abbrev Fld.VID_STRM_STATE_OP : Fld := ⟨.VID_STRM_STATE, 6, 1⟩
abbrev Fld.VID_STRM_STATE_QUEUED : Fld := ⟨.VID_STRM_STATE, 8, 4⟩
abbrev Fld.VID_STRM_STATE_LAST_QP : Fld := ⟨.VID_STRM_STATE, 12, 6⟩
abbrev Fld.VID_STRM_STATE_PENDING : Fld := ⟨.VID_STRM_STATE, 18, 6⟩
abbrev Fld.VID_STRM_FRAME_FRAME_NO : Fld := ⟨.VID_STRM_FRAME, 0, 32⟩
abbrev Fld.VID_STRM_BUF_BUF : Fld := ⟨.VID_STRM_BUF, 0, 5⟩
abbrev Fld.VID_STRM_MARK_MARK : Fld := ⟨.VID_STRM_MARK, 0, 32⟩
abbrev Fld.VID_PERF_BUSY_COUNT : Fld := ⟨.VID_PERF_BUSY, 0, 32⟩
abbrev Fld.VID_PERF_PREEMPT_COUNT : Fld := ⟨.VID_PERF_PREEMPT, 0, 32⟩
abbrev Fld.VID_PERF_REENC_COUNT : Fld := ⟨.VID_PERF_REENC, 0, 32⟩
abbrev Fld.VID_PERF_FRAMES_COUNT : Fld := ⟨.VID_PERF_FRAMES, 0, 32⟩

/-- The VID_ register page. -/
def regRowsVID : List RegRow :=
  [⟨.VID_ID, .none, 0xF004, 0x0, 0x0, 0x0, 0x0⟩,
   ⟨.VID_CTRL, .none, 0xF3, 0xF3, 0x0, 0x0, 0xF3⟩,
   ⟨.VID_STATE, .none, 0x0, 0x0, 0x0, 0x0, 0x0⟩,
   ⟨.VID_STS, .none, 0x0, 0x0, 0x0, 0x3F, 0x0⟩,
   ⟨.VID_STS_EN, .none, 0x21, 0xFF, 0x0, 0x0, 0xFF⟩,
   ⟨.VID_CMD, .none, 0x0, 0x0, 0x3, 0x0, 0x0⟩,
   ⟨.VID_CAPACITY, .none, 0x1F1A, 0x0, 0x0, 0x0, 0x0⟩,
   ⟨.VID_RLM_SEL, .none, 0x0, 0x3, 0x0, 0x0, 0x0⟩,
   ⟨.VID_RLM_CAP, .vidRlm, 0x40, 0x1FF, 0x0, 0x0, 0x1FF⟩,
   ⟨.VID_RLM_STRM, .vidRlm, 0x0, 0xFFFFFFFF, 0x0, 0x0, 0xFFFFFFFF⟩,
   ⟨.VID_STRM_SEL, .none, 0x0, 0x3FF, 0x0, 0x0, 0x0⟩,
   ⟨.VID_STRM_STATE, .vidStrm, 0x0, 0x0, 0x0, 0x0, 0x0⟩,
   ⟨.VID_STRM_FRAME, .vidStrm, 0x0, 0x0, 0x0, 0x0, 0x0⟩,
   ⟨.VID_STRM_BUF, .none, 0x0, 0x1F, 0x0, 0x0, 0x0⟩,
   ⟨.VID_STRM_MARK, .vidStrm, 0x0, 0x0, 0x0, 0x0, 0x0⟩,
   ⟨.VID_PERF_BUSY, .none, 0x0, 0x0, 0x0, 0x0, 0x0⟩,
   ⟨.VID_PERF_PREEMPT, .none, 0x0, 0x0, 0x0, 0x0, 0x0⟩,
   ⟨.VID_PERF_REENC, .none, 0x0, 0x0, 0x0, 0x0, 0x0⟩,
   ⟨.VID_PERF_FRAMES, .none, 0x0, 0x0, 0x0, 0x0, 0x0⟩]

/-! ### DET_ -/

abbrev Reg.DET_ID : Reg := ⟨11, 0x000⟩
abbrev Reg.DET_CTRL : Reg := ⟨11, 0x004⟩
abbrev Reg.DET_STATE : Reg := ⟨11, 0x008⟩
abbrev Reg.DET_STS : Reg := ⟨11, 0x00C⟩
abbrev Reg.DET_STS_EN : Reg := ⟨11, 0x010⟩
abbrev Reg.DET_CMD : Reg := ⟨11, 0x014⟩
abbrev Reg.DET_MODE_WORD : Reg := ⟨11, 0x018⟩
abbrev Reg.DET_RLM_SEL : Reg := ⟨11, 0x01C⟩
abbrev Reg.DET_RLM_SEED_LO : Reg := ⟨11, 0x020⟩
abbrev Reg.DET_RLM_SEED_HI : Reg := ⟨11, 0x024⟩
abbrev Reg.DET_GEN_SEED_LO : Reg := ⟨11, 0x028⟩
abbrev Reg.DET_GEN_SEED_HI : Reg := ⟨11, 0x02C⟩
abbrev Reg.DET_GEN_STREAM : Reg := ⟨11, 0x030⟩
abbrev Reg.DET_GEN_POS_LO : Reg := ⟨11, 0x034⟩
abbrev Reg.DET_GEN_POS_HI : Reg := ⟨11, 0x038⟩
abbrev Reg.DET_GEN_OUT : Reg := ⟨11, 0x03C⟩
abbrev Reg.DET_SWATCH_CFG : Reg := ⟨11, 0x040⟩
abbrev Reg.DET_SWATCH_CNT : Reg := ⟨11, 0x044⟩
abbrev Reg.DET_SWATCH_ERR : Reg := ⟨11, 0x048⟩
abbrev Reg.DET_SWATCH_TAG : Reg := ⟨11, 0x04C⟩
abbrev Reg.DET_SWATCH_INFO : Reg := ⟨11, 0x050⟩
abbrev Reg.DET_PERF_HASH : Reg := ⟨11, 0x054⟩
abbrev Reg.DET_PERF_SIGN : Reg := ⟨11, 0x058⟩
abbrev Reg.DET_PERF_SNAP : Reg := ⟨11, 0x05C⟩

abbrev Fld.DET_ID_HASH_LANES : Fld := ⟨.DET_ID, 0, 5⟩
abbrev Fld.DET_ID_MODE_VER : Fld := ⟨.DET_ID, 8, 8⟩
abbrev Fld.DET_ID_SIGN_QUEUE : Fld := ⟨.DET_ID, 16, 8⟩
abbrev Fld.DET_CTRL_DIGEST_EN : Fld := ⟨.DET_CTRL, 0, 1⟩
abbrev Fld.DET_CTRL_SIGN_EN : Fld := ⟨.DET_CTRL, 1, 1⟩
abbrev Fld.DET_CTRL_SNAP_EN : Fld := ⟨.DET_CTRL, 2, 1⟩
abbrev Fld.DET_CTRL_SWATCH_EN : Fld := ⟨.DET_CTRL, 3, 1⟩
abbrev Fld.DET_STATE_DET : Fld := ⟨.DET_STATE, 0, 1⟩
abbrev Fld.DET_STATE_GEN_BUSY : Fld := ⟨.DET_STATE, 1, 1⟩
abbrev Fld.DET_STATE_SWATCH : Fld := ⟨.DET_STATE, 2, 1⟩
abbrev Fld.DET_STATE_ROLE : Fld := ⟨.DET_STATE, 3, 1⟩
abbrev Fld.DET_STATE_VERDICT : Fld := ⟨.DET_STATE, 4, 4⟩
abbrev Fld.DET_STATE_SIGN_PEND : Fld := ⟨.DET_STATE, 8, 8⟩
abbrev Fld.DET_STATE_HASH_BUSY : Fld := ⟨.DET_STATE, 16, 5⟩
abbrev Fld.DET_STS_DIGEST_ERR : Fld := ⟨.DET_STS, 0, 1⟩
abbrev Fld.DET_STS_SIGN_ERR : Fld := ⟨.DET_STS, 1, 1⟩
abbrev Fld.DET_STS_SNAP_TAKEN : Fld := ⟨.DET_STS, 2, 1⟩
abbrev Fld.DET_STS_RESTORED : Fld := ⟨.DET_STS, 3, 1⟩
abbrev Fld.DET_STS_SWATCH_PASS : Fld := ⟨.DET_STS, 4, 1⟩
abbrev Fld.DET_STS_SWATCH_FAIL : Fld := ⟨.DET_STS, 5, 1⟩
abbrev Fld.DET_STS_SIGN_WAIT : Fld := ⟨.DET_STS, 6, 1⟩
abbrev Fld.DET_STS_MODE_CHANGE : Fld := ⟨.DET_STS, 7, 1⟩
abbrev Fld.DET_STS_SEQ : Fld := ⟨.DET_STS, 24, 8⟩
abbrev Fld.DET_STS_EN_EVT_EN : Fld := ⟨.DET_STS_EN, 0, 8⟩
abbrev Fld.DET_CMD_GEN_RUN : Fld := ⟨.DET_CMD, 0, 1⟩
abbrev Fld.DET_CMD_CNT_CLR : Fld := ⟨.DET_CMD, 1, 1⟩
abbrev Fld.DET_CMD_SWATCH_ABORT : Fld := ⟨.DET_CMD, 2, 1⟩
abbrev Fld.DET_MODE_WORD_MODE_WORD : Fld := ⟨.DET_MODE_WORD, 0, 32⟩
abbrev Fld.DET_RLM_SEL_REALM : Fld := ⟨.DET_RLM_SEL, 0, 2⟩
abbrev Fld.DET_RLM_SEED_LO_SEED : Fld := ⟨.DET_RLM_SEED_LO, 0, 32⟩
abbrev Fld.DET_RLM_SEED_HI_SEED : Fld := ⟨.DET_RLM_SEED_HI, 0, 32⟩
abbrev Fld.DET_GEN_SEED_LO_VALUE : Fld := ⟨.DET_GEN_SEED_LO, 0, 32⟩
abbrev Fld.DET_GEN_SEED_HI_VALUE : Fld := ⟨.DET_GEN_SEED_HI, 0, 32⟩
abbrev Fld.DET_GEN_STREAM_STREAM : Fld := ⟨.DET_GEN_STREAM, 0, 16⟩
abbrev Fld.DET_GEN_POS_LO_VALUE : Fld := ⟨.DET_GEN_POS_LO, 0, 32⟩
abbrev Fld.DET_GEN_POS_HI_VALUE : Fld := ⟨.DET_GEN_POS_HI, 0, 32⟩
abbrev Fld.DET_GEN_OUT_G : Fld := ⟨.DET_GEN_OUT, 0, 32⟩
abbrev Fld.DET_SWATCH_CFG_WAIT : Fld := ⟨.DET_SWATCH_CFG, 0, 8⟩
abbrev Fld.DET_SWATCH_CFG_AGE : Fld := ⟨.DET_SWATCH_CFG, 8, 8⟩
abbrev Fld.DET_SWATCH_CFG_UNMATCHED_MAX : Fld := ⟨.DET_SWATCH_CFG, 16, 16⟩
abbrev Fld.DET_SWATCH_CNT_COMPARED : Fld := ⟨.DET_SWATCH_CNT, 0, 32⟩
abbrev Fld.DET_SWATCH_ERR_UNMATCHED : Fld := ⟨.DET_SWATCH_ERR, 0, 16⟩
abbrev Fld.DET_SWATCH_ERR_DROPPED : Fld := ⟨.DET_SWATCH_ERR, 16, 16⟩
abbrev Fld.DET_SWATCH_TAG_TAG : Fld := ⟨.DET_SWATCH_TAG, 0, 32⟩
abbrev Fld.DET_SWATCH_INFO_RING : Fld := ⟨.DET_SWATCH_INFO, 0, 6⟩
abbrev Fld.DET_SWATCH_INFO_KIND : Fld := ⟨.DET_SWATCH_INFO, 6, 1⟩
abbrev Fld.DET_SWATCH_INFO_VALID : Fld := ⟨.DET_SWATCH_INFO, 7, 1⟩
abbrev Fld.DET_SWATCH_INFO_PEER : Fld := ⟨.DET_SWATCH_INFO, 8, 8⟩
abbrev Fld.DET_PERF_HASH_COUNT : Fld := ⟨.DET_PERF_HASH, 0, 32⟩
abbrev Fld.DET_PERF_SIGN_COUNT : Fld := ⟨.DET_PERF_SIGN, 0, 32⟩
abbrev Fld.DET_PERF_SNAP_COUNT : Fld := ⟨.DET_PERF_SNAP, 0, 32⟩

/-- The DET_ register page. -/
def regRowsDET : List RegRow :=
  [⟨.DET_ID, .none, 0x400110, 0x0, 0x0, 0x0, 0x0⟩,
   ⟨.DET_CTRL, .none, 0xF, 0xF, 0x0, 0x0, 0xF⟩,
   ⟨.DET_STATE, .none, 0x0, 0x0, 0x0, 0x0, 0x0⟩,
   ⟨.DET_STS, .none, 0x0, 0x0, 0x0, 0xFF, 0x0⟩,
   ⟨.DET_STS_EN, .none, 0xB3, 0xFF, 0x0, 0x0, 0xFF⟩,
   ⟨.DET_CMD, .none, 0x0, 0x0, 0x7, 0x0, 0x0⟩,
   ⟨.DET_MODE_WORD, .none, 0x11C, 0x0, 0x0, 0x0, 0x0⟩,
   ⟨.DET_RLM_SEL, .none, 0x0, 0x3, 0x0, 0x0, 0x0⟩,
   ⟨.DET_RLM_SEED_LO, .detRlm, 0x0, 0xFFFFFFFF, 0x0, 0x0, 0xFFFFFFFF⟩,
   ⟨.DET_RLM_SEED_HI, .detRlm, 0x0, 0xFFFFFFFF, 0x0, 0x0, 0xFFFFFFFF⟩,
   ⟨.DET_GEN_SEED_LO, .none, 0x0, 0xFFFFFFFF, 0x0, 0x0, 0x0⟩,
   ⟨.DET_GEN_SEED_HI, .none, 0x0, 0xFFFFFFFF, 0x0, 0x0, 0x0⟩,
   ⟨.DET_GEN_STREAM, .none, 0x0, 0xFFFF, 0x0, 0x0, 0x0⟩,
   ⟨.DET_GEN_POS_LO, .none, 0x0, 0xFFFFFFFF, 0x0, 0x0, 0x0⟩,
   ⟨.DET_GEN_POS_HI, .none, 0x0, 0xFFFFFFFF, 0x0, 0x0, 0x0⟩,
   ⟨.DET_GEN_OUT, .none, 0x0, 0x0, 0x0, 0x0, 0x0⟩,
   ⟨.DET_SWATCH_CFG, .none, 0x3C0A, 0xFFFFFFFF, 0x0, 0x0, 0xFFFFFFFF⟩,
   ⟨.DET_SWATCH_CNT, .none, 0x0, 0x0, 0x0, 0x0, 0x0⟩,
   ⟨.DET_SWATCH_ERR, .none, 0x0, 0x0, 0x0, 0x0, 0x0⟩,
   ⟨.DET_SWATCH_TAG, .none, 0x0, 0x0, 0x0, 0x0, 0x0⟩,
   ⟨.DET_SWATCH_INFO, .none, 0x0, 0x0, 0x0, 0x0, 0x0⟩,
   ⟨.DET_PERF_HASH, .none, 0x0, 0x0, 0x0, 0x0, 0x0⟩,
   ⟨.DET_PERF_SIGN, .none, 0x0, 0x0, 0x0, 0x0, 0x0⟩,
   ⟨.DET_PERF_SNAP, .none, 0x0, 0x0, 0x0, 0x0, 0x0⟩]

/-! ### FLT_ -/

abbrev Reg.FLT_ID : Reg := ⟨12, 0x000⟩
abbrev Reg.FLT_CTRL : Reg := ⟨12, 0x004⟩
abbrev Reg.FLT_STATE : Reg := ⟨12, 0x008⟩
abbrev Reg.FLT_STS : Reg := ⟨12, 0x00C⟩
abbrev Reg.FLT_STS_EN : Reg := ⟨12, 0x010⟩
abbrev Reg.FLT_CMD : Reg := ⟨12, 0x014⟩
abbrev Reg.FLT_ESC : Reg := ⟨12, 0x018⟩
abbrev Reg.FLT_POLICY : Reg := ⟨12, 0x01C⟩
abbrev Reg.FLT_UNIT_SEL : Reg := ⟨12, 0x020⟩
abbrev Reg.FLT_UNIT_HEALTH : Reg := ⟨12, 0x024⟩
abbrev Reg.FLT_SPARES : Reg := ⟨12, 0x028⟩
abbrev Reg.FLT_LAST : Reg := ⟨12, 0x02C⟩
abbrev Reg.FLT_LAST_UNIT : Reg := ⟨12, 0x030⟩
abbrev Reg.FLT_PERF_CE : Reg := ⟨12, 0x034⟩
abbrev Reg.FLT_PERF_CONTAINED : Reg := ⟨12, 0x038⟩
abbrev Reg.FLT_PERF_REJECT : Reg := ⟨12, 0x03C⟩

abbrev Fld.FLT_ID_TILE_SPARES : Fld := ⟨.FLT_ID, 0, 4⟩
abbrev Fld.FLT_ID_CLU_SPARES : Fld := ⟨.FLT_ID, 4, 4⟩
abbrev Fld.FLT_ID_CHANNELS : Fld := ⟨.FLT_ID, 8, 7⟩
abbrev Fld.FLT_CTRL_AUTO_RETIRE : Fld := ⟨.FLT_CTRL, 0, 1⟩
abbrev Fld.FLT_CTRL_CHAN_RESERVE : Fld := ⟨.FLT_CTRL, 1, 1⟩
abbrev Fld.FLT_CTRL_FREEZE_ON_FATAL : Fld := ⟨.FLT_CTRL, 2, 1⟩
abbrev Fld.FLT_CTRL_CH_CE_LIMIT : Fld := ⟨.FLT_CTRL, 8, 8⟩
abbrev Fld.FLT_STATE_STATE : Fld := ⟨.FLT_STATE, 0, 3⟩
abbrev Fld.FLT_STATE_SCORE : Fld := ⟨.FLT_STATE, 4, 10⟩
abbrev Fld.FLT_STATE_CAP_SHARE : Fld := ⟨.FLT_STATE, 16, 9⟩
abbrev Fld.FLT_STATE_HANDLING : Fld := ⟨.FLT_STATE, 25, 3⟩
abbrev Fld.FLT_STATE_QUEUED : Fld := ⟨.FLT_STATE, 28, 4⟩
abbrev Fld.FLT_STS_CORRECTED : Fld := ⟨.FLT_STS, 0, 1⟩
abbrev Fld.FLT_STS_CONTAINED : Fld := ⟨.FLT_STS, 1, 1⟩
abbrev Fld.FLT_STS_DEGRADED : Fld := ⟨.FLT_STS, 2, 1⟩
abbrev Fld.FLT_STS_SERVICE : Fld := ⟨.FLT_STS, 3, 1⟩
abbrev Fld.FLT_STS_FATAL : Fld := ⟨.FLT_STS, 4, 1⟩
abbrev Fld.FLT_STS_ESCALATED : Fld := ⟨.FLT_STS, 5, 1⟩
abbrev Fld.FLT_STS_RETIRED : Fld := ⟨.FLT_STS, 6, 1⟩
abbrev Fld.FLT_STS_STATE_CHANGE : Fld := ⟨.FLT_STS, 7, 1⟩
abbrev Fld.FLT_STS_ROLE_REJECT : Fld := ⟨.FLT_STS, 8, 1⟩
abbrev Fld.FLT_STS_SEQ : Fld := ⟨.FLT_STS, 24, 8⟩
abbrev Fld.FLT_STS_EN_EVT_EN : Fld := ⟨.FLT_STS_EN, 0, 9⟩
abbrev Fld.FLT_CMD_CNT_CLR : Fld := ⟨.FLT_CMD, 0, 1⟩
abbrev Fld.FLT_CMD_RETIRE : Fld := ⟨.FLT_CMD, 1, 1⟩
abbrev Fld.FLT_CMD_REPAIR : Fld := ⟨.FLT_CMD, 2, 1⟩
abbrev Fld.FLT_CMD_FREEZE : Fld := ⟨.FLT_CMD, 3, 1⟩
abbrev Fld.FLT_ESC_WINDOW : Fld := ⟨.FLT_ESC, 0, 16⟩
abbrev Fld.FLT_POLICY_DWELL : Fld := ⟨.FLT_POLICY, 0, 8⟩
abbrev Fld.FLT_POLICY_SVC_HOLD : Fld := ⟨.FLT_POLICY, 8, 8⟩
abbrev Fld.FLT_POLICY_EXPEL_GAP : Fld := ⟨.FLT_POLICY, 16, 16⟩
abbrev Fld.FLT_UNIT_SEL_KIND : Fld := ⟨.FLT_UNIT_SEL, 0, 3⟩
abbrev Fld.FLT_UNIT_SEL_INDEX : Fld := ⟨.FLT_UNIT_SEL, 8, 8⟩
abbrev Fld.FLT_UNIT_HEALTH_SCORE : Fld := ⟨.FLT_UNIT_HEALTH, 0, 10⟩
abbrev Fld.FLT_UNIT_HEALTH_USE : Fld := ⟨.FLT_UNIT_HEALTH, 10, 2⟩
abbrev Fld.FLT_UNIT_HEALTH_CONTAINED : Fld := ⟨.FLT_UNIT_HEALTH, 16, 8⟩
abbrev Fld.FLT_UNIT_HEALTH_CE_HOUR : Fld := ⟨.FLT_UNIT_HEALTH, 24, 8⟩
abbrev Fld.FLT_SPARES_TILE_USED : Fld := ⟨.FLT_SPARES, 0, 9⟩
abbrev Fld.FLT_SPARES_CLU_USED : Fld := ⟨.FLT_SPARES, 9, 1⟩
abbrev Fld.FLT_SPARES_CLU_FOR : Fld := ⟨.FLT_SPARES, 10, 3⟩
abbrev Fld.FLT_SPARES_CHAN_USED : Fld := ⟨.FLT_SPARES, 13, 1⟩
abbrev Fld.FLT_SPARES_CHAN : Fld := ⟨.FLT_SPARES, 14, 6⟩
abbrev Fld.FLT_SPARES_VID_RETIRED : Fld := ⟨.FLT_SPARES, 20, 4⟩
abbrev Fld.FLT_SPARES_UNAVAIL : Fld := ⟨.FLT_SPARES, 24, 8⟩
abbrev Fld.FLT_LAST_CAUSE : Fld := ⟨.FLT_LAST, 0, 16⟩
abbrev Fld.FLT_LAST_SEVERITY : Fld := ⟨.FLT_LAST, 16, 3⟩
abbrev Fld.FLT_LAST_SCOPE : Fld := ⟨.FLT_LAST, 19, 2⟩
abbrev Fld.FLT_LAST_UNIT_INDEX : Fld := ⟨.FLT_LAST_UNIT, 0, 8⟩
abbrev Fld.FLT_LAST_UNIT_KIND : Fld := ⟨.FLT_LAST_UNIT, 8, 3⟩
abbrev Fld.FLT_LAST_UNIT_EPOCH : Fld := ⟨.FLT_LAST_UNIT, 16, 16⟩
abbrev Fld.FLT_PERF_CE_COUNT : Fld := ⟨.FLT_PERF_CE, 0, 32⟩
abbrev Fld.FLT_PERF_CONTAINED_COUNT : Fld := ⟨.FLT_PERF_CONTAINED, 0, 32⟩
abbrev Fld.FLT_PERF_REJECT_COUNT : Fld := ⟨.FLT_PERF_REJECT, 0, 32⟩

/-- The FLT_ register page. -/
def regRowsFLT : List RegRow :=
  [⟨.FLT_ID, .none, 0x4019, 0x0, 0x0, 0x0, 0x0⟩,
   ⟨.FLT_CTRL, .none, 0x4003, 0xFF07, 0x0, 0x0, 0xFF07⟩,
   ⟨.FLT_STATE, .none, 0x1003E80, 0x0, 0x0, 0x0, 0x0⟩,
   ⟨.FLT_STS, .none, 0x0, 0x0, 0x0, 0x1FF, 0x0⟩,
   ⟨.FLT_STS_EN, .none, 0xEC, 0x1FF, 0x0, 0x0, 0x1FF⟩,
   ⟨.FLT_CMD, .none, 0x0, 0x0, 0xF, 0x0, 0x0⟩,
   ⟨.FLT_ESC, .none, 0xE10, 0xFFFF, 0x0, 0x0, 0xFFFF⟩,
   ⟨.FLT_POLICY, .none, 0xF05A3C, 0x0, 0x0, 0x0, 0x0⟩,
   ⟨.FLT_UNIT_SEL, .none, 0x0, 0xFF07, 0x0, 0x0, 0x0⟩,
   ⟨.FLT_UNIT_HEALTH, .fltUnit, 0x3E8, 0x0, 0x0, 0x0, 0x0⟩,
   ⟨.FLT_SPARES, .none, 0x0, 0x0, 0x0, 0x0, 0x0⟩,
   ⟨.FLT_LAST, .none, 0x0, 0x0, 0x0, 0x0, 0x0⟩,
   ⟨.FLT_LAST_UNIT, .none, 0x0, 0x0, 0x0, 0x0, 0x0⟩,
   ⟨.FLT_PERF_CE, .none, 0x0, 0x0, 0x0, 0x0, 0x0⟩,
   ⟨.FLT_PERF_CONTAINED, .none, 0x0, 0x0, 0x0, 0x0, 0x0⟩,
   ⟨.FLT_PERF_REJECT, .none, 0x0, 0x0, 0x0, 0x0, 0x0⟩]

/-! ### SEC_ -/

abbrev Reg.SEC_ID : Reg := ⟨13, 0x000⟩
abbrev Reg.SEC_CTRL : Reg := ⟨13, 0x004⟩
abbrev Reg.SEC_STATE : Reg := ⟨13, 0x008⟩
abbrev Reg.SEC_STS : Reg := ⟨13, 0x00C⟩
abbrev Reg.SEC_STS_EN : Reg := ⟨13, 0x010⟩
abbrev Reg.SEC_CMD : Reg := ⟨13, 0x014⟩
abbrev Reg.SEC_NONCE_LO : Reg := ⟨13, 0x018⟩
abbrev Reg.SEC_NONCE_HI : Reg := ⟨13, 0x01C⟩
abbrev Reg.SEC_CMD_ADDR_LO : Reg := ⟨13, 0x020⟩
abbrev Reg.SEC_CMD_ADDR_HI : Reg := ⟨13, 0x024⟩
abbrev Reg.SEC_CMD_STS : Reg := ⟨13, 0x028⟩
abbrev Reg.SEC_RLM_SEL : Reg := ⟨13, 0x02C⟩
abbrev Reg.SEC_RLM_STATE : Reg := ⟨13, 0x030⟩
abbrev Reg.SEC_RLM_TILES : Reg := ⟨13, 0x034⟩
abbrev Reg.SEC_REQ_ADDR_LO : Reg := ⟨13, 0x038⟩
abbrev Reg.SEC_REQ_ADDR_HI : Reg := ⟨13, 0x03C⟩
abbrev Reg.SEC_REQ : Reg := ⟨13, 0x040⟩
abbrev Reg.SEC_REQ_STS : Reg := ⟨13, 0x044⟩
abbrev Reg.SEC_SLOTS : Reg := ⟨13, 0x048⟩
abbrev Reg.SEC_DEBUG : Reg := ⟨13, 0x04C⟩
abbrev Reg.SEC_PERF_REJECT : Reg := ⟨13, 0x050⟩

abbrev Fld.SEC_ID_REALMS : Fld := ⟨.SEC_ID, 0, 3⟩
abbrev Fld.SEC_ID_SLOTS : Fld := ⟨.SEC_ID, 8, 9⟩
abbrev Fld.SEC_ID_SVN : Fld := ⟨.SEC_ID, 24, 8⟩
abbrev Fld.SEC_CTRL_REQ_EN : Fld := ⟨.SEC_CTRL, 0, 1⟩
abbrev Fld.SEC_CTRL_IMPORT_EN : Fld := ⟨.SEC_CTRL, 1, 1⟩
abbrev Fld.SEC_STATE_OWNED : Fld := ⟨.SEC_STATE, 0, 1⟩
abbrev Fld.SEC_STATE_CMD_BUSY : Fld := ⟨.SEC_STATE, 1, 1⟩
abbrev Fld.SEC_STATE_REQ_BUSY : Fld := ⟨.SEC_STATE, 2, 4⟩
abbrev Fld.SEC_STATE_DEBUG : Fld := ⟨.SEC_STATE, 6, 2⟩
abbrev Fld.SEC_STS_CMD_DONE : Fld := ⟨.SEC_STS, 0, 1⟩
abbrev Fld.SEC_STS_CMD_REJECT : Fld := ⟨.SEC_STS, 1, 1⟩
abbrev Fld.SEC_STS_SEAL_FAIL : Fld := ⟨.SEC_STS, 2, 1⟩
abbrev Fld.SEC_STS_FREEZE_UNARMED : Fld := ⟨.SEC_STS, 3, 1⟩
abbrev Fld.SEC_STS_REALM_CHANGE : Fld := ⟨.SEC_STS, 4, 1⟩
abbrev Fld.SEC_STS_SEQ : Fld := ⟨.SEC_STS, 24, 8⟩
abbrev Fld.SEC_STS_EN_EVT_EN : Fld := ⟨.SEC_STS_EN, 0, 8⟩
abbrev Fld.SEC_CMD_GO : Fld := ⟨.SEC_CMD, 0, 1⟩
abbrev Fld.SEC_CMD_CNT_CLR : Fld := ⟨.SEC_CMD, 1, 1⟩
abbrev Fld.SEC_NONCE_LO_NONCE : Fld := ⟨.SEC_NONCE_LO, 0, 32⟩
abbrev Fld.SEC_NONCE_HI_NONCE : Fld := ⟨.SEC_NONCE_HI, 0, 32⟩
abbrev Fld.SEC_CMD_ADDR_LO_ADDR : Fld := ⟨.SEC_CMD_ADDR_LO, 0, 32⟩
abbrev Fld.SEC_CMD_ADDR_HI_ADDR : Fld := ⟨.SEC_CMD_ADDR_HI, 0, 32⟩
abbrev Fld.SEC_CMD_STS_OP : Fld := ⟨.SEC_CMD_STS, 0, 8⟩
abbrev Fld.SEC_CMD_STS_CODE : Fld := ⟨.SEC_CMD_STS, 8, 8⟩
abbrev Fld.SEC_RLM_SEL_REALM : Fld := ⟨.SEC_RLM_SEL, 0, 2⟩
abbrev Fld.SEC_RLM_STATE_STATE : Fld := ⟨.SEC_RLM_STATE, 0, 2⟩
abbrev Fld.SEC_RLM_STATE_DRAWER : Fld := ⟨.SEC_RLM_STATE, 2, 1⟩
abbrev Fld.SEC_RLM_STATE_LANE : Fld := ⟨.SEC_RLM_STATE, 3, 1⟩
abbrev Fld.SEC_RLM_STATE_REGIONS : Fld := ⟨.SEC_RLM_STATE, 4, 3⟩
abbrev Fld.SEC_RLM_STATE_CREATED : Fld := ⟨.SEC_RLM_STATE, 8, 16⟩
abbrev Fld.SEC_RLM_TILES_GROUPS : Fld := ⟨.SEC_RLM_TILES, 0, 32⟩
abbrev Fld.SEC_REQ_ADDR_LO_ADDR : Fld := ⟨.SEC_REQ_ADDR_LO, 0, 32⟩
abbrev Fld.SEC_REQ_ADDR_HI_ADDR : Fld := ⟨.SEC_REQ_ADDR_HI, 0, 32⟩
abbrev Fld.SEC_REQ_GO : Fld := ⟨.SEC_REQ, 0, 1⟩
abbrev Fld.SEC_REQ_OP : Fld := ⟨.SEC_REQ, 1, 3⟩
abbrev Fld.SEC_REQ_MODE : Fld := ⟨.SEC_REQ, 4, 1⟩
abbrev Fld.SEC_REQ_USE : Fld := ⟨.SEC_REQ, 5, 1⟩
abbrev Fld.SEC_REQ_SLOT : Fld := ⟨.SEC_REQ, 8, 8⟩
abbrev Fld.SEC_REQ_STS_DONE : Fld := ⟨.SEC_REQ_STS, 0, 1⟩
abbrev Fld.SEC_REQ_STS_CODE : Fld := ⟨.SEC_REQ_STS, 8, 8⟩
abbrev Fld.SEC_REQ_STS_BYTES : Fld := ⟨.SEC_REQ_STS, 16, 16⟩
abbrev Fld.SEC_SLOTS_LOADED : Fld := ⟨.SEC_SLOTS, 0, 9⟩
abbrev Fld.SEC_DEBUG_EXPIRY : Fld := ⟨.SEC_DEBUG, 0, 32⟩
abbrev Fld.SEC_PERF_REJECT_COUNT : Fld := ⟨.SEC_PERF_REJECT, 0, 32⟩

/-- The SEC_ register page. -/
def regRowsSEC : List RegRow :=
  [⟨.SEC_ID, .none, 0x10004, 0x0, 0x0, 0x0, 0x0⟩,
   ⟨.SEC_CTRL, .none, 0x3, 0x3, 0x0, 0x0, 0x3⟩,
   ⟨.SEC_STATE, .none, 0x0, 0x0, 0x0, 0x0, 0x0⟩,
   ⟨.SEC_STS, .none, 0x0, 0x0, 0x0, 0x1F, 0x0⟩,
   ⟨.SEC_STS_EN, .none, 0x1E, 0xFF, 0x0, 0x0, 0xFF⟩,
   ⟨.SEC_CMD, .none, 0x0, 0x0, 0x3, 0x0, 0x0⟩,
   ⟨.SEC_NONCE_LO, .none, 0x0, 0x0, 0x0, 0x0, 0x0⟩,
   ⟨.SEC_NONCE_HI, .none, 0x0, 0x0, 0x0, 0x0, 0x0⟩,
   ⟨.SEC_CMD_ADDR_LO, .none, 0x0, 0xFFFFFFFF, 0x0, 0x0, 0x0⟩,
   ⟨.SEC_CMD_ADDR_HI, .none, 0x0, 0xFFFFFFFF, 0x0, 0x0, 0x0⟩,
   ⟨.SEC_CMD_STS, .none, 0x0, 0x0, 0x0, 0x0, 0x0⟩,
   ⟨.SEC_RLM_SEL, .none, 0x0, 0x3, 0x0, 0x0, 0x0⟩,
   ⟨.SEC_RLM_STATE, .secRlm, 0x0, 0x0, 0x0, 0x0, 0x0⟩,
   ⟨.SEC_RLM_TILES, .secRlm, 0x0, 0x0, 0x0, 0x0, 0x0⟩,
   ⟨.SEC_REQ_ADDR_LO, .none, 0x0, 0xFFFFFFFF, 0x0, 0x0, 0x0⟩,
   ⟨.SEC_REQ_ADDR_HI, .none, 0x0, 0xFFFFFFFF, 0x0, 0x0, 0x0⟩,
   ⟨.SEC_REQ, .none, 0x0, 0xFF3E, 0x1, 0x0, 0x0⟩,
   ⟨.SEC_REQ_STS, .none, 0x0, 0x0, 0x0, 0x0, 0x0⟩,
   ⟨.SEC_SLOTS, .none, 0x0, 0x0, 0x0, 0x0, 0x0⟩,
   ⟨.SEC_DEBUG, .none, 0x0, 0x0, 0x0, 0x0, 0x0⟩,
   ⟨.SEC_PERF_REJECT, .none, 0x0, 0x0, 0x0, 0x0, 0x0⟩]

/-! ### FWU_ -/

abbrev Reg.FWU_ID : Reg := ⟨14, 0x000⟩
abbrev Reg.FWU_CTRL : Reg := ⟨14, 0x004⟩
abbrev Reg.FWU_STATE : Reg := ⟨14, 0x008⟩
abbrev Reg.FWU_STS : Reg := ⟨14, 0x00C⟩
abbrev Reg.FWU_STS_EN : Reg := ⟨14, 0x010⟩
abbrev Reg.FWU_CMD : Reg := ⟨14, 0x014⟩
abbrev Reg.FWU_SRC_LO : Reg := ⟨14, 0x018⟩
abbrev Reg.FWU_SRC_HI : Reg := ⟨14, 0x01C⟩
abbrev Reg.FWU_SRC_BYTES : Reg := ⟨14, 0x020⟩
abbrev Reg.FWU_ACT_LO : Reg := ⟨14, 0x024⟩
abbrev Reg.FWU_ACT_HI : Reg := ⟨14, 0x028⟩
abbrev Reg.FWU_VER_A : Reg := ⟨14, 0x02C⟩
abbrev Reg.FWU_VER_B : Reg := ⟨14, 0x030⟩
abbrev Reg.FWU_LANE_SWAP : Reg := ⟨14, 0x034⟩
abbrev Reg.FWU_SETTINGS : Reg := ⟨14, 0x038⟩
abbrev Reg.FWU_DRAWER_WR : Reg := ⟨14, 0x03C⟩
abbrev Reg.FWU_DRAWER_CFG : Reg := ⟨14, 0x040⟩
abbrev Reg.FWU_DRAWER_LEFT : Reg := ⟨14, 0x044⟩

abbrev Fld.FWU_ID_SLOTS : Fld := ⟨.FWU_ID, 0, 2⟩
abbrev Fld.FWU_ID_MAX_MIB : Fld := ⟨.FWU_ID, 2, 6⟩
abbrev Fld.FWU_CTRL_CONFIRM : Fld := ⟨.FWU_CTRL, 0, 16⟩
abbrev Fld.FWU_STATE_STATE : Fld := ⟨.FWU_STATE, 0, 4⟩
abbrev Fld.FWU_STATE_RUNNING : Fld := ⟨.FWU_STATE, 4, 1⟩
abbrev Fld.FWU_STATE_REJECTED : Fld := ⟨.FWU_STATE, 5, 1⟩
abbrev Fld.FWU_STATE_ERR : Fld := ⟨.FWU_STATE, 8, 8⟩
abbrev Fld.FWU_STATE_LEFT : Fld := ⟨.FWU_STATE, 16, 16⟩
abbrev Fld.FWU_STS_STAGED : Fld := ⟨.FWU_STS, 0, 1⟩
abbrev Fld.FWU_STS_ACTIVATED : Fld := ⟨.FWU_STS, 1, 1⟩
abbrev Fld.FWU_STS_CONFIRMED : Fld := ⟨.FWU_STS, 2, 1⟩
abbrev Fld.FWU_STS_FALLBACK : Fld := ⟨.FWU_STS, 3, 1⟩
abbrev Fld.FWU_STS_ERROR : Fld := ⟨.FWU_STS, 4, 1⟩
abbrev Fld.FWU_STS_SPILL_STOP : Fld := ⟨.FWU_STS, 5, 1⟩
abbrev Fld.FWU_STS_SEQ : Fld := ⟨.FWU_STS, 24, 8⟩
abbrev Fld.FWU_STS_EN_EVT_EN : Fld := ⟨.FWU_STS_EN, 0, 8⟩
abbrev Fld.FWU_CMD_LOAD : Fld := ⟨.FWU_CMD, 0, 1⟩
abbrev Fld.FWU_CMD_ABORT : Fld := ⟨.FWU_CMD, 1, 1⟩
abbrev Fld.FWU_SRC_LO_ADDR : Fld := ⟨.FWU_SRC_LO, 0, 32⟩
abbrev Fld.FWU_SRC_HI_ADDR : Fld := ⟨.FWU_SRC_HI, 0, 32⟩
abbrev Fld.FWU_SRC_BYTES_BYTES : Fld := ⟨.FWU_SRC_BYTES, 0, 32⟩
abbrev Fld.FWU_ACT_LO_COUNT : Fld := ⟨.FWU_ACT_LO, 0, 32⟩
abbrev Fld.FWU_ACT_HI_COUNT : Fld := ⟨.FWU_ACT_HI, 0, 32⟩
abbrev Fld.FWU_VER_A_VERSION : Fld := ⟨.FWU_VER_A, 0, 32⟩
abbrev Fld.FWU_VER_B_VERSION : Fld := ⟨.FWU_VER_B, 0, 32⟩
abbrev Fld.FWU_LANE_SWAP_DELAY : Fld := ⟨.FWU_LANE_SWAP, 0, 32⟩
abbrev Fld.FWU_SETTINGS_VERSION : Fld := ⟨.FWU_SETTINGS, 0, 16⟩
abbrev Fld.FWU_SETTINGS_OLD_KEPT : Fld := ⟨.FWU_SETTINGS, 16, 1⟩
abbrev Fld.FWU_DRAWER_WR_GIB : Fld := ⟨.FWU_DRAWER_WR, 0, 32⟩
abbrev Fld.FWU_DRAWER_CFG_SPILL_SHARE : Fld := ⟨.FWU_DRAWER_CFG, 0, 9⟩
abbrev Fld.FWU_DRAWER_LEFT_SPILL_GIB : Fld := ⟨.FWU_DRAWER_LEFT, 0, 16⟩
abbrev Fld.FWU_DRAWER_LEFT_MODEL_GIB : Fld := ⟨.FWU_DRAWER_LEFT, 16, 16⟩

/-- The FWU_ register page. -/
def regRowsFWU : List RegRow :=
  [⟨.FWU_ID, .none, 0x42, 0x0, 0x0, 0x0, 0x0⟩,
   ⟨.FWU_CTRL, .none, 0x258, 0xFFFF, 0x0, 0x0, 0xFFFF⟩,
   ⟨.FWU_STATE, .none, 0x0, 0x0, 0x0, 0x0, 0x0⟩,
   ⟨.FWU_STS, .none, 0x0, 0x0, 0x0, 0x3F, 0x0⟩,
   ⟨.FWU_STS_EN, .none, 0x3F, 0xFF, 0x0, 0x0, 0xFF⟩,
   ⟨.FWU_CMD, .none, 0x0, 0x0, 0x3, 0x0, 0x0⟩,
   ⟨.FWU_SRC_LO, .none, 0x0, 0xFFFFFFFF, 0x0, 0x0, 0x0⟩,
   ⟨.FWU_SRC_HI, .none, 0x0, 0xFFFFFFFF, 0x0, 0x0, 0x0⟩,
   ⟨.FWU_SRC_BYTES, .none, 0x0, 0xFFFFFFFF, 0x0, 0x0, 0x0⟩,
   ⟨.FWU_ACT_LO, .none, 0x0, 0x0, 0x0, 0x0, 0x0⟩,
   ⟨.FWU_ACT_HI, .none, 0x0, 0x0, 0x0, 0x0, 0x0⟩,
   ⟨.FWU_VER_A, .none, 0x0, 0x0, 0x0, 0x0, 0x0⟩,
   ⟨.FWU_VER_B, .none, 0x0, 0x0, 0x0, 0x0, 0x0⟩,
   ⟨.FWU_LANE_SWAP, .none, 0x0, 0xFFFFFFFF, 0x0, 0x0, 0xFFFFFFFF⟩,
   ⟨.FWU_SETTINGS, .none, 0x0, 0x0, 0x0, 0x0, 0x0⟩,
   ⟨.FWU_DRAWER_WR, .none, 0x0, 0x0, 0x0, 0x0, 0x0⟩,
   ⟨.FWU_DRAWER_CFG, .none, 0x80, 0x1FF, 0x0, 0x0, 0x1FF⟩,
   ⟨.FWU_DRAWER_LEFT, .none, 0x0, 0x0, 0x0, 0x0, 0x0⟩]

/-! ### THM_ -/

abbrev Reg.THM_ID : Reg := ⟨15, 0x000⟩
abbrev Reg.THM_CTRL : Reg := ⟨15, 0x004⟩
abbrev Reg.THM_STATE : Reg := ⟨15, 0x008⟩
abbrev Reg.THM_STS : Reg := ⟨15, 0x00C⟩
abbrev Reg.THM_STS_EN : Reg := ⟨15, 0x010⟩
abbrev Reg.THM_COOL_CFG : Reg := ⟨15, 0x014⟩
abbrev Reg.THM_COOL_TEMP : Reg := ⟨15, 0x018⟩
abbrev Reg.THM_COOL_FLOW : Reg := ⟨15, 0x01C⟩
abbrev Reg.THM_SPOT_SEL : Reg := ⟨15, 0x020⟩
abbrev Reg.THM_SPOT : Reg := ⟨15, 0x024⟩

abbrev Fld.THM_ID_SPOTS : Fld := ⟨.THM_ID, 0, 5⟩
abbrev Fld.THM_ID_R_JC : Fld := ⟨.THM_ID, 8, 8⟩
abbrev Fld.THM_CTRL_T_THROTTLE : Fld := ⟨.THM_CTRL, 0, 8⟩
abbrev Fld.THM_CTRL_RAMP : Fld := ⟨.THM_CTRL, 8, 3⟩
abbrev Fld.THM_CTRL_NOM_SRC : Fld := ⟨.THM_CTRL, 11, 1⟩
abbrev Fld.THM_CTRL_C_V : Fld := ⟨.THM_CTRL, 12, 12⟩
abbrev Fld.THM_STATE_COOL : Fld := ⟨.THM_STATE, 0, 2⟩
abbrev Fld.THM_STATE_SURVIVAL : Fld := ⟨.THM_STATE, 2, 1⟩
abbrev Fld.THM_STATE_TRIP : Fld := ⟨.THM_STATE, 3, 1⟩
abbrev Fld.THM_STATE_HOT_SPOT : Fld := ⟨.THM_STATE, 4, 4⟩
abbrev Fld.THM_STATE_T_MAX : Fld := ⟨.THM_STATE, 8, 10⟩
abbrev Fld.THM_STS_COOL_LOSS : Fld := ⟨.THM_STS, 0, 1⟩
abbrev Fld.THM_STS_COOL_STALE : Fld := ⟨.THM_STS, 1, 1⟩
abbrev Fld.THM_STS_SURVIVAL_EXIT : Fld := ⟨.THM_STS, 2, 1⟩
abbrev Fld.THM_STS_THROTTLE : Fld := ⟨.THM_STS, 3, 1⟩
abbrev Fld.THM_STS_T_CRIT : Fld := ⟨.THM_STS, 4, 1⟩
abbrev Fld.THM_STS_TRIP : Fld := ⟨.THM_STS, 5, 1⟩
abbrev Fld.THM_STS_SPOT_FLAG : Fld := ⟨.THM_STS, 6, 1⟩
abbrev Fld.THM_STS_SPOT_BAD : Fld := ⟨.THM_STS, 7, 1⟩
abbrev Fld.THM_STS_SEQ : Fld := ⟨.THM_STS, 24, 8⟩
abbrev Fld.THM_STS_EN_EVT_EN : Fld := ⟨.THM_STS_EN, 0, 8⟩
abbrev Fld.THM_COOL_CFG_FLOW_NOM : Fld := ⟨.THM_COOL_CFG, 0, 16⟩
abbrev Fld.THM_COOL_CFG_T_OUT_MAX : Fld := ⟨.THM_COOL_CFG, 16, 8⟩
abbrev Fld.THM_COOL_TEMP_T_IN : Fld := ⟨.THM_COOL_TEMP, 0, 16⟩
abbrev Fld.THM_COOL_TEMP_T_OUT : Fld := ⟨.THM_COOL_TEMP, 16, 16⟩
abbrev Fld.THM_COOL_FLOW_FLOW : Fld := ⟨.THM_COOL_FLOW, 0, 16⟩
abbrev Fld.THM_COOL_FLOW_AGE : Fld := ⟨.THM_COOL_FLOW, 16, 16⟩
abbrev Fld.THM_SPOT_SEL_SPOT : Fld := ⟨.THM_SPOT_SEL, 0, 4⟩
abbrev Fld.THM_SPOT_READ_A : Fld := ⟨.THM_SPOT, 0, 10⟩
abbrev Fld.THM_SPOT_READ_B : Fld := ⟨.THM_SPOT, 10, 10⟩
abbrev Fld.THM_SPOT_A_BAD : Fld := ⟨.THM_SPOT, 20, 1⟩
abbrev Fld.THM_SPOT_B_BAD : Fld := ⟨.THM_SPOT, 21, 1⟩
abbrev Fld.THM_SPOT_FLAG : Fld := ⟨.THM_SPOT, 22, 1⟩
abbrev Fld.THM_SPOT_BAD : Fld := ⟨.THM_SPOT, 23, 1⟩

/-- The THM_ register page. -/
def regRowsTHM : List RegRow :=
  [⟨.THM_ID, .none, 0x5A10, 0x0, 0x0, 0x0, 0x0⟩,
   ⟨.THM_CTRL, .none, 0x690564, 0xFFFFFF, 0x0, 0x0, 0xFFFFFF⟩,
   ⟨.THM_STATE, .none, 0x1, 0x0, 0x0, 0x0, 0x0⟩,
   ⟨.THM_STS, .none, 0x0, 0x0, 0x0, 0xFF, 0x0⟩,
   ⟨.THM_STS_EN, .none, 0xF3, 0xFF, 0x0, 0x0, 0xFF⟩,
   ⟨.THM_COOL_CFG, .none, 0x3707D0, 0xFFFFFF, 0x0, 0x0, 0xFF0000⟩,
   ⟨.THM_COOL_TEMP, .none, 0x0, 0x0, 0x0, 0x0, 0x0⟩,
   ⟨.THM_COOL_FLOW, .none, 0xFFFF0000, 0x0, 0x0, 0x0, 0x0⟩,
   ⟨.THM_SPOT_SEL, .none, 0x0, 0xF, 0x0, 0x0, 0x0⟩,
   ⟨.THM_SPOT, .thmSpot, 0x0, 0x0, 0x0, 0x0, 0x0⟩]

/-! ### PWR_ -/

abbrev Reg.PWR_ID : Reg := ⟨16, 0x000⟩
abbrev Reg.PWR_CTRL : Reg := ⟨16, 0x004⟩
abbrev Reg.PWR_STATE : Reg := ⟨16, 0x008⟩
abbrev Reg.PWR_STS : Reg := ⟨16, 0x00C⟩
abbrev Reg.PWR_STS_EN : Reg := ⟨16, 0x010⟩
abbrev Reg.PWR_IN : Reg := ⟨16, 0x014⟩
abbrev Reg.PWR_RLM_SEL : Reg := ⟨16, 0x018⟩
abbrev Reg.PWR_RLM_POWER : Reg := ⟨16, 0x01C⟩
abbrev Reg.PWR_SB_STATE : Reg := ⟨16, 0x020⟩

abbrev Fld.PWR_ID_CAPS : Fld := ⟨.PWR_ID, 0, 3⟩
abbrev Fld.PWR_ID_SURVIVAL_W : Fld := ⟨.PWR_ID, 8, 8⟩
abbrev Fld.PWR_CTRL_CAP_SEL : Fld := ⟨.PWR_CTRL, 0, 2⟩
abbrev Fld.PWR_CTRL_BALLAST_EN : Fld := ⟨.PWR_CTRL, 2, 1⟩
abbrev Fld.PWR_STATE_STATE : Fld := ⟨.PWR_STATE, 0, 3⟩
abbrev Fld.PWR_STATE_LIMITER : Fld := ⟨.PWR_STATE, 3, 3⟩
abbrev Fld.PWR_STATE_EFF_CAP : Fld := ⟨.PWR_STATE, 8, 10⟩
abbrev Fld.PWR_STATE_ENVELOPE : Fld := ⟨.PWR_STATE, 18, 10⟩
abbrev Fld.PWR_STS_CAP_CHANGE : Fld := ⟨.PWR_STS, 0, 1⟩
abbrev Fld.PWR_STS_LOW_POWER : Fld := ⟨.PWR_STS, 1, 1⟩
abbrev Fld.PWR_STS_MAIN_DIP : Fld := ⟨.PWR_STS, 2, 1⟩
abbrev Fld.PWR_STS_SB_STUCK : Fld := ⟨.PWR_STS, 3, 1⟩
abbrev Fld.PWR_STS_SB_FAST : Fld := ⟨.PWR_STS, 4, 1⟩
abbrev Fld.PWR_STS_AUX_LOST : Fld := ⟨.PWR_STS, 5, 1⟩
abbrev Fld.PWR_STS_SEQ : Fld := ⟨.PWR_STS, 24, 8⟩
abbrev Fld.PWR_STS_EN_EVT_EN : Fld := ⟨.PWR_STS_EN, 0, 8⟩
abbrev Fld.PWR_IN_POWER : Fld := ⟨.PWR_IN, 0, 12⟩
abbrev Fld.PWR_IN_V_MAIN : Fld := ⟨.PWR_IN, 12, 12⟩
abbrev Fld.PWR_RLM_SEL_REALM : Fld := ⟨.PWR_RLM_SEL, 0, 2⟩
abbrev Fld.PWR_RLM_POWER_WATTS : Fld := ⟨.PWR_RLM_POWER, 0, 10⟩
abbrev Fld.PWR_RLM_POWER_WINDOW : Fld := ⟨.PWR_RLM_POWER, 16, 16⟩
abbrev Fld.PWR_SB_STATE_LEVEL : Fld := ⟨.PWR_SB_STATE, 0, 3⟩
abbrev Fld.PWR_SB_STATE_STUCK : Fld := ⟨.PWR_SB_STATE, 4, 3⟩
abbrev Fld.PWR_SB_STATE_FAST : Fld := ⟨.PWR_SB_STATE, 8, 3⟩

/-- The PWR_ register page. -/
def regRowsPWR : List RegRow :=
  [⟨.PWR_ID, .none, 0x2D07, 0x0, 0x0, 0x0, 0x0⟩,
   ⟨.PWR_CTRL, .none, 0x6, 0x7, 0x0, 0x0, 0x7⟩,
   ⟨.PWR_STATE, .none, 0xB52C00, 0x0, 0x0, 0x0, 0x0⟩,
   ⟨.PWR_STS, .none, 0x0, 0x0, 0x0, 0x3F, 0x0⟩,
   ⟨.PWR_STS_EN, .none, 0x3C, 0xFF, 0x0, 0x0, 0xFF⟩,
   ⟨.PWR_IN, .none, 0x0, 0x0, 0x0, 0x0, 0x0⟩,
   ⟨.PWR_RLM_SEL, .none, 0x0, 0x3, 0x0, 0x0, 0x0⟩,
   ⟨.PWR_RLM_POWER, .pwrRlm, 0x0, 0x0, 0x0, 0x0, 0x0⟩,
   ⟨.PWR_SB_STATE, .none, 0x0, 0x0, 0x0, 0x0, 0x0⟩]

/-- Every register of the module, blocks in the order of the prefix table of R13. -/
def regRows : List RegRow :=
  regRowsGLB ++ regRowsCLK ++ regRowsGAU ++ regRowsSTV ++ regRowsRING ++ regRowsCLU ++ regRowsTIL ++ regRowsKVM ++ regRowsSRV ++ regRowsCTL ++ regRowsVID ++ regRowsDET ++ regRowsFLT ++ regRowsSEC ++ regRowsFWU ++ regRowsTHM ++ regRowsPWR

/-- The rows of one block's page. -/
def pageRows : Nat → List RegRow
  | 0 => regRowsGLB
  | 1 => regRowsCLK
  | 2 => regRowsGAU
  | 3 => regRowsSTV
  | 4 => regRowsRING
  | 5 => regRowsCLU
  | 6 => regRowsTIL
  | 7 => regRowsKVM
  | 8 => regRowsSRV
  | 9 => regRowsCTL
  | 10 => regRowsVID
  | 11 => regRowsDET
  | 12 => regRowsFLT
  | 13 => regRowsSEC
  | 14 => regRowsFWU
  | 15 => regRowsTHM
  | 16 => regRowsPWR
  | _ => []

/-- The row of a register, if the page has one at that offset. -/
def Reg.row (r : Reg) : Option RegRow := (pageRows r.block).find? (fun x => x.reg.off == r.off)

/-- The word a register holds after reset (R12, R446). -/
def Reg.resetWord (r : Reg) : BitVec 32 := (r.row.map RegRow.reset).getD 0

/-- The key under which State holds a register of a unit, behind a selector value. -/
def Reg.key (r : Reg) (unit sel : Nat) : Nat := ((r.block * 64 + r.off / 4) * 1024 + unit) * 1024 + sel

/-- The register that a key names. -/
def Reg.ofKey (k : Nat) : Reg :=
  let n := k / (1024 * 1024)
  ⟨n / 64, n % 64 * 4⟩

/-- The default of the register table of State: a register nothing has written holds its reset word. -/
def regDefault (k : Nat) : BitVec 32 := (Reg.ofKey k).resetWord

/-- The field's value within a register word. -/
def Fld.of (f : Fld) (w : BitVec 32) : Nat := w.toNat / 2 ^ f.lo % 2 ^ f.width

/-- The bits of the field. -/
def Fld.mask (f : Fld) : BitVec 32 := BitVec.ofNat 32 ((2 ^ f.width - 1) * 2 ^ f.lo)

/-- A register word with the field set to a value, every other bit kept. -/
def Fld.into (f : Fld) (v : Nat) (w : BitVec 32) : BitVec 32 :=
  (w &&& ~~~ f.mask) ||| BitVec.ofNat 32 (v % 2 ^ f.width * 2 ^ f.lo)

end Sys2Proof.Machine
end

