-- ==== Sys2Proof/Machine/StateUnits.lean ====
section
/-! DEFINITION. The state of memory, tiles, clusters, rings, jobs and the key-value memory (chapters 01 to 05 of spec/). -/

namespace Sys2Proof.Machine

/-- The stores: bytes, and the 8-byte words that read as uncorrectable (R46, R170), as sorted word numbers. -/
structure Mem where
  cells : Memory := []
  bad : List Nat := []
  deriving DecidableEq, Repr

/-- An SQC register (R459): its counter C, whether it was read since C last advanced, and each set bit with its S_b. -/
structure Sqc where
  c : Nat := 0
  read : Bool := false
  setBits : Tab Nat := []
  deriving DecidableEq, Repr

inductive TileSt where
  | idle | running | halted | fault
  deriving DecidableEq, Repr

/-- An operator of a job, named by the descriptor's number and its index in the program. -/
structure OpKey where
  desc : Nat
  op : Nat
  deriving DecidableEq, Repr

/-- A physical tile (R45-R54, R413). -/
structure Tile where
  st : TileSt := .idle
  queued : Nat := 0
  cur : Option OpKey := none
  retired : Bool := false
  retiring : Bool := false
  /-- The logical tile whose number its stand-in took (R366). -/
  was : Option Nat := none
  scrubbing : Bool := false
  /-- Corrected errors of the running scrub pass, by bank, group and column (R47). -/
  colCe : Tab Nat := []
  /-- The bank, group and column of a rewrite under way (R48). -/
  rewrite : Option (Nat × Nat × Nat) := none
  /-- Groups whose spare column is used up and needed again (R49), by the same key as the map. -/
  exhausted : List Nat := []
  /-- Column map: key bank + 32 · group, value 256 · factory + column + 1 (R48, TIL_COLMAP). -/
  colmap : Tab Nat := []
  /-- The TIL_UCODE_ID of microcode that waits to be loaded (R413), and whether the tile passed its known-answer pass on what it holds (R414). -/
  nextUcode : Option Nat := none
  passed : Bool := true
  deriving DecidableEq, Repr

/-- A line buffer of a cluster (R112). -/
structure LineBuf where
  owner : OpKey := ⟨0, 0⟩
  dir : Nat := 0
  layer : Nat := 0
  prod : Nat := 0
  cons : Nat := 0
  /-- Columns of the layer that a halo row holds. -/
  cols : Nat × Nat := (0, 0)
  depth : Nat := 0
  rowLines : Nat := 0
  slotBase : Nat := 0
  prodCnt : Nat := 0
  consCnt : Nat := 0
  /-- The consumer's next band, and the rows of the layer the buffer carries. -/
  band : Nat := 0
  rows : Nat := 0
  done : Bool := false
  stall : Nat := 0
  /-- The Gauge count since which its producer stalls or its consumer waits (R118). -/
  waitSince : Option Nat := none
  deriving DecidableEq, Repr

/-- A physical cluster (R103, R108, R112). -/
structure Cluster where
  tceRun : Option OpKey := none
  tceQueue : List OpKey := []
  s2dRun : Option OpKey := none
  s2dQueue : List OpKey := []
  bufs : Tab LineBuf := []
  groups : List OpKey := []
  retired : Bool := false
  /-- The logical cluster that it held before it retired (R367). -/
  was : Option Nat := none
  deriving DecidableEq, Repr

/-- Where an operator of a job stands (R187, R189). -/
inductive OpSt where
  | waiting
  | running
  | ended (status : Nat)
  deriving DecidableEq, Repr

/-- One operator of a running job: its standing, its tiles, the epoch it holds (R166), and its start. -/
structure OpRun where
  st : OpSt := .waiting
  tiles : List Nat := []
  /-- The tile it runs from, when an engine of the cluster runs it (R103). -/
  home : Nat := 0
  start : Nat := 0
  epoch : Option Nat := none
  /-- Settings sampled at its start (R50): stochastic rounding and saturating overflow. -/
  stoch : Bool := false
  ovfSat : Bool := true
  /-- A convolution that waits for its path, with the space-to-depth repack done (R105, R108). -/
  repacked : Bool := false
  deriving DecidableEq, Repr

/-- An operator record of a program image (R188). -/
structure OpRecord where
  opcode : Nat := 0
  stream : Nat := 0
  cluster : Nat := 0
  oflags : Nat := 0
  tiles : Nat := 0
  off : Nat := 0
  len : Nat := 0
  deps : List Nat := []
  deriving DecidableEq, Repr

/-- A started JOB (R187, R188). -/
structure Job where
  realm : Nat := 0
  ring : Nat := 0
  /-- Its operator records, read when it started. -/
  recs : List OpRecord := []
  ops : Tab OpRun := []
  /-- The first operator it runs: NEXT_OP of a restored JOB (R346). -/
  first : Nat := 0
  det : Bool := false
  /-- The mode word its start sampled (R340). -/
  mode : Nat := 0
  start : Nat := 0
  /-- The time limit that is left (R187, R346). -/
  maxGt : Nat := 0
  /-- It reads skeins: an ATTN operator or a PAGED ply (R166, R345). -/
  paged : Bool := false
  /-- The status that ends the job by R187, once one operator has met it, with its operator. -/
  ending : Option (Nat × Nat) := none
  counts : List Nat := [0, 0, 0, 0]
  path : Nat := 3
  /-- No further operator starts: a SNAPSHOT names the job (R343). -/
  held : Bool := false
  /-- The last tile dispatched, for the round robin of R330. -/
  lastTile : Option Nat := none
  /-- Program, weights and input digests, formed while it runs, for a JOB with DIGEST (R338, R341). -/
  inputs : List (List Nat) := []
  /-- Every operator has ended; the digest of its outputs is being formed (R341). -/
  finished : Bool := false
  /-- The result digest, once formed (R339). -/
  digest : Option (List Nat) := none
  /-- The firmware version that it reports: the one that ran when it started (R413). -/
  fw : Nat := 0
  /-- A restored JOB: whether its image had DET set (R347). -/
  imageDet : Option Bool := none
  deriving DecidableEq, Repr

/-- What a completion record reports beyond its descriptor (R199, R202). -/
structure Rec where
  status : Nat
  opIndex : Nat := 0xFFFFFFFF
  counts : List Nat := [0, 0, 0, 0]
  result : Nat := 0
  /-- None unless a JOB ran a convolution (R200). -/
  path : Nat := 3
  digest : Option (List Nat) := none
  signed : Bool := false
  modeWord : Nat := 0
  /-- The firmware version it reports; none for the running one (R413). -/
  fw : Option Nat := none
  deriving DecidableEq, Repr

/-- A fetched descriptor whose record is not yet written (R175, R176). -/
structure Desc where
  uid : Nat
  slot : Nat
  raw : List Nat
  started : Option Nat := none
  reserved : Bool := false
  acted : Bool := false
  launchLate : Bool := false
  late : Bool := false
  cancelLate : Bool := false
  /-- DET_MODE was set since the descriptor started (R200). -/
  det : Bool := false
  /-- The host will refuse the write of its record (R209). -/
  cqErr : Bool := false
  /-- DET_CTRL and the Gauge count at the fetch (R357, R197). -/
  ctl : Nat := 15
  fetchedAt : Nat := 0
  /-- The record it ends with, once known before a completion slot was reserved (R198, R241). -/
  result : Option Rec := none
  /-- A JOB that a RESTORE put on the ring: it takes no submission slot (R346). -/
  extra : Bool := false
  deriving DecidableEq, Repr

/-- A ring pair (R173-R178, R209). -/
structure Ring where
  fetch : Nat := 0
  tail : Nat := 0
  cqTail : Nat := 0
  cqHead : Nat := 0
  /-- The PHASE the current pass writes (R177). -/
  phase : Bool := true
  stopped : Bool := false
  /-- A record write failed: no further record is written (R209). -/
  cqDead : Bool := false
  descs : List Desc := []
  lost : Nat := 0
  irqDue : Option Nat := none
  /-- COUNT of a LAUNCH_AT that has completed, for the descriptor after it (R197). -/
  launch : Option Nat := none
  deriving DecidableEq, Repr

/-- An event ring with its run of dropped records (R206, R207). -/
structure EvRing where
  tail : Nat := 0
  head : Nat := 0
  phase : Bool := true
  runCount : Nat := 0
  runFirst : Nat := 0
  runLast : Nat := 0
  irqDue : Option Nat := none
  deriving DecidableEq, Repr

/-- An internal queue (R211-R217). -/
structure IQueue where
  words : List (BitVec 72) := []
  gap : Option Nat := none
  /-- Arriving words are dropped until a SINGLE or FIRST (R212, R217). -/
  dropping : Bool := false
  /-- The reader discards words until a SINGLE or FIRST (R215). -/
  skipping : Bool := false
  deriving DecidableEq, Repr

inductive PageSt where
  | free | resident | spilling | spilled | fetching | evicted | deferred
  deriving DecidableEq, Repr

/-- A page-map entry (R140), with the spill count and tag of R158, the spill slot of a copy under way, the epoch of its
last read (R156), and whether the entry itself is uncorrectable (R169). -/
structure PageEnt where
  st : PageSt := .free
  sizeLog : Nat := 0
  realm : Nat := 0
  owner : Bool := false
  shared : Bool := false
  tier : Nat := 0
  poison : Bool := false
  nxt : Nat := 0
  frame : Nat := 0
  fill : Nat := 0
  refs : Nat := 0
  score : Nat := 0
  epoch : Nat := 0
  spillCount : Nat := 0
  tag : List Nat := []
  /-- The entry under whose number the frame was sealed. -/
  sealedBy : Nat := 0
  slot : Nat := 0
  lastRead : Nat := 0
  mapUe : Bool := false
  /-- It has been found so (R169). -/
  mapSeen : Bool := false
  /-- A DEFERRED or EVICTED entry whose frame is not yet back in the pool (R166). -/
  hasFrame : Bool := false
  /-- Granules of its frame (R142). -/
  gran : Nat := 0
  deriving DecidableEq, Repr

/-- A skein record (R146), with the parent array of its staged tree (R139, R148) and the serving engine's pause mark (R156). -/
structure Skein where
  realm : Nat := 0
  prof : Nat := 0
  len : Nat := 0
  staged : Nat := 0
  last : Nat := 0
  stageFrame : Nat := 0
  stageGran : Nat := 0
  /-- Entries the skein counts for from the admission of its request on (R248). -/
  promise : Nat := 0
  parents : List Nat := []
  paused : Bool := false
  deriving DecidableEq, Repr

/-- A prefix record (R162). -/
structure Prefix where
  realm : Nat := 0
  handle : Nat := 0
  prof : Nat := 0
  n : Nat := 0
  first : Nat := 0
  deriving DecidableEq, Repr

/-- The key-value memory (R140-R170). -/
structure Kvm where
  ents : Tab PageEnt := []
  skeins : Tab Skein := []
  prefixes : Tab Prefix := []
  cur : Nat := 0
  /-- Epochs held by running readers (R166). -/
  readers : List Nat := []
  /-- Frames sealed so far: the spill count of R158. -/
  spills : Nat := 0
  deriving DecidableEq, Repr

/-- What the module has sent to the outside, newest last (log entry 12). -/
inductive OutMsg where
  | msix (vector : Nat)
  | frame (port : Nat) (bytes : List Nat)
  /-- A Stave frame: odd or even, and its bytes from offset 2 on (R433). -/
  | stave (odd : Bool) (bytes : List Nat)
  | pin (name : Nat) (level : Bool)
  deriving DecidableEq, Repr

/-- A key slot of a realm that is LOADED (R395, R399): use 0 JOB, 1 PKG; `window` holds the accepted counters IN_HIGH - 63 to
IN_HIGH, bit k for IN_HIGH - k. -/
structure KeySlot where
  key : List Nat := []
  use : Nat := 0
  inHigh : Nat := 0
  outNext : Nat := 1
  window : Nat := 0
  deriving DecidableEq, Repr

/-- Realm states (R390). -/
inductive RealmSt where
  | absent | creating | active | destroying
  deriving DecidableEq, Repr

/-- A realm and its grant (R390, R391). Regions are in units of 64 MiB. -/
structure Realm where
  st : RealmSt := .absent
  drawer : Bool := false
  lane : Bool := false
  regions : List (Nat × Nat) := []
  groups : Nat := 0
  created : Nat := 0
  deriving DecidableEq, Repr

end Sys2Proof.Machine
end

