-- ==== Sys2Proof/Machine/StateVideo.lean ====
section
/-! DEFINITION. The state of the video engine (chapter 08 of spec/). -/

namespace Sys2Proof.Machine

/-- A fetched frame of a stream that waits for its turn (R300): its ring pair and descriptor, its FRAME_NO, and the parts that its
bitstream can be cut into. A cancelled frame only uses its FRAME_NO (R318). -/
structure VidEntry where
  ring : Nat
  uid : Nat
  no : Nat
  parts : Nat := 1
  cancelled : Bool := false
  deriving DecidableEq, Repr

/-- The frame of a stream whose turn it is (R305, R314). -/
structure VidRun where
  ring : Nat
  uid : Nat
  no : Nat
  /-- Parts in all, parts not dispatched yet, parts that run or wait for their re-run, parts ended. -/
  parts : Nat
  waiting : List Nat
  running : List Nat := []
  ended : Nat := 0
  /-- Parts that met an uncorrectable core error once, with the core it came on (R320). -/
  rerun : List (Nat × Nat) := []
  cores : List Nat := []
  readyAt : Nat := 0
  buffer : Nat := 0
  /-- Frame count n of R300 of this frame. -/
  n : Nat := 0
  killed : Bool := false
  deriving DecidableEq, Repr

/-- A stream record as the open read it (R298). -/
structure VidRec where
  codec : Nat := 0
  op : Nat := 0
  sflags : Nat := 0
  width : Nat := 0
  height : Nat := 0
  fpsNum : Nat := 1
  fpsDen : Nat := 1
  pitch : Nat := 0
  pool : Nat := 0
  frames : Nat := 0
  split : Nat := 0
  gop : Nat := 0
  cq : Nat := 0
  qpMax : Nat := 0
  search : Nat := 0
  level : Nat := 0
  cap : Nat := 0
  window : Nat := 1
  hint : Nat := 0
  deriving DecidableEq, Repr

inductive VidSt where
  | closed | opened | draining | error
  deriving DecidableEq, Repr

/-- A stream of a realm (R298-R307). -/
structure VidStrm where
  st : VidSt := .closed
  cls : Nat := 0
  params : VidRec := {}
  lastNo : Nat := 0
  n : Nat := 0
  queue : List VidEntry := []
  cur : Option VidRun := none
  /-- Mark words of the pool's buffers (R306), and the FRAME_NO of the picture in each. -/
  marks : Tab Nat := []
  nos : Tab Nat := []
  /-- Released pictures that are not yet output, in output order (R307). -/
  pending : List Nat := []
  /-- Bits of the last frames, newest first, and k_I and k_P in 1/65536 (R311). -/
  hist : List Nat := []
  kI : Nat := 32768
  kP : Nat := 6553
  lastQp : Nat := 0
  deriving DecidableEq, Repr

/-- The video engine: streams by 256 · realm + stream; what each core runs, as stream, descriptor and part; the class of its last part. -/
structure Vid where
  strms : Tab VidStrm := []
  cores : Tab (Nat × Nat × Nat) := []
  lastClass : Tab Nat := []
  deriving DecidableEq, Repr

end Sys2Proof.Machine
end

