-- ==== Sys2Proof/Machine/State.lean ====
section
/-! DEFINITION. The state of the module, as plain data, its faults and refusals, and the state after reset. -/

namespace Sys2Proof.Machine

/-- The state of the module. -/
structure State where
  /-- The Gauge count (R429). -/
  gauge : Nat := 0
  /-- Free values and random numbers drawn so far: the model's own field (log entries 8 and 9). -/
  free : Nat := 0
  mem : Mem := {}
  /-- Register words by key; an unlisted register holds its reset word (R12). -/
  regs : Tab Word := []
  sqc : Tab Sqc := []
  /-- Next SEQ of each event source (R204). -/
  evSeq : Tab Nat := []
  /-- Internal queues: 0–15 the lane's ingress, 16 firmware's event queue, above it the mailboxes (R211). -/
  queues : Tab IQueue := []
  rings : Tab Ring := []
  evRings : Tab EvRing := []
  /-- The number the next fetched descriptor takes: fetch order over all rings. -/
  nextUid : Nat := 1
  jobs : Tab Job := []
  tiles : Tab Tile := []
  clusters : Tab Cluster := []
  /-- The cluster map and the tile maps (R5, R7). -/
  cluMap : List Nat := [0, 1, 2, 3, 4, 5, 6, 7]
  tileMap : Tab Nat := []
  kvm : Kvm := {}
  srv : Srv := {}
  realms : Tab Realm := []
  /-- LOADED key slots by 256 · realm + slot (R395). -/
  keys : Tab KeySlot := []
  /-- Logical tiles that the control lane holds (R265, R392). -/
  laneTiles : List Nat := []
  /-- Cluster-store partitions of the lane: physical cluster and byte offset, 1 MiB each (R265, R392). -/
  laneParts : List (Nat × Nat) := []
  lane : Lane := {}
  vid : Vid := {}
  boot : Boot := {}
  flt : Flt := {}
  drawer : DrawerBudget := {}
  det : Det := {}
  clk : Clk := {}
  stave : Stave := {}
  sec : Sec := {}
  pwr : Pwr := {}
  out : List OutMsg := []
  /-- The commands that wait, first in, first out. -/
  pending : List Sys2Proof.Instr := []
  deriving DecidableEq, Repr

/-- Why a run stops with a fault: no command of this module stops one (every access the spec forbids is dropped or reported). -/
inductive Fault where
  /-- Raised by no meaning; kept so that the type is not empty. Safe: it stops. -/
  | none
  deriving DecidableEq, Repr

/-- Why a command is refused. -/
inductive Refusal where
  /-- The command has no meaning yet: raised by exec's own arm. Safe: it stops. -/
  | notModelled (mnemonic : String)
  deriving DecidableEq, Repr

/-- The module right after a power-on reset (R446, R448): every field at its reset value. -/
def State.reset : State := {}

end Sys2Proof.Machine
end

