-- ==== Sys2Proof/Machine/Ops.lean ====
section
/-! DEFINITION. The named operations over the state: registers and their fields, SQC registers, memory, queues, events, completion records. -/

namespace Sys2Proof.Machine

/-! ### Registers -/

def State.word (s : State) (r : Reg) (u : Nat := 0) (sel : Nat := 0) : Word := Tab.get regDefault s.regs (r.key u sel)

def State.setWord (s : State) (r : Reg) (u sel : Nat) (w : Word) : State :=
  { s with regs := Tab.set regDefault (r.key u sel) w s.regs }

/-- A field of a register. -/
def State.fld (s : State) (f : Fld) (u : Nat := 0) (sel : Nat := 0) : Nat := f.of (s.word f.reg u sel)

/-- A field set, the register's other bits kept. -/
def State.setFld (s : State) (f : Fld) (v : Nat) (u : Nat := 0) (sel : Nat := 0) : State :=
  s.setWord f.reg u sel (f.into v (s.word f.reg u sel))

def State.flag (s : State) (f : Fld) (u : Nat := 0) (sel : Nat := 0) : Bool := s.fld f u sel == 1

/-- A counter that stops at its largest value. -/
def State.bumpSat (s : State) (f : Fld) (n : Nat) (u : Nat := 0) (sel : Nat := 0) : State :=
  s.setFld f (satAt (2 ^ f.width - 1) (s.fld f u sel + n)) u sel

/-- A counter that wraps. -/
def State.bumpWrap (s : State) (f : Fld) (n : Nat) (u : Nat := 0) (sel : Nat := 0) : State :=
  s.setFld f ((s.fld f u sel + n) % 2 ^ f.width) u sel

/-! ### Tables of the state -/

def State.tile (s : State) (p : Nat) : Tile := Tab.get (fun _ => {}) s.tiles p
def State.setTile (s : State) (p : Nat) (t : Tile) : State := { s with tiles := Tab.set (fun _ => {}) p t s.tiles }
def State.cluster (s : State) (c : Nat) : Cluster := Tab.get (fun _ => {}) s.clusters c
def State.setCluster (s : State) (c : Nat) (x : Cluster) : State := { s with clusters := Tab.set (fun _ => {}) c x s.clusters }
def ringKey (r n : Nat) : Nat := r * 64 + n
def State.ring (s : State) (r n : Nat) : Ring := Tab.get (fun _ => {}) s.rings (ringKey r n)
def State.setRing (s : State) (r n : Nat) (x : Ring) : State := { s with rings := Tab.set (fun _ => {}) (ringKey r n) x s.rings }
def State.evRing (s : State) (r : Nat) : EvRing := Tab.get (fun _ => {}) s.evRings r
def State.setEvRing (s : State) (r : Nat) (x : EvRing) : State := { s with evRings := Tab.set (fun _ => {}) r x s.evRings }
def State.queue (s : State) (q : Nat) : IQueue := Tab.get (fun _ => {}) s.queues q
def State.setQueue (s : State) (q : Nat) (x : IQueue) : State := { s with queues := Tab.set (fun _ => {}) q x s.queues }
def State.realm (s : State) (r : Nat) : Realm := Tab.get (fun _ => {}) s.realms r
def State.setRealm (s : State) (r : Nat) (x : Realm) : State := { s with realms := Tab.set (fun _ => {}) r x s.realms }
def State.job (s : State) (uid : Nat) : Option Job := Tab.find uid s.jobs
def State.setJob (s : State) (uid : Nat) (j : Job) : State := { s with jobs := Tab.put uid j s.jobs }
def State.updJob (s : State) (uid : Nat) (f : Job → Job) : State := { s with jobs := Tab.upd uid f s.jobs }
def State.onKvm (s : State) (f : Kvm → Kvm) : State := { s with kvm := f s.kvm }
def State.onMem (s : State) (f : Mem → Mem) : State := { s with mem := f s.mem }
def Job.op (j : Job) (k : Nat) : OpRun := Tab.get (fun _ => {}) j.ops k
def Job.setOp (j : Job) (k : Nat) (o : OpRun) : Job := { j with ops := Tab.set (fun _ => {}) k o j.ops }

/-- A free value (log entries 8 and 9): the count of draws advances. -/
def State.draw (s : State) : Nat × State := (Config.freeValue s.free, { s with free := s.free + 1 })
/-- A random value of the root of trust. -/
def State.drawRandom (s : State) : Nat × State := (Config.random s.free, { s with free := s.free + 1 })

/-- A message sent to the outside. -/
def State.send (s : State) (m : OutMsg) : State := { s with out := s.out ++ [m] }

/-! ### Memory -/

/-- Words that a write of `n` bytes at `a` covers whole (R46). -/
def coversWord (a n k : Nat) : Bool := decide (a ≤ 8 * k) && decide (8 * k + 8 ≤ a + n)

/-- Words that an access of `n` bytes at `a` touches. -/
def touchesWord (a n k : Nat) : Bool := decide (8 * k < a + n) && decide (a < 8 * k + 8)

/-- A write of bytes: a word written whole loses its poison; a word written in part keeps it (R46). -/
def Mem.store (m : Mem) (a : Nat) (bs : List Nat) : Mem :=
  { cells := m.cells.store a bs, bad := m.bad.filter (fun k => !coversWord a bs.length k) }

/-- Does a read of `n` bytes at `a` meet an uncorrectable word? -/
def Mem.isBad (m : Mem) (a n : Nat) : Bool := m.bad.any (touchesWord a n)

/-- Mark a word as uncorrectable. -/
def Mem.spoil (m : Mem) (k : Nat) : Mem := { m with bad := insertKey k m.bad }

/-- Write zero over a range and clear its poison (R394). -/
def Mem.clear (m : Mem) (a n : Nat) : Mem :=
  { cells := m.cells.filter (fun e => decide (e.1 < a) || decide (a + n ≤ e.1))
    bad := m.bad.filter (fun k => !touchesWord a n k) }

def State.num (s : State) (a n : Nat) : Nat := s.mem.cells.num a n
def State.bytes (s : State) (a n : Nat) : List Nat := s.mem.cells.bytes a n
def State.store (s : State) (a : Nat) (bs : List Nat) : State := s.onMem (fun m => m.store a bs)

/-! ### Units, maps and owners (R5-R7, R391) -/

/-- The physical cluster of a logical one. -/
def State.physCluster (s : State) (l : Nat) : Nat := s.cluMap.getD l 8

/-- The physical tile, in the numbering 17 · c + t, of logical tile 16 · L + t. -/
def State.physTile (s : State) (lt : Nat) : Nat :=
  let c := s.physCluster (lt / 16)
  17 * c + Tab.get (fun k => k % 16) s.tileMap (16 * c + lt % 16)

/-- The logical cluster of a physical one, if it holds one. -/
def State.logCluster (s : State) (c : Nat) : Option Nat := (List.range 8).find? (fun l => s.physCluster l == c)

/-- The logical tile of a physical one, if it holds one. -/
def State.logTile (s : State) (p : Nat) : Option Nat := (List.range 128).find? (fun lt => s.physTile lt == p)

def State.laneHolds (s : State) (lt : Nat) : Bool := s.laneTiles.contains lt

/-- The realm whose grant holds a logical tile's group. -/
def State.groupRealm (s : State) (lt : Nat) : Option Nat :=
  (List.range 4).find? (fun r => (s.realm r).st != .absent && bit (s.realm r).groups (lt / 4))

/-- The realm that owns a logical tile, unless the lane holds it. -/
def State.tileRealm (s : State) (lt : Nat) : Option Nat := if s.laneHolds lt then none else s.groupRealm lt

/-- The realm that owns all four tile groups of a logical cluster. -/
def State.clusterRealm (s : State) (l : Nat) : Option Nat :=
  (List.range 4).find? (fun r => (s.realm r).st != .absent && bits (s.realm r).groups (4 * l) 4 == 15)

/-- The number that event records carry for the management domain. -/
def mgmtRealm : Nat := 0xFF

/-- The realm of a STATUS record (R205). -/
def State.statusRealm (s : State) (r : Reg) (u : Nat) : Nat :=
  (match r.block with
   | 6 => (s.logTile u).bind s.tileRealm
   | 5 => (s.logCluster u).bind s.clusterRealm
   | 4 => some u
   | 9 => if s.fld .CTL_CTRL_OWNER < 4 then some (s.fld .CTL_CTRL_OWNER) else none
   | _ => none).getD mgmtRealm

/-- The source number of a block's STATUS records (R442 and the STS_EN registers). -/
def stsSource (r : Reg) (u : Nat) : Nat :=
  match r.block with
  | 5 => 2 + u
  | 6 => 2 + u / 17
  | 7 => 14
  | 8 => 13
  | 9 => 11
  | 10 => 12
  | 4 => 15
  | 13 => 0
  | 2 => 17
  | 3 => 17
  | 15 => 18
  | 16 => 18
  | _ => 1

/-- The enable register of a status register: it stands 4 bytes above it, on every page but the tile's, where TIL_STS_EN does too. -/
def stsEnable (r : Reg) : Fld := ⟨⟨r.block, r.off + 4⟩, 0, 24⟩

/-! ### SQC registers (R459, R460) -/

def sqcKey (r : Reg) (u : Nat) : Nat := r.key u 0
def State.sqcOf (s : State) (r : Reg) (u : Nat := 0) : Sqc := Tab.get (fun _ => {}) s.sqc (sqcKey r u)
def State.setSqc (s : State) (r : Reg) (u : Nat) (q : Sqc) : State :=
  { s with sqc := Tab.set (fun _ => {}) (sqcKey r u) q s.sqc }

/-- A setting event (R459): C advances when the register was read since it last did; older S_b are carried forward. -/
def Sqc.event (q : Sqc) (mask : List Nat) : Sqc :=
  let c := if q.read then (q.c + 1) % 256 else q.c
  let old := q.setBits.map (fun e => (e.1, if (c + 256 - e.2) % 256 ≥ 128 then (c + 129) % 256 else e.2))
  { c := c, read := false, setBits := mask.foldl (fun t b => Tab.put b c t) old }

/-- A write of V to an SQC register (R460). -/
def Sqc.write (q : Sqc) (v : Nat) : Sqc :=
  let w := bits v 24 8
  if (q.c + 256 - w) % 256 ≥ 128 then q
  else { q with setBits := q.setBits.filter (fun e => !(bit v e.1 && decide ((w + 256 - e.2) % 256 ≤ 127))) }

/-- The word an SQC register reads: its status bits and SEQ. -/
def Sqc.value (q : Sqc) : Nat := (q.setBits.map (fun e => 2 ^ e.1)).sum + q.c * 2 ^ 24

/-! ### Internal queues (R211-R217) -/

/-- A queue word: data, POS, GAP, and even parity over bits 70..0. -/
def popCount : Nat → Nat → Nat
  | 0, _ => 0
  | k + 1, n => n % 2 + popCount k (n / 2)

def queueWord (data pos : Nat) (gap : Bool) : BitVec 72 :=
  let low := data % 2 ^ 64 + (pos % 4) * 2 ^ 64 + b2n gap * 2 ^ 66
  BitVec.ofNat 72 (low + (popCount 71 low % 2) * 2 ^ 71)

/-- POS of word `k` of an item of `n` words (R211). -/
def wordPos (k n : Nat) : Nat := if n ≤ 1 then 0 else if k = 0 then 1 else if k + 1 = n then 3 else 2

def gapData (q count : Nat) : Nat := count % 2 ^ 32 + q % 256 * 2 ^ 32

/-- A pending gap marker enters once an entry is free (R213). -/
def IQueue.enterGap (x : IQueue) (q : Nat) : IQueue :=
  match x.gap with
  | some c => if x.words.length < 32 then { x with words := x.words ++ [queueWord (gapData q c) 0 true], gap := none } else x
  | none => x

/-- A dropped item is counted in the gap register, saturating (R213). -/
def IQueue.drop (x : IQueue) : IQueue :=
  { x with gap := some (satAt 0xFFFFFFFF (x.gap.getD 0 + 1)) }

/-- The words of an item with their tags. -/
def itemWords (ws : List Nat) : List (BitVec 72) :=
  ws.zipIdx.map (fun e => queueWord e.1 (wordPos e.2 ws.length) false)

/-- Is there room for a whole item (R212)? -/
def IQueue.admits (x : IQueue) (n : Nat) : Bool := decide (x.words.length + n ≤ 32) && x.gap.isNone

/-- A whole item arrives: admitted with every word, or dropped and counted (R212, R213). -/
def IQueue.arrive (x : IQueue) (q : Nat) (ws : List Nat) : IQueue :=
  let x := x.enterGap q
  if x.admits ws.length then { x with words := x.words ++ itemWords ws, dropping := false }
  else { x.drop with dropping := false }

/-- The flush of a queue (R217): every entry empties, a pending gap marker stays. -/
def IQueue.flush (x : IQueue) : IQueue := { x with words := [], dropping := true }

/-! ### Events (R204-R208) -/

/-- Firmware's internal event queue. -/
def fwQueue : Nat := 16

/-- The 32 bytes of an event record (R204). -/
def eventBytes (stamp src cls code seq realm eflags payload : Nat) : List Nat :=
  leBytes 8 stamp ++ [src % 256, cls % 256] ++ leBytes 2 code ++ [seq % 256, realm % 256] ++ leBytes 2 eflags ++ leBytes 16 payload

/-- Words of 8 bytes. -/
def toWords : Nat → List Nat → List Nat
  | 0, _ => []
  | _, [] => []
  | k + 1, l => leNum (l.take 8) :: toWords k (l.drop 8)

def State.eqLog (s : State) (r : Nat) : Nat :=
  let v := s.fld .RING_EQ_CFG_EQ_LOG r
  if v = 0 then 16 else if v < 6 then 6 else v

def State.eqSize (s : State) (r : Nat) : Nat := 2 ^ s.eqLog r
def State.eqBase (s : State) (r : Nat) : Nat := s.fld .RING_EQ_LO_BASE_LO r * 2 ^ 12 + s.fld .RING_EQ_HI_BASE_HI r * 2 ^ 32

/-- Slots in use of an event ring. -/
def State.eqUsed (s : State) (r : Nat) : Nat :=
  let e := s.evRing r
  (e.tail + s.eqSize r - e.head % s.eqSize r) % s.eqSize r

/-- The class mask of R206. -/
def State.classOn (s : State) (r cls : Nat) : Bool := bit (s.fld .RING_EQ_CFG_CLASS_MASK r) (cls / 16)

/-- The end of a coalescing delay of `us` microseconds. -/
def State.coalesce (s : State) (old : Option Nat) (irq : Bool) (us : Nat) : Option Nat :=
  if irq then some (old.getD (s.gauge + 320 * us)) else old

/-- Write one record into a realm's event ring: bytes from 0x08 on, then bytes 0x00–0x07 (R178), PHASE set (R177). -/
def State.eqWrite (s : State) (r stamp src cls code seq realm payload : Nat) : State :=
  let e := s.evRing r
  let rec_ := eventBytes (stamp / 32 * 32) src cls code seq realm (b2n e.phase) payload
  let size := s.eqSize r
  let s := s.store (hostBase + s.eqBase r + 32 * (e.tail % size)) rec_
  let t := (e.tail + 1) % size
  s.setEvRing r { e with tail := t, phase := if t = 0 then !e.phase else e.phase,
                         irqDue := s.coalesce e.irqDue (s.flag .RING_EQ_CFG_IRQ_EN r) (s.fld .RING_EQ_CFG_COAL_US r) }

/-- The next SEQ of a source, and the state with it taken (R204). -/
def State.takeSeq (s : State) (src : Nat) : Nat × State :=
  let q := Tab.get (fun _ => 0) s.evSeq src
  (q, { s with evSeq := Tab.set (fun _ => 0) src ((q + 1) % 256) s.evSeq })

/-- The EQ_OVERFLOW record of a run of drops, once two slots are free (R207); its stamps are rounded as realm software reads them (R405). -/
def State.eqOverflow (s : State) (r : Nat) : State :=
  let e := s.evRing r
  if e.runCount = 0 ∨ s.eqSize r < s.eqUsed r + 2 then s
  else
    let q := s.takeSeq 15
    let payload := satAt 0xFFFFFFFF e.runCount + e.runFirst % 2 ^ 64 * 2 ^ 32 + satAt 0xFFFFFFFF (e.runLast - e.runFirst) * 2 ^ 96
    let s := q.2.setQueue fwQueue ((q.2.queue fwQueue).arrive fwQueue (toWords 4 (eventBytes s.gauge 15 0x20 0x0005 q.1 r 0 payload)))
    let s := s.eqWrite r s.gauge 15 0x20 0x0005 q.1 r payload
    s.setEvRing r { s.evRing r with runCount := 0, runFirst := 0, runLast := 0 }

/-- Deliver a record to a realm's event ring; answers whether a run of drops began (R206, R207). -/
def State.eqDeliver (s : State) (r src cls code seq payload : Nat) : Bool × State :=
  if !s.flag .RING_EQ_CFG_ENABLE r || !s.classOn r cls then (false, s)
  else
    let s := s.eqOverflow r
    if s.eqUsed r + 2 ≤ s.eqSize r then (false, s.eqWrite r s.gauge src cls code seq r payload)
    else
      let e := s.evRing r
      let s := s.bumpSat .RING_EQ_DROP_COUNT 1 r
      (e.runCount == 0,
       s.setEvRing r { e with runCount := e.runCount + 1, runFirst := if e.runCount = 0 then s.gauge / 32 * 32 else e.runFirst, runLast := s.gauge / 32 * 32 })

/-- One record: to firmware's queue always, to the realm's ring when it has one (R206). -/
def State.emitOne (s : State) (src cls code realm payload : Nat) : Bool × State :=
  let q := s.takeSeq src
  let s := q.2.setQueue fwQueue ((q.2.queue fwQueue).arrive fwQueue (toWords 4 (eventBytes s.gauge src cls code q.1 realm 0 payload)))
  if realm < 4 then s.eqDeliver realm src cls code q.1 payload else (false, s)

/-- Set status bits of an SQC register, and answer whether their STATUS event is enabled with its payload (R205, R459). -/
def State.stsSet (s : State) (r : Reg) (u : Nat) (mask : List Nat) : Option Nat × State :=
  let q := (s.sqcOf r u).event mask
  let s := s.setSqc r u q
  let on := mask.filter (fun b => bit (s.fld (stsEnable r) u) b)
  if on.isEmpty then (none, s)
  else
    let unit := if r.block = 6 then u % 17 else 0
    (some ((mask.map (fun b => 2 ^ b)).sum + q.c * 2 ^ 24 + r.off * 2 ^ 32 + unit * 2 ^ 44), s)

/-- An event record; when it begins a run of drops, RING_STS.EQ_OVERFLOW is set once, and its own STATUS record is
subject to the same rule (R207). -/
def State.emit (s : State) (src cls code realm payload : Nat) : State :=
  let d := s.emitOne src cls code realm payload
  if d.1 then
    let t := d.2.stsSet .RING_STS realm [3]
    match t.1 with
    | some p => (t.2.emitOne 15 0x10 4 realm p).2
    | none => t.2
  else d.2

/-- An event of a source class set a status register's bits: the SQC rule and the STATUS record (R205, R459). -/
def State.setSts (s : State) (r : Reg) (mask : List Nat) (u : Nat := 0) : State :=
  if mask.isEmpty then s
  else
    let t := s.stsSet r u mask
    match t.1 with
    | some p => t.2.emit (stsSource r u) 0x10 r.block (s.statusRealm r u) p
    | none => t.2

/-! ### Rings and completion records (R173-R178, R199-R203) -/

def ringLog (v : Nat) : Nat := if v < 4 then 4 else v
def State.sqSize (s : State) (r n : Nat) : Nat := 2 ^ ringLog (s.fld .RING_SIZE_SQ_LOG r n)
def State.cqSize (s : State) (r n : Nat) : Nat := 2 ^ ringLog (s.fld .RING_SIZE_CQ_LOG r n)
def State.sqBase (s : State) (r n : Nat) : Nat := s.fld .RING_SQ_LO_BASE_LO r n * 2 ^ 12 + s.fld .RING_SQ_HI_BASE_HI r n * 2 ^ 32
def State.cqBase (s : State) (r n : Nat) : Nat := s.fld .RING_CQ_LO_BASE_LO r n * 2 ^ 12 + s.fld .RING_CQ_HI_BASE_HI r n * 2 ^ 32
def State.recBytes (s : State) (r n : Nat) : Nat := if s.flag .RING_SIZE_CQ_REC r n then 128 else 64

/-- HEAD: the oldest slot whose record is not yet written, or the fetch position (R174, R199; log entry 14). -/
def Ring.head (x : Ring) : Nat := match x.descs.find? (fun d => !d.extra) with
  | some d => d.slot
  | none => x.fetch

/-- Free slots of a completion ring (R176). -/
def State.cqFree (s : State) (r n : Nat) : Nat :=
  let x := s.ring r n
  let size := s.cqSize r n
  size - 1 - (x.cqTail + size - x.cqHead % size) % size - (x.descs.filter Desc.reserved).length

def State.desc (s : State) (r n i : Nat) : Option Desc := (s.ring r n).descs.find? (fun d => d.slot == i)
def State.descUid (s : State) (r n uid : Nat) : Option Desc := (s.ring r n).descs.find? (fun d => d.uid == uid)
def State.updDesc (s : State) (r n uid : Nat) (f : Desc → Desc) : State :=
  s.setRing r n { s.ring r n with descs := (s.ring r n).descs.map (fun d => if d.uid = uid then f d else d) }

def Desc.byte (d : Desc) (k : Nat) : Nat := d.raw.getD k 0
def Desc.num (d : Desc) (k n : Nat) : Nat := leNum ((d.raw.drop k).take n)
def Desc.ty (d : Desc) : Nat := d.byte 0
def Desc.flags (d : Desc) : Nat := d.byte 1
def Desc.tag (d : Desc) : Nat := d.num 4 4

/-- CFLAGS of a record (R199, R200). -/
def cflags (phase : Bool) (d : Desc) (x : Rec) : Nat :=
  b2n phase + 2 * b2n x.digest.isSome + 4 * b2n x.signed + 8 * b2n d.det + 16 * b2n d.late + 32 * b2n d.cancelLate
    + 64 * b2n d.launchLate + 256 * x.path

/-- The bytes of a completion record (R199). -/
def State.recordBytes (s : State) (r n : Nat) (d : Desc) (phase : Bool) (x : Rec) : List Nat :=
  let base := leBytes 4 d.tag ++ [d.ty, x.status % 256] ++ leBytes 2 (cflags phase d x) ++ [n % 256, r % 256]
    ++ leBytes 2 { s.ring r n with descs := (s.ring r n).descs.filter (fun e => e.uid != d.uid) : Ring }.head ++ leBytes 4 x.opIndex
    ++ leBytes 8 (d.started.getD s.gauge / 32 * 32) ++ leBytes 8 (s.gauge / 32 * 32)
    ++ ((List.range 4).map (fun k => leBytes 4 (satAt 0xFFFFFFFF (x.counts.getD k 0)))).flatten ++ leBytes 8 x.result ++ leBytes 8 0
  if s.recBytes r n = 128 then
    base ++ (match x.digest with
      | some h => h ++ leBytes 4 x.modeWord ++ leBytes 4 (x.fw.getD (s.word .GLB_FW_VER).toNat) ++ List.replicate 24 0
      | none => List.replicate 64 0)
  else base

/-- A descriptor completes, unless the module has FAILED (R365): its record is written in its reserved slot, CQ_TAIL and PHASE advance, the message delay starts,
RING_PERF_DONE counts it, and the EVENT flag emits DONE (R176-R178, R182, R184, R209). -/
def State.complete (s : State) (r n uid : Nat) (x : Rec) : State :=
  match if s.flt.failed then none else s.descUid r n uid with
  | none => s
  | some d =>
    let q := s.ring r n
    let s1 :=
      if q.cqDead then s.setRing r n { q with lost := q.lost + 1 }
      else if d.cqErr then
        (s.setRing r n { q with cqDead := true, stopped := true, lost := q.lost + 1 }).setSts .RING_STS [2] r
          |>.emit 15 0x20 0x0003 r n
      else
        let size := s.cqSize r n
        let s' := s.store (hostBase + s.cqBase r n + s.recBytes r n * (q.cqTail % size)) (s.recordBytes r n d q.phase x)
        let t := (q.cqTail + 1) % size
        s'.setRing r n { q with cqTail := t, phase := if t = 0 then !q.phase else q.phase,
                                irqDue := s.coalesce q.irqDue (s.flag .RING_SIZE_IRQ_EN r n) (s.fld .RING_SIZE_COAL_US r n) }
    let s2 := s1.setRing r n { s1.ring r n with descs := (s1.ring r n).descs.filter (fun e => e.uid != uid) }
    let s3 := s2.bumpWrap .RING_PERF_DONE_COUNT 1 r
    if bit d.flags 3 then s3.emit 15 0x20 0x0006 r (d.tag + n * 2 ^ 32 + x.status % 256 * 2 ^ 40) else s3

/-- A descriptor ends: its record is written when it holds a completion slot; otherwise the record waits for one (R176, R198). -/
def State.finish (s : State) (r n uid : Nat) (x : Rec) : State :=
  match s.descUid r n uid with
  | none => s
  | some d => if d.reserved then s.complete r n uid x else s.updDesc r n uid (fun d => { d with acted := true, result := d.result.or (some x) })

/-- A descriptor ends with a plain status. -/
def State.done (s : State) (r n uid status : Nat) : State := s.finish r n uid { status := status }

/-- Only an ACTIVE realm fetches, takes doorbells and runs work (R390). -/
def State.active (s : State) (r : Nat) : Bool := decide (r < 4) && (s.realm r).st == .active

/-! ### When the module acts, and who writes a register (R382, R418, R446, R450, R453, R457) -/

/-- The outcome of a command: this module has no stop of its own. -/
abbrev Res := Host.Outcome State Fault Refusal

/-- The die has power, is out of reset and is not frozen (R382, R446). -/
def State.up (s : State) : Bool := s.boot.powered && !s.boot.resetHeld && !s.flt.frozen

/-- The module takes work (R448 step 7). -/
def State.ready (s : State) : Bool := s.up && s.flag .GLB_STATE_READY

/-- Work is held at survival power and in TRIP (R491, R495). -/
def State.workHeld (s : State) : Bool := s.flag .THM_STATE_SURVIVAL || s.flag .THM_STATE_TRIP

/-- A change that needs a module that takes work and does not hold it. -/
def State.whenRunning (s : State) (f : State → State) : Res := .next (if s.ready && !s.workHeld then f s else s)

/-- A change that needs the die alone. -/
def State.whenUp (s : State) (f : State → State) : Res := .next (if s.up then f s else s)

/-- A change that needs a module that takes work. -/
def State.whenReady (s : State) (f : State → State) : Res := .next (if s.ready then f s else s)

/-- Does a block's page answer (R450, R451)? -/
def State.pageUp (s : State) (block : Nat) : Bool :=
  s.up && (block == 0 || s.flag .GLB_STATE_READY || (s.fld .GLB_STATE_STAGE == 5 && (block == 13 || block == 14))
    || (s.fld .GLB_STATE_STAGE == 6 && block == 12))

/-! Gates (R428): tile p by its number, cluster c by 256 + c, the video engine 512, the serving engine 513, the control ports 514. -/

def gVideo : Nat := 512
def gServing : Nat := 513
def gPorts : Nat := 514
def State.gated (s : State) (k : Nat) : Bool := s.boot.gates.contains k
def State.tileGated (s : State) (p : Nat) : Bool := s.gated p || s.gated (256 + p / 17) || (s.tile p).retired || (s.cluster (p / 17)).retired

/-- The page of a gated block, and of a retired tile, reads zeros and drops writes (R366, R428). -/
def State.blockGated (s : State) (block u : Nat) : Bool :=
  match block with
  | 5 => s.gated (256 + u)
  | 6 => s.tileGated u
  | 8 => s.gated gServing
  | 10 => s.gated gVideo
  | _ => false

def State.onBoot (s : State) (f : Boot → Boot) : State := { s with boot := f s.boot }

/-- A write through the management window to a page of firmware's waits as a register request (R457). -/
def State.request (s : State) (r : Reg) (u v : Nat) : State :=
  let s := s.onBoot (fun b => { b with requests := b.requests ++ [⟨r.block, r.off, u, v⟩] })
  s.setFld .GLB_STATE_REQ_PEND (satAt 255 s.boot.requests.length)

/-- A command bit of a page of firmware's: firmware's own write acts, one through the management window waits, a realm's is
dropped. -/
def State.fwCommand (s : State) (w : Win) (r : Reg) (u v : Nat) (f : State → State) : Res :=
  .next (if !s.pageUp r.block || s.blockGated r.block u then s else match w with
    | .fw => f s
    | .mgmt => s.request r u v
    | .realm _ => s)

/-- The register window of a realm that is not ABSENT answers (R453). -/
def State.windowOpen (s : State) (r : Nat) : Bool := decide (r < 4) && (s.realm r).st != .absent

/-- Does a realm own the tile behind a physical TIL_ page (R530)? -/
def State.ownsTile (s : State) (r p : Nat) : Bool := s.windowOpen r && (s.logTile p).bind s.tileRealm == some r

/-- A TIL_CMD bit of a physical tile: firmware's write and that of the realm that owns the tile act (R530). -/
def State.tileCommand (s : State) (w : Win) (p v : Nat) (f : State → State) : Res :=
  .next (if !s.pageUp 6 || s.blockGated 6 p || decide (153 ≤ p) then s else match w with
    | .fw => f s
    | .mgmt => s.request .TIL_CMD p v
    | .realm r => if s.ownsTile r p then f s else s)

/-- The mode word (R340). -/
def State.modeWord (s : State) (det : Bool) (mask : Nat) : Nat :=
  let c := ((List.range 8).find? (bit mask)).getD 0
  b2n det + 2 * s.fld .TIL_CVT_RND (s.physTile (16 * c)) + 4 * s.fld .TIL_CVT_OVF_SAT (s.physTile (16 * c)) + 8 * s.fld .KVM_CTRL_SCORE_EN
    + 16 * s.fld .CLU_CTRL_SPLIT_EN (s.physCluster c) + 256

/-- The mode word that a JOB starting now would enter, as DET_MODE_WORD and ATTEST give it (R340, R408). -/
def State.modeNow (s : State) : Nat := s.modeWord (s.flag .GLB_CFG_DET_MODE) 1

end Sys2Proof.Machine
end

