-- ==== Sys2Proof/Machine/FaultCore.lean ====
section
/-! DEFINITION. Reporting an error, health scores, module states, escalation of scope, retirement maps (R358-R377, R45, R46, R52). -/

namespace Sys2Proof.Machine

/-! ### Units -/

def sevCorrected : Nat := 1
def sevContained : Nat := 2
def sevDegraded : Nat := 3
def sevService : Nat := 4
def sevFatal : Nat := 5

/-- Unit kinds of FLT_UNIT_SEL. -/
def kTile : Nat := 0
def kCluster : Nat := 1
def kChannel : Nat := 2
def kCore : Nat := 3
def kModule : Nat := 4

def unitKey (kind index : Nat) : Nat := 256 * kind + index
def State.onFlt (s : State) (f : Flt → Flt) : State := { s with flt := f s.flt }
def State.unit (s : State) (k : Nat) : UnitRec := Tab.get (fun _ => {}) s.flt.units k
def State.setUnit (s : State) (k : Nat) (u : UnitRec) : State := s.onFlt (fun f => { f with units := Tab.set (fun _ => {}) k u f.units })

/-- The role epoch of a role (R377): it counts from 1. -/
def State.roleEpoch (s : State) (k : Nat) : Nat := Tab.get (fun _ => 1) s.flt.epochs k

/-- A change of role raises the epoch; 0xFFFF is followed by 1 (R377). -/
def State.bumpEpoch (s : State) (k : Nat) : State :=
  let e := s.roleEpoch k
  s.onFlt (fun f => { f with epochs := Tab.set (fun _ => 1) k (if e = 0xFFFF then 1 else e + 1) f.epochs })

def roleCluster (l : Nat) : Nat := 128 + l
def roleHalf (h : Nat) : Nat := 136 + h
def roleCore (n : Nat) : Nat := 138 + n

/-- The logical number of a physical tile or cluster, or the one it held before it retired. -/
def State.unitRole (s : State) (kind index : Nat) : Option Nat :=
  match kind with
  | 0 => (s.logTile index).or (s.tile index).was
  | 1 => (s.logCluster index).or (s.cluster index).was
  | _ => none

/-- The role epoch that an event about a unit carries (R360). -/
def State.unitEpoch (s : State) (kind index : Nat) : Nat :=
  match kind with
  | 0 => ((s.unitRole 0 index).map s.roleEpoch).getD 0
  | 1 => ((s.unitRole 1 index).map (fun l => s.roleEpoch (roleCluster l))).getD 0
  | 3 => s.roleEpoch (roleCore index)
  | _ => 0

/-- LOGICAL of a fault event (R360). -/
def State.unitLogical (s : State) (kind index : Nat) : Nat :=
  match kind with
  | 0 => (s.unitRole 0 index).getD 0xFF
  | 1 => (s.unitRole 1 index).getD 0xFF
  | _ => 0xFF

/-- The source number of the unit that detects an error (R360, R442). -/
def errSource (kind index cause : Nat) : Nat :=
  match kind with
  | 0 => 2 + index / 17
  | 1 => 2 + index
  | 2 => 14
  | 3 => 12
  | _ =>
    match cause with
    | 0x06 => 14
    | 0x07 => 14
    | 0x08 => 14
    | 0x0A => 11
    | 0x0B => 12
    | 0x0C => 15
    | 0x0D => 11
    | 0x10 => 0
    | 0x13 => 18
    | _ => 1

/-! ### Health (R372, R373) -/

/-- The unit whose own score an error changes: tiles and clusters have their own, the rest counts as the module's. -/
def scoreKey (kind index : Nat) : Nat := if kind = 0 ∨ kind = 1 then unitKey kind index else unitKey 4 0

def State.addScore (s : State) (k down up : Nat) : State :=
  s.setUnit k { s.unit k with score := min 1000 ((s.unit k).score - down + up) }

def State.tileRetired (s : State) (p : Nat) : Bool := (s.tile p).retired
def State.cluRetired (s : State) (c : Nat) : Bool := (s.cluster c).retired

/-- Physical tiles of a physical cluster that hold one of its 16 places. -/
def State.mappedTiles (s : State) (c : Nat) : List Nat :=
  (List.range 16).map (fun t => 17 * c + Tab.get (fun k => k % 16) s.tileMap (16 * c + t))

/-- P8.T15 and P8.T16 while a half of the enabled lane stands on them (R265, R287). -/
def State.laneSpare (s : State) (p : Nat) : Bool :=
  (p == 151 || p == 152) && s.flag .CTL_CTRL_LANE_EN && (s.fld .CTL_STATE_PLACE_A == 1 || s.fld .CTL_STATE_PLACE_B == 1)

/-- The cluster's tile spare: a tile that holds no place and is not retired (R366). -/
def State.spareTile (s : State) (c : Nat) : Option Nat :=
  ((List.range 17).map (17 * c + ·)).find? (fun p => !(s.mappedTiles c).contains p && !s.tileRetired p && !(s.tile p).retiring && !s.laneSpare p)

def State.tileScore (s : State) (p : Nat) : Nat := if s.tileRetired p then 0 else (s.unit (unitKey 0 p)).score

def minScore (l : List Nat) (a : Nat) : Nat := l.foldl min a

def State.cluScore (s : State) (c : Nat) : Nat :=
  if s.cluRetired c then 0
  else minScore (((s.mappedTiles c).filter (fun p => !s.tileRetired p)).map s.tileScore) (s.unit (unitKey 1 c)).score
    - (if (s.spareTile c).isNone then 150 else 0)

def State.spareCluUsed (s : State) : Bool := s.cluMap.contains 8 || s.cluRetired 8

def State.modScore (s : State) : Nat :=
  minScore (((List.range 8).filter (fun l => s.physCluster l < 9)).map (fun l => s.cluScore (s.physCluster l))) (s.unit (unitKey 4 0)).score
    - (if s.spareCluUsed then 150 else 0) - (if s.flag .FLT_SPARES_CHAN_USED then 100 else 0)

/-! ### Module states (R374, R376) -/

/-- The control lane runs on one half, and the lane is LOST (R283, R289): its bits of CTL_STATE. -/
def State.laneSimplex (s : State) : Bool := s.flag .CTL_STATE_SIMPLEX
def State.laneLost (s : State) : Bool := s.flag .CTL_STATE_LOST

/-- A rated capacity or function is lost (R374). -/
def State.lossNow (s : State) : Bool :=
  s.fld .FLT_SPARES_UNAVAIL != 0 || s.fld .FLT_SPARES_VID_RETIRED != 0 || s.flt.secondChan || s.laneSimplex
    || (s.flag .CTL_CTRL_LANE_EN && s.cluMap.contains 8)

def State.dwell (s : State) : Nat := s.fld .FLT_POLICY_DWELL * 3200000000

def State.mpRecent (s : State) : Bool := match s.flt.mpError with
  | some t => decide (s.gauge < t + s.dwell)
  | none => false

/-- Does a SERVICE error stand (R374)? -/
def State.serviceNow (s : State) : Bool := s.laneLost || s.mpRecent

def Latch.step (l : Latch) (enter leave : Bool) (now : Nat) : Latch :=
  if enter then { on := true, okSince := if leave then some (l.okSince.getD now) else none }
  else if l.on && leave then { l with okSince := some (l.okSince.getD now) }
  else { l with okSince := none }

/-- The state that the latched conditions report: the lowest row of R374. -/
def Flt.report (f : Flt) : Nat :=
  if f.failed then 4 else if f.service.on then 3 else if f.degraded.on then 2 else if f.worn.on then 1 else 0

/-- Conditions of R374 as they stand now. -/
def State.latchNow (s : State) : State :=
  let sc := s.modScore
  let g := s.gauge
  s.onFlt (fun f => { f with
    worn := f.worn.step (decide (sc < 600)) (decide (650 ≤ sc)) g
    degraded := f.degraded.step s.lossNow (!s.lossNow) g
    service := f.service.step (decide (sc < 200) || s.serviceNow) (decide (300 ≤ sc) && !s.serviceNow) g })

/-- The payload of a fault event (R360). -/
def faultPayload (kind index scope : Nat) (esc ret : Bool) (logical detail epoch : Nat) : Nat :=
  index % 256 + kind % 8 * 2 ^ 8 + scope % 4 * 2 ^ 16 + b2n esc * 2 ^ 18 + b2n ret * 2 ^ 19 + logical % 256 * 2 ^ 24
    + detail % 2 ^ 32 * 2 ^ 32 + epoch % 2 ^ 16 * 2 ^ 64

/-- Realms whose event ring is enabled. -/
def State.evRealms (s : State) : List Nat := (List.range 4).filter (fun r => s.flag .RING_EQ_CFG_ENABLE r)

/-- One record to each realm, one to firmware alone when there is none (R360). -/
def State.emitTo (s : State) (realms : List Nat) (src cls code payload : Nat) : State :=
  (if realms.isEmpty then [mgmtRealm] else realms).foldl (fun s r => s.emit src cls code r payload) s

/-- Logical tiles that serving can use (FLT_STATE.CAP_SHARE). -/
def State.capTiles (s : State) : Nat :=
  ((List.range 128).filter (fun lt => decide (s.physCluster (lt / 16) < 9) && !s.tileRetired (s.physTile lt) && !s.laneHolds lt)).length

/-- FLT_STATE and the derived fields of FLT_SPARES follow the fault block. -/
def State.fltShow (s : State) : State :=
  let s := ((s.setFld .FLT_STATE_STATE s.flt.state).setFld .FLT_STATE_SCORE s.modScore).setFld .FLT_STATE_CAP_SHARE (2 * s.capTiles)
  let s := (s.setFld .FLT_STATE_HANDLING ((s.flt.cur.head?.map ErrRec.sev).getD 0)).setFld .FLT_STATE_QUEUED (satAt 15 s.flt.queue.length)
  (s.setFld .FLT_SPARES_TILE_USED (((List.range 9).filter (fun c => (s.spareTile c).isNone || s.cluRetired c)).map (2 ^ ·)).sum).setFld .FLT_SPARES_CLU_USED (b2n s.spareCluUsed)

def State.onPwr (s : State) (f : Pwr → Pwr) : State := { s with pwr := f s.pwr }

/-- MOD_ALERT_N follows the module state and the power state (R471): pin 0 of the messages, low while asserted. -/
def State.modAlert (s : State) : State :=
  let on := decide (3 ≤ s.fld .FLT_STATE_STATE) || decide (2 ≤ s.fld .PWR_STATE_STATE)
  if on = s.pwr.alert then s else (s.onPwr (fun p => { p with alert := on })).send (.pin 0 (!on))

/-- The reported state follows the conditions; a change is reported (R374, R376). -/
def State.evalState (s : State) : State :=
  let s := s.latchNow
  let n := s.flt.report
  if n = s.flt.state then s.fltShow.modAlert
  else
    let s := (s.onFlt (fun f => { f with state := n })).fltShow.modAlert
    let cls := if n ≤ 1 then 1 else n + 1
    -- R376: a copy for each realm with an event ring, and one to firmware
    let s := (s.evRealms ++ [mgmtRealm]).foldl (fun s r => s.emit 1 cls 0x0012 r (faultPayload 4 0 3 false false 0xFF 0 0)) s
    s.setSts .FLT_STS [7]

/-! ### Reporting (R358-R360, R372) -/

/-- What FATAL does (R365): no ring fetches, no record is written, the state is FAILED, an armed module freezes. -/
def State.freezeArmed (s : State) : Bool := decide (s.fld .SEC_STATE_DEBUG ≠ 0)

/-- A message enters the Stave send queue of 16; when it is full the newest is dropped (R439). -/
def State.onStave (s : State) (f : Stave → Stave) : State := { s with stave := f s.stave }

def State.stvSend (s : State) (dest kind mflags : Nat) (payload : List Nat) : State :=
  if 16 ≤ s.stave.tx.length then s.setSts .STV_STS [7]
  else s.onStave (fun v => { v with tx := v.tx ++ [⟨dest, s.fld .STV_STATE_ADDR, kind, mflags, payload⟩] })

/-- The STATE message (R439): module state, Gauge state and serial number (log entry 20 for the places of its fields). -/
def State.stvState (s : State) : State :=
  s.stvSend 0xFF 1 8 ([if s.flt.failed then 4 else s.flt.state, s.fld .GAU_STATE_STATE] ++ leBytes 4 (s.word .GLB_SERIAL_LO).toNat ++ leBytes 4 (s.word .GLB_SERIAL_HI).toNat)

/-- A freeze trigger (R381): it acts on an armed module, which enters BYPASS; otherwise it is counted and reported (R404). -/
def State.freeze (s : State) (trigger : Nat) : State :=
  if s.freezeArmed then (s.onFlt (fun f => { f with frozen := true })).setFld .STV_STATE_ATTACH 0
  else (s.setSts .SEC_STS [3]).emit 0 0x70 5 mgmtRealm trigger

def State.fatal (s : State) : State :=
  if s.flt.failed then s
  else
    let s := s.onFlt (fun f => { f with failed := true })
    -- R451: before READY the start has failed
    let s := if s.flag .GLB_STATE_READY then s else s.setFld .GLB_STATE_STAGE 6
    let s := s.stvState
    if s.flag .FLT_CTRL_FREEZE_ON_FATAL then s.freeze 2 else s

/-- Report an error: FLT_STS, one event for each realm, the counters, and the detecting unit's own score. -/
def State.report (s : State) (sev cause kind index scope : Nat) (realms : List Nat) (detail : Nat) (esc : Bool := false)
    (ret : Bool := false) (from_ : Option Nat := none) : State :=
  let src := from_.getD (errSource kind index cause)
  let s := s.emitTo realms src sev cause (faultPayload kind index scope esc ret (s.unitLogical kind index) detail (s.unitEpoch kind index))
  let s := s.setSts .FLT_STS ([sev - 1] ++ (if esc then [5] else []) ++ (if ret then [6] else []))
  let s := if sev = 1 then s.bumpWrap .FLT_PERF_CE_COUNT 1 else if sev = 2 then s.bumpWrap .FLT_PERF_CONTAINED_COUNT 1 else s
  let own := unitKey kind index
  let k := scoreKey kind index
  let s :=
    if cause = 0x0012 then s
    else if sev = 1 then
      let s := s.setUnit own { s.unit own with ceHour := (s.unit own).ceHour + 1 }
      let u := s.unit k
      let d := if u.ceLoss < 20 then 2 else 0
      s.setUnit k { u with score := u.score - d, ceLoss := u.ceLoss + d }
    else if sev = 2 then
      let u := s.unit own
      let s := s.setUnit own { u with contained := u.contained + 1, capture := Nat.lor u.capture (2 ^ cause) }
      s.setUnit k { s.unit k with score := (s.unit k).score - 100, lastContained := some s.gauge }
    else s
  let s := if 4 ≤ sev then { s with sec := { s.sec with trouble := true } } else s
  let s := if sev = 5 then s.fatal else s
  s.evalState

/-! ### Containment (R361-R363) -/

def scopeKey (scope index : Nat) : Nat := if scope = 0 then index else 256 + index

/-- A handling of that scope in progress or queued, or ended less than WINDOW ago (R362). -/
def State.recentHandling (s : State) (scope index : Nat) : Bool :=
  let same := fun (e : ErrRec) => if scope = 0 then e.scope == 0 && e.index == index && e.kind == 0
    else decide (1 ≤ e.scope) && decide (e.scope ≤ 2) && (if e.kind = 0 then e.index / 17 else e.index) == index
  (s.flt.cur ++ s.flt.queue).any same
    || (match Tab.find (scopeKey scope index) s.flt.ended with
        | some t => decide (s.gauge < t + s.fld .FLT_ESC_WINDOW * 320000000)
        | none => false)

/-- Realms that own tiles of a physical cluster. -/
def State.cluRealms (s : State) (c : Nat) : List Nat :=
  match s.logCluster c with
  | none => []
  | some l => (List.range 4).filter (fun r => (s.realm r).st != .absent && bits (s.realm r).groups (4 * l) 4 != 0)

/-- The scope at which an error of a base scope is handled (R362). -/
def State.widen (s : State) (base : Nat) (p c : Nat) : Nat :=
  let s1 := if base = 0 ∧ s.recentHandling 0 p then 1 else base
  if s1 = 1 ∧ s.recentHandling 1 c then 2 else s1

/-- A CONTAINED error on a physical tile or cluster: the tile enters FAULT, the error is reported and queued for firmware. -/
def State.contain (s : State) (cause kind index base detail : Nat) (exhaust : Bool := false) : State :=
  let c := if kind = 0 then index / 17 else index
  let scope := s.widen base index c
  let realms := if scope = 0 then ((s.logTile index).bind s.tileRealm).toList else s.cluRealms c
  let logical := s.unitLogical kind index
  let s := if kind = 0 ∧ !(s.tile index).retired then s.setTile index { s.tile index with st := .fault } else s
  let s := s.report 2 cause kind index scope realms detail (decide (base < scope))
  s.onFlt (fun f => { f with queue := f.queue ++ [{ sev := 2, cause := cause, kind := kind, index := index, logical := logical,
                                                     scope := scope, esc := decide (base < scope), detail := detail, exhaust := exhaust }] })

/-- An error without a scope of tiles or clusters (an access outside a realm, a page-map entry, a queue word, a host link): reported,
and queued for firmware to read; `from_` is the source when the cause does not tell it. -/
def State.reportMod (s : State) (sev cause : Nat) (realms : List Nat) (detail : Nat) (from_ : Option Nat := none) : State :=
  let s := s.report sev cause 4 0 3 realms detail (from_ := from_)
  s.onFlt (fun f => { f with queue := f.queue ++ [{ sev := sev, cause := cause, kind := 4, index := 0, scope := 3, detail := detail }] })

/-! ### ECC captures of a tile (R45, R46) -/

/-- Corrected errors of a tile's store (R45). -/
def State.tileCe (s : State) (p n : Nat) : State :=
  if n = 0 then s
  else
    let s := s.bumpSat .TIL_ECC_CNT_CE_COUNT n p
    let s := s.setSts .TIL_STS [3] p
    s.report 1 0x0001 0 p 0 ((s.logTile p).bind s.tileRealm).toList n

end Sys2Proof.Machine
end

