-- ==== Sys2Proof/Machine/Float.lean ====
section
/-! DEFINITION. Number formats, the single rounding, and the FP32 operations of the vector unit (R15, R16, R29-R38, R518, R519). -/

namespace Sys2Proof.Machine

/-- An exact value on the way to its one rounding: NaN, an infinity, or (−1)^neg · m · 2^e. -/
inductive XV where
  | nan
  | inf (neg : Bool)
  | num (neg : Bool) (m : Nat) (e : Int)
  deriving DecidableEq, Repr

/-- How a format spends its largest exponent (R15): IEEE infinities and NaNs, one NaN code (E4M3), or neither. -/
inductive FmtKind where
  | ieee | oneNan | finite
  deriving DecidableEq, Repr

/-- A floating-point format of R15; `maxCode` is the magnitude code of its largest finite value. -/
structure Fmt where
  expBits : Nat
  manBits : Nat
  bias : Int
  maxCode : Nat
  kind : FmtKind
  deriving DecidableEq, Repr

def fmtE4M3 : Fmt := ⟨4, 3, 7, 0x7E, .oneNan⟩
def fmtE5M2 : Fmt := ⟨5, 2, 15, 0x7B, .ieee⟩
def fmtE3M2 : Fmt := ⟨3, 2, 3, 0x1F, .finite⟩
def fmtE2M3 : Fmt := ⟨2, 3, 1, 0x1F, .finite⟩
def fmtE2M1 : Fmt := ⟨2, 1, 1, 0x7, .finite⟩
def fmtBF16 : Fmt := ⟨8, 7, 127, 0x7F7F, .ieee⟩
def fmtFP16 : Fmt := ⟨5, 10, 15, 0x7BFF, .ieee⟩
def fmtFP32 : Fmt := ⟨8, 23, 127, 0x7F7FFFFF, .ieee⟩

/-- Bits of a code without its sign. -/
def Fmt.magBits (f : Fmt) : Nat := f.expBits + f.manBits

/-- Exponent of the smallest subnormal (the element grid q of the MX window). -/
def Fmt.grid (f : Fmt) : Int := 1 - f.bias - f.manBits

/-- The value of a code (R15). -/
def Fmt.decode (f : Fmt) (code : Nat) : XV :=
  let neg := bit code f.magBits
  let e := bits code f.manBits f.expBits
  let m := bits code 0 f.manBits
  let mag := bits code 0 f.magBits
  if f.kind = .ieee ∧ e = 2 ^ f.expBits - 1 then
    if m = 0 then .inf neg else .nan
  else if f.kind = .oneNan ∧ mag = 2 ^ f.magBits - 1 then .nan
  else if e = 0 then .num neg m f.grid
  else .num neg (2 ^ f.manBits + m) (f.grid + ((e : Int) - 1))

/-- The rounding mode of a conversion: nearest even, or stochastic with 16 random bits (R34). -/
inductive Rnd where
  | rne
  | sto (r : Nat)
  deriving DecidableEq, Repr

/-- |x| = m · 2^e rounded to a whole number of 2^g (R29, R34). -/
def roundAt (rnd : Rnd) (m : Nat) (e g : Int) : Nat :=
  if g ≤ e then m * 2 ^ (e - g).toNat
  else
    let d := (g - e).toNat
    let q := m / 2 ^ d
    let r := m % 2 ^ d
    match rnd with
    | .rne => if 2 * r > 2 ^ d ∨ (2 * r = 2 ^ d ∧ q % 2 = 1) then q + 1 else q
    | .sto k => if k < r * 65536 / 2 ^ d then q + 1 else q

/-- floor(log2 (m · 2^e)) for m ≠ 0. -/
def ilog2 (m : Nat) (e : Int) : Int := (m.log2 : Nat) + e

/-- The magnitude code a value rounds to with the exponent range unbounded above; a code beyond
`maxCode` is an overflow. -/
def Fmt.roundMag (f : Fmt) (rnd : Rnd) (m : Nat) (e : Int) : Nat :=
  if m = 0 then 0
  else
    let emin := f.grid + (f.manBits : Nat)
    let x := max (ilog2 m e) emin
    (x - emin).toNat * 2 ^ f.manBits + roundAt rnd m e (x - (f.manBits : Nat))

/-- What a conversion reports: TIL_STS.NAN_OUT and TIL_STS.CVT_OVF. -/
structure CvtFlags where
  nan : Bool := false
  ovf : Bool := false
  deriving DecidableEq, Repr

def CvtFlags.or (a b : CvtFlags) : CvtFlags := ⟨a.nan || b.nan, a.ovf || b.ovf⟩

/-- The canonical NaN code (R30). -/
def Fmt.nanCode (f : Fmt) : Nat :=
  match f.kind with
  | .ieee => (2 ^ f.expBits - 1) * 2 ^ f.manBits + 2 ^ (f.manBits - 1)
  | .oneNan => 2 ^ f.magBits - 1
  | .finite => 0

/-- A magnitude code with its sign. -/
def Fmt.signed (f : Fmt) (neg : Bool) (mag : Nat) : Nat := b2n neg * 2 ^ f.magBits + mag

/-- An overflow of the sign given, by R30: the largest finite value, or the infinity, or E4M3's NaN of that sign. -/
def Fmt.overflow (f : Fmt) (ovfSat neg : Bool) : Nat × CvtFlags :=
  if ovfSat || f.kind = .finite then (f.signed neg f.maxCode, ⟨false, true⟩)
  else match f.kind with
    | .oneNan => (f.signed neg f.nanCode, ⟨true, true⟩)
    | _ => (f.signed neg (f.maxCode + 1), ⟨false, true⟩)

/-- The drain's conversion to a float format (R29, R30). -/
def Fmt.encode (f : Fmt) (rnd : Rnd) (ovfSat : Bool) : XV → Nat × CvtFlags
  | .nan => (f.nanCode, ⟨true, false⟩)
  | .inf neg => f.overflow ovfSat neg
  | .num neg m e =>
    let c := f.roundMag rnd m e
    if c > f.maxCode then f.overflow ovfSat neg else (f.signed neg c, {})

/-- An exact signed integer times a power of two. -/
def XV.ofInt (i : Int) (e : Int) : XV := .num (i < 0) i.natAbs e

/-- The value counted in units of 2^g; exact when the value lies on that grid. -/
def unitsOf (neg : Bool) (m : Nat) (e g : Int) : Int :=
  let u : Int := if g ≤ e then (m * 2 ^ (e - g).toNat : Nat) else (m / 2 ^ (g - e).toNat : Nat)
  if neg then -u else u

def XV.isNeg : XV → Bool
  | .nan => false
  | .inf n => n
  | .num n _ _ => n

def XV.isZero : XV → Bool
  | .num _ m _ => m == 0
  | _ => false

def XV.neg : XV → XV
  | .nan => .nan
  | .inf n => .inf (!n)
  | .num n m e => .num (!n) m e

def XV.abs : XV → XV
  | .nan => .nan
  | .inf _ => .inf false
  | .num _ m e => .num false m e

/-- Exact product, with 0 × ∞ a NaN (R22). -/
def XV.mul : XV → XV → XV
  | .nan, _ => .nan
  | _, .nan => .nan
  | .inf a, .inf b => .inf (a != b)
  | .inf a, .num b m _ => if m = 0 then .nan else .inf (a != b)
  | .num a m _, .inf b => if m = 0 then .nan else .inf (a != b)
  | .num a m e, .num b n f => .num (a != b) (m * n) (e + f)

/-- Exact sum, with the IEEE sign of a zero result under round to nearest. -/
def XV.add : XV → XV → XV
  | .nan, _ => .nan
  | _, .nan => .nan
  | .inf a, .inf b => if a = b then .inf a else .nan
  | .inf a, .num _ _ _ => .inf a
  | .num _ _ _, .inf b => .inf b
  | .num a m e, .num b n f =>
    let g := min e f
    let s := unitsOf a m e g + unitsOf b n f g
    if s = 0 then .num (a && b) 0 g else .ofInt s g

/-- x · 2^k. -/
def XV.scale (k : Int) : XV → XV
  | .num n m e => .num n m (e + k)
  | x => x

/-- Order of two values that are not NaN, −0 and +0 equal. -/
def XV.lt : XV → XV → Bool
  | .nan, _ => false
  | _, .nan => false
  | .inf a, .inf b => a && !b
  | .inf a, .num _ _ _ => a
  | .num _ _ _, .inf b => !b
  | .num a m e, .num b n f =>
    let g := min e f
    decide (unitsOf a m e g < unitsOf b n f g)

/-! ### FP32 results of the vector unit -/

/-- The canonical quiet NaN of R37. -/
def f32Nan : Nat := 0x7FC00000
def f32One : Nat := 0x3F800000

/-- An FP32 code of an exact value: nearest even, overflow to infinity, subnormals kept (R27, R29). -/
def f32Keep (x : XV) : Nat := (fmtFP32.encode .rne false x).1

/-- An FP32 code of an exact value, with the flush of R36. -/
def f32Of (x : XV) : Nat :=
  match x with
  | .num neg m e =>
    if m = 0 then fmtFP32.signed neg 0
    else
      let x0 := ilog2 m e
      let q := roundAt .rne m e (x0 - 23)
      if x0 < -126 ∧ ¬ (x0 = -127 ∧ q = 2 ^ 24) then fmtFP32.signed neg 0
      else f32Keep (.num neg q (x0 - 23))
  | x => f32Keep x

def f32V (c : Nat) : XV := fmtFP32.decode c

def f32Add (a b : Nat) : Nat := f32Of ((f32V a).add (f32V b))
def f32Sub (a b : Nat) : Nat := f32Of ((f32V a).add (f32V b).neg)
def f32Mul (a b : Nat) : Nat := f32Of ((f32V a).mul (f32V b))
/-- Fused multiply-add: one rounding (R35). -/
def f32Fma (a b c : Nat) : Nat := f32Of (((f32V a).mul (f32V b)).add (f32V c))

/-- A truncated magnitude with a sticky bit, for results that are not exact dyadics. -/
def stickyOf (neg : Bool) (q : Nat) (e : Int) (inexact : Bool) : XV := .num neg (2 * q + b2n inexact) (e - 1)

/-- Quotient of two values to enough bits for one correct rounding (R35). -/
def XV.div : XV → XV → XV
  | .nan, _ => .nan
  | _, .nan => .nan
  | .inf _, .inf _ => .nan
  | .inf a, .num b _ _ => .inf (a != b)
  | .num a _ _, .inf b => .num (a != b) 0 0
  | .num a m e, .num b n f =>
    if n = 0 then (if m = 0 then .nan else .inf (a != b))
    else
      let k := 64 + n.log2
      let q := m * 2 ^ k / n
      stickyOf (a != b) q (e - f - (k : Nat)) (m * 2 ^ k % n != 0)

def f32Div (a b : Nat) : Nat := f32Of ((f32V a).div (f32V b))
def f32Rcp (a : Nat) : Nat := f32Div f32One a

/-- Integer square root, one result bit a round. -/
def isqrtAux : Nat → Nat → Nat → Nat
  | 0, _, r => r
  | k + 1, n, r =>
    let t := r + 2 ^ k
    isqrtAux k n (if t * t ≤ n then t else r)

def isqrt (n : Nat) : Nat := isqrtAux (n.log2 / 2 + 1) n 0

/-- Square root (R38). -/
def XV.sqrt : XV → XV
  | .nan => .nan
  | .inf n => if n then .nan else .inf false
  | .num neg m e =>
    if m = 0 then .num neg 0 0
    else if neg then .nan
    else
      let k := 64 + (e % 2).toNat
      let n := m * 2 ^ k
      let r := isqrt n
      stickyOf false r ((e - (k : Nat)) / 2) (r * r != n)

def f32Sqrt (a : Nat) : Nat := f32Of (f32V a).sqrt

/-- Reciprocal square root (R38). -/
def XV.rsqrt : XV → XV
  | .nan => .nan
  | .inf n => if n then .nan else .num false 0 0
  | .num neg m e =>
    if m = 0 then .inf neg
    else if neg then .nan
    else
      -- 1 / sqrt (m · 2^e) = sqrt (2^k / m) · 2^(-(e + k) / 2), with e + k even
      let k0 := 2 * m.log2 + 130
      let k := k0 + ((e + (k0 : Nat)) % 2).toNat
      let n := 2 ^ k
      let r := isqrt (n / m)
      stickyOf false r (-((e + (k : Nat)) / 2)) (r * r * m != n)

def f32Rsqrt (a : Nat) : Nat := f32Of (f32V a).rsqrt

/-- Fixed-point precision of the two transcendental functions. -/
def txBits : Nat := 192

/-- Terms of ln 2 = Σ 1 / (k · 2^k), in units of 2^-txBits. -/
def ln2Aux : Nat → Nat
  | 0 => 0
  | k + 1 => ln2Aux k + 2 ^ txBits / ((k + 1) * 2 ^ (k + 1))

def ln2Fix : Nat := ln2Aux 200

/-- Σ y^k / k! from the term t of index k. -/
def expAux : Nat → Nat → Nat → Nat → Nat → Nat
  | 0, _, _, _, acc => acc
  | fuel + 1, k, y, t, acc =>
    let t' := t * y / 2 ^ txBits / k
    expAux fuel (k + 1) y t' (acc + t')

/-- 2^f for 0 ≤ f < 1, f in units of 2^-txBits. -/
def exp2Frac (f : Nat) : Nat := expAux 60 1 (f * ln2Fix / 2 ^ txBits) (2 ^ txBits) (2 ^ txBits)

/-- 2^x (R35, R38). The result of a fraction is irrational, so the sticky bit is always set for it.
UNVERIFIED: the 192 fixed-point bits are taken to decide every rounding of a 24-bit argument. -/
def XV.exp2 : XV → XV
  | .nan => .nan
  | .inf n => if n then .num false 0 0 else .inf false
  | .num neg m e =>
    if m = 0 then .num false 1 0
    else if ilog2 m e ≥ 9 then (if neg then .num false 0 0 else .inf false)
    else
      let u := unitsOf neg m e (-(txBits : Nat))
      let n := u / (2 ^ txBits : Nat)
      let f := (u % (2 ^ txBits : Nat)).toNat
      -- an argument finer than the fixed point is not zero: it only moves the sticky bit
      if f = 0 ∧ -(txBits : Nat) ≤ e then .num false 1 n
      else stickyOf false (exp2Frac f) (n - (txBits : Nat)) true

def f32Exp2 (a : Nat) : Nat := f32Of (f32V a).exp2

/-- Σ z^(2k+1) / (2k+1), with z2 = z². -/
def atanhAux : Nat → Nat → Nat → Nat → Nat → Nat
  | 0, _, _, _, acc => acc
  | fuel + 1, k, z2, t, acc =>
    let t' := t * z2 / 2 ^ txBits
    atanhAux fuel (k + 2) z2 t' (acc + t' / k)

/-- log2 (x) for x = n / d with n ≥ d and n < 2 d, in units of 2^-txBits: 2 · atanh((n − d)/(n + d)) / ln 2. -/
def log2Frac (n d : Nat) : Nat :=
  let z := (n - d) * 2 ^ txBits / (n + d)
  2 * atanhAux 70 3 (z * z / 2 ^ txBits) z z * 2 ^ txBits / ln2Fix

/-- log2 x (R35, R38). A power of two is exact; any other result is irrational.
UNVERIFIED: the 192 fixed-point bits are taken to decide every rounding. -/
def XV.log2v : XV → XV
  | .nan => .nan
  | .inf n => if n then .nan else .inf false
  | .num neg m e =>
    if m = 0 then .inf true
    else if neg then .nan
    else
      let x := ilog2 m e
      let p := 2 ^ m.log2
      if m = p then .ofInt x 0
      else
        -- m / p in (1, 2); above sqrt 2 the logarithm is taken of m / (2 p), so that no cancellation occurs
        if m * m ≤ 2 * p * p then
          let u : Int := x * (2 ^ txBits : Nat) + (log2Frac m p : Nat)
          stickyOf (u < 0) (if u < 0 then (u.natAbs - 1) else u.natAbs) (-(txBits : Nat)) true
        else
          let u : Int := (x + 1) * (2 ^ txBits : Nat) - (log2Frac (2 * p) m : Nat)
          stickyOf (u < 0) (if u < 0 then u.natAbs else (u.natAbs - 1)) (-(txBits : Nat)) true

def f32Log2 (a : Nat) : Nat := f32Of (f32V a).log2v

/-- The FP32 constant of log2 e (R38). -/
def f32Log2e : Nat := 0x3FB8AA3B

def f32IsNan (a : Nat) : Bool := f32V a == .nan

/-- A total order of FP32 codes that are not NaN, −0 below +0 (R37). -/
def f32Ord (a : Nat) : Int := if bit a 31 then -((bits a 0 31 : Nat) : Int) - 1 else (bits a 0 31 : Nat)

def f32Max (a b : Nat) : Nat := if f32IsNan a || f32IsNan b then f32Nan else if f32Ord a < f32Ord b then b else a
def f32Min (a b : Nat) : Nat := if f32IsNan a || f32IsNan b then f32Nan else if f32Ord b < f32Ord a then b else a
def f32Lt (a b : Nat) : Bool := (f32V a).lt (f32V b)
def f32Neg (a : Nat) : Nat := if bit a 31 then a - 2 ^ 31 else a + 2 ^ 31
def f32OfInt (i : Int) : Nat := f32Of (.ofInt i 0)
def f32OfNat (n : Nat) : Nat := f32Of (.num false n 0)

/-- The positive and negative infinities. -/
def f32Inf : Nat := 0x7F800000
def f32NegInf : Nat := 0xFF800000

/-- One level of the fixed tree of R519. -/
def treeLevel {α : Type} (op : α → α → α) : List α → List α
  | a :: b :: rest => op a b :: treeLevel op rest
  | l => l

def treeAux {α : Type} (op : α → α → α) : Nat → List α → List α
  | 0, l => l
  | k + 1, l => treeAux op k (treeLevel op l)

/-- The fixed-tree reduction of R519; `z` is the value of an empty list. -/
def treeReduce {α : Type} (op : α → α → α) (z : α) (l : List α) : α :=
  (treeAux op (l.length.log2 + 1) l).headD z

def f32Sum (l : List Nat) : Nat := treeReduce f32Add 0 l

/-! ### Integer outputs -/

/-- The range of an integer format: signed or not, and its bits. -/
structure IntFmt where
  signed : Bool
  width : Nat
  deriving DecidableEq, Repr

def IntFmt.lo (f : IntFmt) : Int := if f.signed then -(2 ^ (f.width - 1) : Nat) else 0
def IntFmt.hi (f : IntFmt) : Int := if f.signed then (2 ^ (f.width - 1) : Nat) - 1 else (2 ^ f.width : Nat) - 1

/-- A value clamped to an integer format, with the mark of a clamp. -/
def IntFmt.clamp (f : IntFmt) (i : Int) : Int × Bool :=
  if i < f.lo then (f.lo, true) else if f.hi < i then (f.hi, true) else (i, false)

def IntFmt.code (f : IntFmt) (i : Int) : Nat := ofSigned f.width i

/-- A signed number m · 2^e rounded to an integer. -/
def roundInt (rnd : Rnd) (neg : Bool) (m : Nat) (e : Int) : Int :=
  let q : Int := (roundAt rnd m e 0 : Nat)
  if neg then -q else q

/-- The conversion of R32 from an exact value already biased, and R518 for NaN and the infinities. -/
def IntFmt.encode (f : IntFmt) (rnd : Rnd) (mult : Int) (shift : Nat) (zp : Int) : XV → Nat × CvtFlags
  | .nan => (0, ⟨true, true⟩)
  | .inf neg => (f.code (if neg then f.lo else f.hi), ⟨false, true⟩)
  | .num neg m e =>
    let r := roundInt rnd (neg != decide (mult < 0)) (m * mult.natAbs) (e - (shift : Nat))
    let c := f.clamp (r + zp)
    (f.code c.1, ⟨false, c.2⟩)

/-- The vector unit's conversion to an integer (R518): nearest even, then the clamp. -/
def IntFmt.ofF32 (f : IntFmt) (a : Nat) : Nat × CvtFlags := f.encode .rne 1 0 0 (f32V a)

end Sys2Proof.Machine
end

