-- ==== Sys2Proof/Machine/Operands.lean ====
section
/-! DEFINITION. Every operand form of an operator: element formats (R57), index stream descriptors and their checks (R57-R63, R520),
walks (R62, R526), the page-map walk (R140-R147), window descriptors (R86-R89), and the reading of rows with their poison marks (R46). -/

namespace Sys2Proof.Machine

/-! ### Element codes (R57) -/

def elemBits (e : Nat) : Nat :=
  if e = 2 ∨ e = 3 ∨ e = 10 then 4
  else if e = 8 ∨ e = 9 then 6
  else if e ≤ 7 then 8
  else if e = 11 ∨ e = 12 ∨ e = 16 ∨ e = 17 then 16
  else if e = 13 ∨ e = 14 ∨ e = 15 then 32
  else 64

def elemIsMx (e : Nat) : Bool := decide (6 ≤ e) && decide (e ≤ 10)
def elemIsFp8 (e : Nat) : Bool := e == 4 || e == 5

/-- The float format of an element code, MX elements included. -/
def elemFmt : Nat → Option Fmt
  | 4 => some fmtE4M3
  | 5 => some fmtE5M2
  | 6 => some fmtE4M3
  | 7 => some fmtE5M2
  | 8 => some fmtE3M2
  | 9 => some fmtE2M3
  | 10 => some fmtE2M1
  | 11 => some fmtBF16
  | 12 => some fmtFP16
  | 13 => some fmtFP32
  | _ => none

/-- The integer format of an element code. -/
def elemInt : Nat → Option IntFmt
  | 0 => some ⟨true, 8⟩
  | 1 => some ⟨false, 8⟩
  | 2 => some ⟨true, 4⟩
  | 3 => some ⟨false, 4⟩
  | 14 => some ⟨true, 32⟩
  | 15 => some ⟨false, 32⟩
  | 16 => some ⟨true, 16⟩
  | 17 => some ⟨false, 16⟩
  | 18 => some ⟨true, 64⟩
  | 19 => some ⟨false, 64⟩
  | _ => none

/-- The value of an element's code (R15); an MX element without its scale. -/
def elemVal (e code : Nat) : XV :=
  match elemFmt e, elemInt e with
  | some f, _ => f.decode code
  | none, some i => .ofInt (if i.signed then toSigned i.width code else (code : Int)) 0
  | none, none => .num false 0 0

/-- Elements packed little-endian, the lower index in the lower bits (R16). -/
def unpack (eb n : Nat) (bs : List Nat) : List Nat :=
  let v := leNum bs
  (List.range n).map (fun i => bits v (i * eb) eb)

def packCodes (eb : Nat) (cs : List Nat) : List Nat :=
  leBytes (ceilDiv (cs.length * eb) 8) (cs.zipIdx.foldl (fun a e => a + e.1 % 2 ^ eb * 2 ^ (e.2 * eb)) 0)

/-! ### Where an operator runs -/

/-- What an operator reads besides its parameter block: its realm, its physical cluster and tile, and the settings sampled at
its start (R50, R329). -/
structure OpCtx where
  realm : Nat
  clu : Nat
  tile : Nat
  seed : Nat
  stream : Nat
  stochastic : Bool
  ovfSat : Bool
  det : Bool
  env : OpEnv
  deriving DecidableEq, Repr

/-- Every byte of a range lies in one of the regions. -/
def coveredBy : Nat → List (Nat × Nat) → Nat → Nat → Bool
  | 0, _, a, b => decide (b ≤ a)
  | k + 1, rs, a, b =>
    if b ≤ a then true
    else match rs.find? (fun x => decide (x.1 ≤ a) && decide (a < x.1 + x.2)) with
      | some x => coveredBy k rs (x.1 + x.2) b
      | none => false

/-- Does a range of LPDDR5 lie in a realm's regions (R391, R393)? -/
def State.inRegions (s : State) (r a n : Nat) : Bool :=
  coveredBy 9 ((s.realm r).regions.map (fun x => (x.1 * 2 ^ 26, x.2 * 2 ^ 26))) a (a + n)

/-- Ranges of a cluster store outside the realm part: line buffers, scratch, and the lane partition (R391). -/
def State.cluReserved (s : State) (c : Nat) : List (Nat × Nat) :=
  [(s.fld .CLU_LB_BASE_BASE c * 4096, s.fld .CLU_LB_SIZE_SIZE c * 4096),
   (s.fld .CLU_S2D_SCRATCH_BASE c * 4096, s.fld .CLU_S2D_SCRATCH_SIZE c * 4096)]
  ++ ((s.laneParts.filter (fun x => x.1 == c)).map (fun x => (x.2, 2 ^ 20)))

/-- Does a range of a cluster store lie in the realm part of a cluster that the realm owns (R391)? -/
def State.inCluster (s : State) (r c off n : Nat) : Bool :=
  (s.logCluster c).bind s.clusterRealm == some r && decide (off + n ≤ 2 ^ 24)
    && (s.cluReserved c).all (fun x => decide (x.2 = 0) || decide (off + n ≤ x.1) || decide (x.1 + x.2 ≤ off))

/-- A store address of the model for a cluster-local address, when the range lies in its store and the realm may reach it. -/
def State.local (s : State) (x : OpCtx) (a n : Nat) : Option Nat :=
  if a + n ≤ 2 ^ 21 then some (tileBase x.tile + a)
  else if 2 ^ 24 ≤ a ∧ a + n ≤ 2 ^ 25 ∧ s.inCluster x.realm x.clu (a - 2 ^ 24) n then some (clusterBase x.clu + (a - 2 ^ 24))
  else none

/-- The same for a source or output of kind SRC: 0 tile store, 1 cluster store, 2 LPDDR5. -/
def State.place (s : State) (x : OpCtx) (src a n : Nat) : Option Nat :=
  if src = 0 then (if a + n ≤ 2 ^ 21 then s.local x a n else none)
  else if src = 1 then (if 2 ^ 24 ≤ a then s.local x a n else none)
  else if src = 2 then (if s.inRegions x.realm a n then some (lpddrBase + a) else none)
  else none

/-! ### Index stream descriptors -/

/-- An ISD (R57). -/
structure Isd where
  kind : Nat
  src : Nat
  elem : Nat
  flags : Nat
  rowBytes : Nat
  rowStride : Nat
  rowCount : Nat
  dataBase : Nat
  idxBase : Nat
  ptrBase : Nat
  auxBase : Nat
  outRows : Nat
  entries : Nat
  block : Nat
  ringLines : Nat
  ringBase : Nat
  deriving DecidableEq, Repr

/-- A little-endian field of a record. -/
def fieldOf (b : List Nat) (off n : Nat) : Nat := leNum ((b.drop off).take n)

def Isd.parse (b : List Nat) : Isd :=
  { kind := fieldOf b 0 1, src := fieldOf b 1 1, elem := fieldOf b 2 1, flags := fieldOf b 3 1, rowBytes := fieldOf b 4 4,
    rowStride := fieldOf b 8 4, rowCount := fieldOf b 12 4, dataBase := fieldOf b 16 8, idxBase := fieldOf b 24 8,
    ptrBase := fieldOf b 32 8, auxBase := fieldOf b 40 8, outRows := fieldOf b 48 4, entries := fieldOf b 52 4,
    block := fieldOf b 56 2, ringLines := fieldOf b 58 2, ringBase := fieldOf b 60 4 }

def Isd.sorted (d : Isd) : Bool := bit d.flags 0
def Isd.mxScale (d : Isd) : Bool := bit d.flags 1
def Isd.prefetch (d : Isd) : Bool := bit d.flags 2
def Isd.dstPly (d : Isd) : Bool := bit d.flags 3

/-- Elements of one row; a PAGED MX ply takes the elements before its scales (R520). -/
def Isd.elems (d : Isd) : Nat :=
  (if d.kind = 5 ∧ d.mxScale then d.auxBase else d.rowBytes) * 8 / elemBits d.elem

/-- MX blocks of one row. -/
def Isd.blocks (d : Isd) : Nat := d.elems / 32

/-- Completion statuses (R203). -/
def stOk : Nat := 0x00
def stDescFormat : Nat := 0x01
def stDescAccess : Nat := 0x02
def stCancelled : Nat := 0x03
def stTimeout : Nat := 0x04
def stOpFault : Nat := 0x05
def stTileFault : Nat := 0x06
def stNotFound : Nat := 0x07
def stIdxFormat : Nat := 0x10
def stIdxAccess : Nat := 0x11
def stIdxOverlap : Nat := 0x12
def stIdxRange : Nat := 0x13
def stIdxPtr : Nat := 0x14
def stScatterSat : Nat := 0x15
def stGridOutside : Nat := 0x16
def stConvShape : Nat := 0x18
def stLbAbort : Nat := 0x19
def stLbTimeout : Nat := 0x1A
def stAttShape : Nat := 0x20
def stTreeShape : Nat := 0x21
def stTreePath : Nat := 0x22
def stKvLimit : Nat := 0x23
def stKvNoPage : Nat := 0x24
def stKvNoFrame : Nat := 0x25
def stKvPoison : Nat := 0x26
def stPrefixAlign : Nat := 0x27
def stPrefixProfile : Nat := 0x28

/-! ### Profiles and the page map (R140-R147) -/

def State.profRow (s : State) (prof : Nat) : Nat := s.fld .KVM_PROF_GEOM_ROW_LINES 0 prof * 64
def State.profPlanes (s : State) (prof : Nat) : Nat := s.fld .KVM_PROF_GEOM_PLANES_M1 0 prof + 1
def State.profS0 (s : State) (prof : Nat) : Nat := 16 * 2 ^ s.fld .KVM_PROF_GEOM_S0_LOG 0 prof
def State.profCap (s : State) (prof : Nat) : Nat := 16 * 2 ^ s.fld .KVM_PROF_GEOM_CAP_LOG 0 prof
def State.profStage (s : State) (prof : Nat) : Nat := s.fld .KVM_PROF_POLICY_STAGE_TOKENS 0 prof

def Kvm.ent (k : Kvm) (e : Nat) : PageEnt := Tab.get (fun _ => {}) k.ents e
def Kvm.setEnt (k : Kvm) (e : Nat) (x : PageEnt) : Kvm := { k with ents := Tab.set (fun _ => {}) e x k.ents }
def Kvm.skein (k : Kvm) (root : Nat) : Option Skein := Tab.find root k.skeins
def Kvm.setSkein (k : Kvm) (root : Nat) (x : Skein) : Kvm := { k with skeins := Tab.put root x k.skeins }

/-- The first byte of a frame of a realm's pool (log entry 15). -/
def State.frameAddr (s : State) (r frame : Nat) : Nat := lpddrBase + (s.fld .KVM_RLM_POOL_BASE 0 r + frame) * 4096

/-- The chain of a skein: entry numbers with the position at which each page starts (R143, R144). -/
def Kvm.chain (k : Kvm) : Nat → Nat → Nat → List (Nat × Nat)
  | 0, _, _ => []
  | fuel + 1, e, pos =>
    if e = 0 then []
    else if (k.ent e).mapUe then [(e, pos)]
    else (e, pos) :: Kvm.chain k fuel (k.ent e).nxt (pos + 16 * 2 ^ (k.ent e).sizeLog)

def Kvm.pages (k : Kvm) (root : Nat) : List (Nat × Nat) := k.chain 32768 root 0

/-- The entry that holds the frame of a page: a SHARED entry names an owner (R140, R162), and the owner of a page that was
SHARED when its prefix was registered names the earlier owner in turn. -/
def Kvm.owner (k : Kvm) : Nat → Nat → Nat
  | 0, e => e
  | n + 1, e => if (k.ent e).shared then Kvm.owner k n (k.ent e).frame else e

/-- What a read of a position of a skein meets. -/
inductive PageHit where
  /-- At or beyond the current length (R60). -/
  | outOfRange
  /-- In an evicted page (R154). -/
  | evicted
  /-- The row's address, with the entry whose frame holds it (none: the staging area), and the poison of that page. -/
  | row (addr : Nat) (entry : Option Nat) (poison : Bool)
  /-- Spilled or being fetched: the reader waits for this entry (R157). -/
  | wait (entry : Nat)
  /-- The walk reached an uncorrectable entry (R169). -/
  | broken (entry : Nat)
  deriving DecidableEq, Repr

/-- The page-map walk for one position of a plane (R141-R147). -/
def State.pageRead (s : State) (root : Nat) (k : Skein) (plane pos : Nat) : PageHit :=
  let rb := s.profRow k.prof
  if pos ≥ k.len + k.staged then .outOfRange
  else if pos ≥ k.len then
    .row (s.frameAddr k.realm k.stageFrame + (plane * s.profStage k.prof + (pos - k.len)) * rb) none false
  else
    let ps := s.kvm.pages root
    match ps.find? (fun x => (s.kvm.ent x.1).mapUe || decide (pos < x.2 + 16 * 2 ^ (s.kvm.ent x.1).sizeLog)) with
    | none => .outOfRange
    | some (e0, start) =>
      let p0 := s.kvm.ent e0
      if p0.mapUe then .broken e0
      else if p0.st = .evicted then .evicted
      else
        let e := s.kvm.owner 16 e0
        let p := s.kvm.ent e
        if p.mapUe then .broken e
        else match p.st with
          | .evicted => .evicted
          | .spilled => .wait e
          | .fetching => .wait e
          | _ => .row (s.frameAddr p.realm p.frame + (plane * (16 * 2 ^ p.sizeLog) + (pos - start)) * rb) (some e) p.poison

/-! ### Checks of R59 -/

/-- Check 1 of R59 (and the ranges that R57 gives). -/
def Isd.formatOk (d : Isd) (first : Nat) (output : Bool) : Bool :=
  decide (d.kind ≤ 5) && decide (d.src ≤ 3) && decide (d.elem ≤ 0x13) && decide (d.flags < 16)
  && ((d.kind == 5) == (d.src == 3))
  && (if d.kind = 4 then d.block == 16 || d.block == 32 || d.block == 64 || d.block == 128
      else if d.kind = 1 then decide (1 ≤ d.block) && decide (d.block ≤ 1024) else d.block == 0)
  && (d.kind != 4 || (d.outRows % d.block == 0 && (d.outRows != 0 && d.entries * d.block % d.outRows == 0 || d.entries == 0)))
  && (d.kind != 5 || d.outRows == d.entries)
  && (d.kind != 5 || decide (d.dataBase < 2 ^ 28))
  && (d.mxScale || d.auxBase == 0)
  && (d.elem == first)
  && decide (1 ≤ d.rowBytes) && decide (d.rowBytes ≤ 65536)
  && (d.kind == 5 || decide (d.rowBytes ≤ d.rowStride))
  && (!d.prefetch || (decide (16 ≤ d.ringLines) && decide (d.ringLines ≤ 16384) && d.ringBase % 64 == 0))
  && (!output || (d.kind == 0 && !d.prefetch && decide (d.src ≤ 2)))

/-- Check 2 of R59: whole elements, whole MX blocks, and the profile of a PAGED ply. `weights`: the blocks run down the columns. -/
def State.isdRowsOk (s : State) (d : Isd) (weights output : Bool) : Bool :=
  (d.rowBytes * 8 % elemBits d.elem == 0)
  && (!elemIsMx d.elem || output ||
      (if weights then d.rowCount % 32 == 0
       else if d.kind = 5 then d.auxBase * 8 % (32 * elemBits d.elem) == 0 && decide (d.auxBase + d.blocks ≤ d.rowBytes)
       else d.rowBytes * 8 % (32 * elemBits d.elem) == 0))
  && (d.kind != 5 ||
      (match s.kvm.skein (d.dataBase % 2 ^ 20) with
       | some k => d.rowBytes == s.profRow k.prof && decide (bits d.dataBase 20 8 < s.profPlanes k.prof)
       | none => true))

/-- Bytes of the MX scale array (R520, R529). -/
def Isd.scaleBytes (d : Isd) (weights output : Bool) (mxAxis : Nat) : Nat :=
  let n := d.rowBytes * 8 / elemBits d.elem
  if output then (if mxAxis = 0 then d.rowCount * ceilDiv n 32 else ceilDiv d.rowCount 32 * n)
  else if weights then d.rowCount / 32 * n
  else d.rowCount * d.blocks

/-- Index and pointer arrays of a ply with their sizes (R62). -/
def Isd.arrays (d : Isd) : List (Nat × Nat) :=
  (match d.kind with
   | 1 => [(d.idxBase, 4 * (d.outRows * d.block))]
   | 2 => [(d.ptrBase, 4 * (d.outRows + 1)), (d.idxBase, 4 * d.entries)]
   | 3 => [(d.ptrBase, 4 * d.entries), (d.idxBase, 4 * d.entries)]
   | 4 => [(d.idxBase, 4 * d.entries)]
   | 5 => [(d.idxBase, 4 * d.entries)]
   | _ => []).filter (fun x => x.2 != 0)

/-- Bytes from the first source row to the end of the last. -/
def Isd.span (d : Isd) : Nat := if d.rowCount = 0 then 0 else (d.rowCount - 1) * d.rowStride + d.rowBytes

/-- Check 5 of R59: every array, the source range, and the gather ring. -/
def State.isdAccessOk (s : State) (x : OpCtx) (d : Isd) (weights output : Bool) (mxAxis : Nat) : Bool :=
  (output || d.arrays.all (fun y => (s.local x y.1 y.2).isSome))
  && (!d.mxScale || d.kind == 5 || (s.local x d.auxBase (d.scaleBytes weights output mxAxis)).isSome)
  && (if d.kind = 5 then (match s.kvm.skein (d.dataBase % 2 ^ 20) with
                          | some k => k.realm == x.realm
                          | none => false)
      else d.span == 0 || (s.place x d.src d.dataBase d.span).isSome)
  && (!d.prefetch || decide (d.ringBase + 64 * d.ringLines ≤ 2 ^ 21))

/-- The checks of R59 in order; 0 when every one passes. -/
def State.isdCheck (s : State) (x : OpCtx) (d : Isd) (first : Nat) (weights : Bool := false) (output : Bool := false)
    (mxAxis : Nat := 0) : Nat :=
  if !d.formatOk first output then stIdxFormat
  else if !s.isdRowsOk d weights output then stIdxFormat
  else if !output && d.src != 0 && !d.prefetch then stIdxFormat
  else if d.mxScale != elemIsMx d.elem then stIdxFormat
  else if !s.isdAccessOk x d weights output mxAxis then stIdxAccess
  else stOk

/-- The first non-OK status of a list of checks. -/
def firstBad (l : List Nat) : Nat := (l.find? (fun x => x != 0)).getD 0

/-! ### Walks (R60-R62, R526) -/

/-- The null index (R58). -/
def nullIdx : Nat := 0xFFFFFFFF

/-- A walk: for each entry in entry order its output row and its index, with the count of IDX_PTR indices (R61). -/
structure Walk where
  entries : List (Nat × Nat) := []
  ptrBad : Nat := 0
  /-- An index, pointer or segment word was uncorrectable: the extent of the walk is unknown (R61). -/
  lost : Option Nat := none
  deriving DecidableEq, Repr

/-- A 32-bit word array in cluster-local space (R58). -/
def State.u32s (s : State) (x : OpCtx) (a n : Nat) : List Nat :=
  match s.local x a (4 * n) with
  | some b => unpack 32 n (s.bytes b (4 * n))
  | none => []

/-- The first uncorrectable word of an array, if any. -/
def State.lostIn (s : State) (x : OpCtx) (l : List (Nat × Nat)) : Option Nat :=
  (l.filterMap (fun y => (s.local x y.1 y.2).bind (fun b => s.mem.bad.find? (touchesWord b y.2)))).head?

/-- COO: entries kept in array order, with the last segment number kept (R61). -/
def cooKeep (sorted : Bool) (outRows : Nat) : List (Nat × Nat) → Option Nat → List (Nat × Nat) × Nat
  | [], _ => ([], 0)
  | (g, i) :: t, last =>
    if g ≥ outRows || (sorted && (match last with | some l => decide (g < l) | none => false)) then
      let r := cooKeep sorted outRows t last
      (r.1, r.2 + 1)
    else
      let r := cooKeep sorted outRows t (some g)
      ((g, i) :: r.1, r.2)

/-- Row pointers that are larger than ENTRIES or smaller than the one before (R61). -/
def badPtrs (entries : Nat) : Option Nat → List Nat → Nat
  | _, [] => 0
  | prev, p :: t =>
    b2n (decide (entries < p) || (match prev with | some q => decide (p < q) | none => false)) + badPtrs entries (some p) t

/-- The walk of a ply (R62). -/
def State.walk (s : State) (x : OpCtx) (d : Isd) : Walk :=
  let lost := s.lostIn x d.arrays
  match d.kind with
  | 0 => { entries := (List.range d.outRows).map (fun r => (r, r)), lost := lost }
  | 1 =>
    let ix := s.u32s x d.idxBase (d.outRows * d.block)
    { entries := ix.zipIdx.map (fun e => (e.2 / d.block, e.1)), lost := lost }
  | 2 =>
    let ptr := s.u32s x d.ptrBase (d.outRows + 1)
    let ix := s.u32s x d.idxBase d.entries
    { entries := ((List.range d.outRows).map (fun r =>
        let a := ptr.getD r 0
        let b := ptr.getD (r + 1) 0
        if b < a ∨ d.entries < a ∨ d.entries < b then []
        else ((ix.drop a).take (b - a)).map (fun i => (r, i)))).flatten
      ptrBad := badPtrs d.entries none ptr, lost := lost }
  | 3 =>
    let seg := s.u32s x d.ptrBase d.entries
    let ix := s.u32s x d.idxBase d.entries
    let k := cooKeep d.sorted d.outRows (seg.zip ix) none
    { entries := k.1, ptrBad := k.2, lost := lost }
  | 4 =>
    let e := d.entries * d.block / d.outRows
    let ix := s.u32s x d.idxBase d.entries
    { entries := (ix.zipIdx.map (fun y => (List.range d.block).map (fun i =>
        (y.2 / e * d.block + i, if y.1 = nullIdx then nullIdx else y.1 * d.block + i)))).flatten
      lost := lost }
  | _ =>
    let ix := s.u32s x d.idxBase d.entries
    { entries := ix.zipIdx.map (fun e => (e.2, e.1)), lost := lost }

/-! ### Rows -/

/-- An element's code with its poison mark (R46). -/
structure El where
  code : Nat
  p : Bool := false
  deriving DecidableEq, Repr

/-- A row of elements; for MX one scale per block of 32, none for a padding or null block that takes part in no join (R89). -/
structure ORow where
  els : List El
  scales : List (Option El) := []
  deriving DecidableEq, Repr

def ORow.append (a b : ORow) : ORow := ⟨a.els ++ b.els, a.scales ++ b.scales⟩

/-- Codes of a range of memory with the mark of each element whose word is uncorrectable. -/
def State.readEls (s : State) (a eb n : Nat) : List El :=
  let cs := unpack eb n (s.bytes a (ceilDiv (n * eb) 8))
  if s.mem.bad.isEmpty then cs.map (fun c => ⟨c, false⟩)
  else cs.zipIdx.map (fun e => ⟨e.1, s.mem.isBad (a + e.2 * eb / 8) (ceilDiv (e.2 * eb % 8 + eb) 8)⟩)

def zeroRow (n blocks : Nat) : ORow := ⟨List.replicate n ⟨0, false⟩, List.replicate blocks none⟩

/-- What reading one row of a ply meets: the row, and the page that must be fetched, that is evicted, broken or poisoned. -/
structure RowRead where
  row : ORow
  range : Nat := 0
  wait : Option Nat := none
  kvPoison : Option (Nat × Nat) := none
  page : Option Nat := none
  ue : Option Nat := none
  deriving DecidableEq, Repr

/-- The first uncorrectable word that a range touches. -/
def State.ueIn (s : State) (a n : Nat) : Option Nat := s.mem.bad.find? (touchesWord a n)

/-- The LPDDR5 line, by its address in 64-byte lines, of the first uncorrectable word that a range touches (R360). -/
def State.badLine (s : State) (a n : Nat) : Nat := (8 * (s.ueIn a n).getD 0 - lpddrBase) / 64

/-- One row of a ply by its index (R58, R60, R63, R520). -/
def State.readRow (s : State) (x : OpCtx) (d : Isd) (idx : Nat) : RowRead :=
  let n := d.elems
  let eb := elemBits d.elem
  let nb := if d.mxScale then d.blocks else 0
  let zero := zeroRow n nb
  if idx = nullIdx then { row := zero }
  else if d.kind = 5 then
    let root := d.dataBase % 2 ^ 20
    match s.kvm.skein root with
    | none => { row := zero, range := 1 }
    | some k =>
      match s.pageRead root k (bits d.dataBase 20 8) idx with
      | .outOfRange => { row := zero, range := 1 }
      | .evicted => { row := zero, range := 1 }
      | .wait e => { row := zero, wait := some e }
      | .broken e => { row := ⟨List.replicate n ⟨0, true⟩, List.replicate nb none⟩, kvPoison := some (e, 0) }
      | .row a e p =>
        let els := (s.readEls a eb n).map (fun y => if p then { y with p := true } else y)
        let sc := if nb = 0 then [] else (s.readEls (a + d.auxBase) 8 nb).map some
        let bad := p || s.mem.isBad a d.rowBytes
        { row := ⟨els, sc⟩, page := e, kvPoison := if bad then some (e.getD 0, s.badLine a d.rowBytes) else none }
  else if idx ≥ d.rowCount then { row := zero, range := 1 }
  else
    match s.place x d.src (d.dataBase + idx * d.rowStride) d.rowBytes with
    | none => { row := zero }
    | some a =>
      let sc := if nb = 0 then [] else match s.local x (d.auxBase + idx * nb) nb with
        | some b => (s.readEls b 8 nb).map some
        | none => List.replicate nb none
      { row := ⟨s.readEls a eb n, sc⟩, ue := s.ueIn a (ceilDiv (n * eb) 8) }

/-- The rows that one operand supplies: for each output row its entries, each the join of the plies (R526). -/
structure Operand where
  rows : List (List RowRead) := []
  /-- Index of the entry's first walking ply, for null-entry rules. -/
  nulls : List (List Bool) := []
  range : Nat := 0
  ptrBad : Nat := 0
  waits : List Nat := []
  kvPoison : List (Nat × Nat) := []
  pages : List Nat := []
  ue : List Nat := []
  lost : Option Nat := none
  /-- The plies give different entries (R526). -/
  mismatch : Bool := false
  deriving DecidableEq, Repr

/-- Join the reads of one entry's plies. -/
def joinReads (l : List RowRead) : RowRead :=
  l.foldl (fun a b => { row := a.row.append b.row, range := a.range + b.range, wait := a.wait.or b.wait,
                        kvPoison := a.kvPoison.or b.kvPoison, page := a.page.or b.page, ue := a.ue.or b.ue })
    { row := ⟨[], []⟩ }

/-- Entry counts per output row. -/
def rowCounts (m : Nat) (es : List (Nat × Nat)) : List Nat :=
  (List.range m).map (fun r => (es.filter (fun e => e.1 == r)).length)

/-- Entry `j` of a ply beside walking plies: a walking ply gives its own index, a TRIVIAL one the entry's number, a DST_PLY one
the output row (R62, R526). -/
def plyIndex (d : Isd) (own : Nat × Nat) (j : Nat) : Nat :=
  if d.kind = 0 then j
  else if d.dstPly then (if own.2 = nullIdx then nullIdx else own.1)
  else own.2

/-- Read one operand (R526). For COO the entries of one output row keep their array order. -/
def State.readOperand (s : State) (x : OpCtx) (ds : List Isd) (m : Nat) : Operand :=
  let ws := ds.map (s.walk x)
  let lost := (ws.filterMap Walk.lost).head?
  let walking := (ds.zip ws).filter (fun y => y.1.kind != 0)
  let mk (rows : List (List (RowRead × Bool))) (mis : Bool) : Operand :=
    let all := (rows.flatten).map (·.1)
    { rows := rows.map (fun r => r.map (·.1)), nulls := rows.map (fun r => r.map (·.2)),
      range := (all.map (·.range)).sum, ptrBad := (walking.map (fun y => y.2.ptrBad)).sum,
      waits := all.filterMap (·.wait), kvPoison := all.filterMap (·.kvPoison), pages := all.filterMap (·.page),
      ue := all.filterMap (·.ue), lost := lost, mismatch := mis }
  match walking with
  | [] => mk ((List.range m).map (fun r => [(joinReads (ds.map (fun d => s.readRow x d r)), false)])) false
  | (_, w0) :: _ =>
    let c0 := rowCounts m w0.entries
    if walking.any (fun y => rowCounts m y.2.entries != c0) then mk [] true
    else
      -- entries of each walking ply grouped by output row, in entry order
      let grouped := fun (w : Walk) (r : Nat) => w.entries.zipIdx.filter (fun e => e.1.1 == r)
      let rows := (List.range m).map (fun r =>
        ((grouped w0 r).zipIdx).map (fun e =>
          let j := e.1.2
          let reads := (ds.zip ws).map (fun y =>
            let own := if y.1.kind = 0 then (r, j) else (((grouped y.2 r).getD e.2 ((r, nullIdx), 0)).1)
            s.readRow x y.1 (plyIndex y.1 own j))
          (joinReads reads, e.1.1.2 == nullIdx)))
      mk rows false

/-! ### Window descriptors (R86-R89) -/

/-- A WND (R86). -/
structure Wnd where
  version : Nat
  src : Nat
  elem : Nat
  flags : Nat
  inH : Nat
  inW : Nat
  cIn : Nat
  lineStride : Nat
  kh : Nat
  kw : Nat
  sh : Nat
  sw : Nat
  dh : Nat
  dw : Nat
  padT : Nat
  padB : Nat
  padL : Nat
  padR : Nat
  padValue : Nat
  pixStride : Nat
  dataBase : Nat
  auxBase : Nat
  outY0 : Nat
  outRows : Nat
  outX0 : Nat
  outCols : Nat
  ringLines : Nat
  haloL : Nat
  haloR : Nat
  ringBase : Nat
  deriving DecidableEq, Repr

def Wnd.parse (b : List Nat) : Wnd :=
  { version := fieldOf b 0 1, src := fieldOf b 1 1, elem := fieldOf b 2 1, flags := fieldOf b 3 1, inH := fieldOf b 4 2,
    inW := fieldOf b 6 2, cIn := fieldOf b 8 4, lineStride := fieldOf b 12 4, kh := fieldOf b 16 1, kw := fieldOf b 17 1,
    sh := fieldOf b 18 1, sw := fieldOf b 19 1, dh := fieldOf b 20 1, dw := fieldOf b 21 1, padT := fieldOf b 22 1,
    padB := fieldOf b 23 1, padL := fieldOf b 24 1, padR := fieldOf b 25 1, padValue := fieldOf b 26 2,
    pixStride := fieldOf b 28 4, dataBase := fieldOf b 32 8, auxBase := fieldOf b 40 8, outY0 := fieldOf b 48 2,
    outRows := fieldOf b 50 2, outX0 := fieldOf b 52 2, outCols := fieldOf b 54 2, ringLines := fieldOf b 56 2,
    haloL := fieldOf b 58 1, haloR := fieldOf b 59 1, ringBase := fieldOf b 60 4 }

def Wnd.padMode (w : Wnd) : Nat := bits w.flags 2 2
def Wnd.mxScale (w : Wnd) : Bool := bit w.flags 0
def Wnd.ceilMode (w : Wnd) : Bool := bit w.flags 4
def Wnd.countPad (w : Wnd) : Bool := bit w.flags 5
def Wnd.pixBytes (w : Wnd) : Nat := ceilDiv (w.cIn * elemBits w.elem) 8

/-- Output size on one axis (R87); 0 when it is below 1. -/
def outSize (inN p0 p1 k d st : Nat) (ceilM : Bool) : Nat :=
  let need := (k - 1) * d + 1
  if inN + p0 + p1 < need then 0
  else
    let t := inN + p0 + p1 - need
    let n := (if ceilM then ceilDiv t st else t / st) + 1
    if ceilM && decide (inN + p0 ≤ (n - 1) * st) then n - 1 else n

def Wnd.hOut (w : Wnd) (pool : Bool) : Nat := outSize w.inH w.padT w.padB w.kh w.dh w.sh (pool && w.ceilMode)
def Wnd.wOut (w : Wnd) (pool : Bool) : Nat := outSize w.inW w.padL w.padR w.kw w.dw w.sw (pool && w.ceilMode)

/-- Ranges of the fields of a WND that R86 gives (check 1 of R88). -/
def Wnd.formatOk (w : Wnd) (pool : Bool) : Bool :=
  let kmax := if pool then 65536 else 31
  let r := fun (v lo hi : Nat) => decide (lo ≤ v) && decide (v ≤ hi)
  w.version == 1 && decide (w.src ≤ 1) && decide (w.elem ≤ 0x13) && decide (w.flags < 64)
  && r w.inH 1 16384 && r w.inW 1 16384 && r w.cIn 1 65536 && r w.kh 1 kmax && r w.kw 1 kmax
  && r w.sh 1 16 && r w.sw 1 16 && r w.dh 1 16 && r w.dw 1 16
  && decide (w.pixBytes ≤ w.pixStride) && (w.mxScale || w.auxBase == 0)
  && (w.src == 0 || bit w.flags 1)
  && (!bit w.flags 1 || (r w.ringLines 16 16384 && w.ringBase % 64 == 0))

/-- Check 2 of R88. -/
def Wnd.shapeOk (w : Wnd) (pool global : Bool) : Bool :=
  let h := w.hOut pool
  let v := w.wOut pool
  decide (1 ≤ h) && decide (1 ≤ v) && decide (w.outY0 + w.outRows ≤ h) && decide (w.outX0 + w.outCols ≤ v)
  && (w.padMode != 2 || (decide (max w.padT w.padB ≤ w.inH - 1) && decide (max w.padL w.padR ≤ w.inW - 1)))
  && (w.mxScale == elemIsMx w.elem)
  && (!elemIsMx w.elem || (w.padMode != 1 && w.cIn % 32 == 0 && w.cIn * elemBits w.elem % 512 == 0))
  && (!pool || (w.dh == 1 && w.dw == 1 && (global || (decide (w.kh ≤ 16) && decide (w.kw ≤ 16)))))

/-- Check 3 of R88: every address the walk can reach. -/
def State.wndAccessOk (s : State) (x : OpCtx) (w : Wnd) : Bool :=
  let n := (w.inH - 1) * w.lineStride + (w.inW - 1) * w.pixStride + w.pixBytes
  (s.place x w.src w.dataBase n).isSome
  && (!w.mxScale || (s.local x w.auxBase (w.inH * w.inW * (w.cIn / 32))).isSome)
  && (!bit w.flags 1 || decide (w.ringBase + 64 * w.ringLines ≤ 2 ^ 21))

/-- The checks of R88 in order. -/
def State.wndCheck (s : State) (x : OpCtx) (w : Wnd) (pool global : Bool) : Nat :=
  if !w.formatOk pool then stIdxFormat
  else if !w.shapeOk pool global then stConvShape
  else if !s.wndAccessOk x w then stIdxAccess
  else stOk

/-- Where a tap position falls on one axis (R89): in the input, or outside with the position that REFLECT or REPLICATE reads. -/
inductive TapPos where
  | inside (p : Nat)
  /-- ZERO or CONSTANT padding. -/
  | pad
  /-- Beyond the padded input, which only CEIL can produce (R97). -/
  | beyond
  deriving DecidableEq, Repr

def tapAxis (mode n padEnd : Nat) (p : Int) : TapPos :=
  if 0 ≤ p ∧ p < n then .inside p.toNat
  else if (n : Int) + padEnd ≤ p then .beyond
  else if mode = 2 then .inside (if p < 0 then (-p).toNat else (2 * (n : Int) - 2 - p).toNat)
  else if mode = 3 then .inside (if p < 0 then 0 else n - 1)
  else .pad

/-- The position of a tap on both axes. -/
def Wnd.tap (w : Wnd) (oy ox ky kx : Nat) : TapPos × TapPos :=
  (tapAxis w.padMode w.inH w.padB (((oy * w.sh + ky * w.dh : Nat) : Int) - w.padT),
   tapAxis w.padMode w.inW w.padR (((ox * w.sw + kx * w.dw : Nat) : Int) - w.padL))

/-- Is an input format an integer one, for the ZERO code of R89? -/
def Wnd.zeroCode (w : Wnd) : Nat :=
  if w.padMode = 1 then w.padValue % 2 ^ elemBits w.elem
  else if (elemInt w.elem).isSome then w.padValue % 2 ^ elemBits w.elem else 0

/-- The channels `c0 .. c0 + n - 1` of one tap, padding supplied by R89. -/
def State.tapRow (s : State) (x : OpCtx) (w : Wnd) (c0 n oy ox ky kx : Nat) : ORow × Option Nat :=
  let nb := if w.mxScale then n / 32 else 0
  match w.tap oy ox ky kx with
  | (.inside y, .inside z) =>
    match s.place x w.src (w.dataBase + y * w.lineStride + z * w.pixStride) w.pixBytes with
    | none => (zeroRow n nb, none)
    | some a =>
      let els := ((s.readEls a (elemBits w.elem) w.cIn).drop c0).take n
      let cb := w.cIn / 32
      let sc := if nb = 0 then [] else match s.local x (w.auxBase + (y * w.inW + z) * cb) cb with
        | some b => (((s.readEls b 8 cb).drop (c0 / 32)).take nb).map some
        | none => List.replicate nb none
      (⟨els, sc⟩, if els.any El.p then s.ueIn a w.pixBytes else none)
  | _ => (⟨List.replicate n ⟨w.zeroCode, false⟩, List.replicate nb none⟩, none)

end Sys2Proof.Machine
end

