-- ==== Sys2Proof/Machine/KvmOps.lean ====
section
/-! DEFINITION. The memory hub's key-value memory: pools, entries, skeins, prefixes, appending, eviction, spilling, reclamation (R140-R170). -/

namespace Sys2Proof.Machine

/-! ### Pools and frames (R142, R160, R168) -/

/-- The smallest power of two not below a number. -/
def pow2AtLeast (n : Nat) : Nat := if n ≤ 1 then 1 else 2 ^ ((n - 1).log2 + 1)

/-- Granules of a frame of `n` tokens of a profile (R142). -/
def State.frameGran (s : State) (prof n : Nat) : Nat := pow2AtLeast (ceilDiv (s.profPlanes prof * n * s.profRow prof) 4096)

/-- The valid profile of a number (R142). -/
def State.profOk (s : State) (prof : Nat) : Bool :=
  decide (prof < 64) && s.flag .KVM_PROF_GEOM_VALID 0 prof && decide (s.profS0 prof ≤ s.profCap prof) && decide (1 ≤ s.profRow prof)

/-- Tokens of page `i` of a skein (R143). -/
def State.pageTokens (s : State) (prof i : Nat) : Nat := min (s.profS0 prof * 2 ^ min i 16) (s.profCap prof)

/-- Does an entry hold a frame of its own? -/
def PageEnt.framed (p : PageEnt) : Bool :=
  !p.shared && (p.st == .resident || p.st == .spilling || p.st == .fetching || ((p.st == .deferred || p.st == .evicted) && p.hasFrame))

/-- Frames in use in a realm's pool: first granule and number of granules. -/
def State.usedFrames (s : State) (r : Nat) : List (Nat × Nat) :=
  ((s.kvm.ents.filter (fun e => e.2.realm == r && e.2.framed)).map (fun e => (e.2.frame, e.2.gran)))
  ++ ((s.kvm.skeins.filter (fun k => k.2.realm == r)).map (fun k => (k.2.stageFrame, k.2.stageGran)))

def State.poolSize (s : State) (r : Nat) : Nat := s.fld .KVM_RLM_POOLSZ_SIZE 0 r

/-- Free granules of a realm's pool. -/
def State.freeGran (s : State) (r : Nat) : Nat := s.poolSize r - ((s.usedFrames r).map (·.2)).sum

/-- The fetch reserve (R160). -/
def State.reserve (s : State) (r : Nat) : Nat := ceilDiv (s.poolSize r * s.fld .KVM_RLM_SPILL_RESERVE 0 r) 256

/-- Is a frame free of every frame in use? -/
def frameFits (used : List (Nat × Nat)) (size a n : Nat) : Bool :=
  decide (a + n ≤ size) && used.all (fun u => decide (u.1 + u.2 ≤ a) || decide (a + n ≤ u.1) || u.2 == 0)

/-- The lowest free frame of `n` granules on a boundary of its own size: it starts at 0 or just above a frame in use. -/
def lowestFrame (used : List (Nat × Nat)) (size n : Nat) : Option Nat :=
  let cands := 0 :: used.map (fun u => ceilDiv (u.1 + u.2) n * n)
  (cands.filter (fun a => frameFits used size a n)).foldl (fun m a => match m with
    | none => some a
    | some b => some (min a b)) none

/-- Frames for new pages, all or none: they never use the fetch reserve (R160). -/
def State.newFrames (s : State) (r : Nat) : List Nat → List (Nat × Nat) → Option (List Nat)
  | [], _ => some []
  | n :: t, taken =>
    let used := s.usedFrames r ++ taken
    if s.freeGran r < (taken.map (·.2)).sum + n + s.reserve r then none
    else match lowestFrame used (s.poolSize r) n with
      | none => none
      | some a => (s.newFrames r t ((a, n) :: taken)).map (a :: ·)

/-! ### Entries (R140, R168) -/

/-- Entries a realm holds: DEFERRED ones too, and those promised to admitted requests (R248). -/
def State.heldEnts (s : State) (r : Nat) : Nat :=
  (s.kvm.ents.filter (fun e => e.2.st != .free && e.2.realm == r)).length
  + ((s.kvm.skeins.filter (fun k => k.2.realm == r)).map (fun k => k.2.promise - (s.kvm.pages k.1).length)).sum

def State.freeEnts (s : State) : Nat := 1048575 - ((List.range 4).map s.heldEnts).sum

/-- The grant rule of R168 for one more entry when `extra` were granted just before. -/
def State.grantOne (s : State) (r extra : Nat) : Bool :=
  let held := s.heldEnts r + extra
  let free := s.freeEnts - extra
  let short := (((List.range 4).filter (· != r)).map (fun q => 16 * s.fld .KVM_RLM_ENT_MIN 0 q - s.heldEnts q)).sum
  decide (1 ≤ free) && (decide (held < 16 * s.fld .KVM_RLM_ENT_MIN 0 r)
    || (decide (held < 16 * s.fld .KVM_RLM_ENT_MAX 0 r) && decide (short ≤ free - 1)))

/-- `n` entries are granted, all or none. -/
def State.grants (s : State) (r n : Nat) : Bool := (List.range n).all (s.grantOne r)

/-- The lowest free entries, `n` of them. -/
def freeEntsAux (k : Tab PageEnt) : Nat → Nat → List Nat
  | 0, _ => []
  | n + 1, b => match Tab.freeKey k (k.length + 1) b with
    | some e => e :: freeEntsAux k n (e + 1)
    | none => []

def Kvm.freeEntries (k : Kvm) (n : Nat) : List Nat := freeEntsAux k.ents n 1

/-- A refused allocation (R168). -/
def State.refuse (s : State) : Nat × State := (stKvNoPage, s.setSts .KVM_STS [4])

/-! ### Skeins (R143, R146, R163) -/

/-- Chain the entries of a list through NEXT, each with its content. -/
def Kvm.putChain (k : Kvm) : List (Nat × PageEnt) → Kvm
  | [] => k
  | (e, x) :: t => Kvm.putChain (k.setEnt e { x with nxt := (t.headD (0, {})).1 }) t

/-- A new private page (R142, R143). -/
def State.newPage (s : State) (r prof i frame : Nat) : PageEnt :=
  { st := .resident, sizeLog := (s.pageTokens prof i / 16).log2, realm := r, frame := frame, gran := s.frameGran prof (s.pageTokens prof i),
    lastRead := s.kvm.cur }

/-- Create a skein without a prefix (R146): its root entry, page 0 and staging area, all or none. -/
def State.newSkein (s : State) (r prof : Nat) : Nat × Nat × State :=
  let g0 := s.frameGran prof (s.pageTokens prof 0)
  let gs := s.frameGran prof (s.profStage prof)
  if !s.profOk prof || decide (65536 ≤ s.kvm.skeins.length) || !s.grants r 1 then (0, s.refuse)
  else match s.newFrames r [g0, gs] [] with
    | some [a, b] =>
      let root := (s.kvm.freeEntries 1).headD 0
      let k := s.kvm.setEnt root (s.newPage r prof 0 a)
      (root, stOk, s.onKvm (fun _ => k.setSkein root { realm := r, prof := prof, last := root, stageFrame := b, stageGran := gs }))
    | _ => (0, s.refuse)

/-- The prefix record of a handle of a realm (R162). -/
def Kvm.prefixOf (k : Kvm) (r handle : Nat) : Option (Nat × Prefix) :=
  (k.prefixes.find? (fun p => p.2.realm == r && p.2.handle == handle))

/-- Create a skein on a prefix (R163): one SHARED entry for each owner, in chain order. -/
def State.newSkeinOn (s : State) (r prof : Nat) (p : Prefix) : Nat × Nat × State :=
  if p.prof ≠ prof then (0, stPrefixProfile, s)
  else
    let owners := (s.kvm.pages p.first).map (·.1)
    let gs := s.frameGran prof (s.profStage prof)
    if !s.profOk prof || decide (65536 ≤ s.kvm.skeins.length) || !s.grants r owners.length then (0, s.refuse)
    else match s.newFrames r [gs] [] with
      | some [b] =>
        let es := s.kvm.freeEntries owners.length
        let k := s.kvm.putChain ((es.zip owners).map (fun y =>
          (y.1, { st := .resident, sizeLog := (s.kvm.ent y.2).sizeLog, realm := r, shared := true, frame := y.2,
                  fill := (s.kvm.ent y.2).fill, lastRead := s.kvm.cur })))
        let k := owners.foldl (fun k o => k.setEnt o { k.ent o with refs := (k.ent o).refs + 1 }) k
        let root := es.headD 0
        (root, stOk, s.onKvm (fun _ =>
          k.setSkein root { realm := r, prof := prof, len := p.n, last := es.getLastD 0, stageFrame := b, stageGran := gs }))
      | _ => (0, s.refuse)

/-! ### Releasing (R157, R165, R166) -/

/-- An entry that nobody holds becomes DEFERRED: a page in memory keeps its frame until it is reclaimed, a spill slot goes at once. -/
def Kvm.defer (k : Kvm) (e : Nat) : Kvm :=
  let p := k.ent e
  k.setEnt e { p with st := .deferred, epoch := k.cur, hasFrame := p.framed, slot := 0, shared := false }

/-- Drop one hold of an owner; at 0 it becomes DEFERRED, and an owner that names an earlier owner drops that hold in turn (R165). -/
def Kvm.dropHold (k : Kvm) : Nat → Nat → Kvm
  | 0, _ => k
  | n + 1, o =>
    let p := k.ent o
    if p.refs ≤ 1 then
      let k1 := (k.setEnt o { p with refs := 0 }).defer o
      if p.shared then Kvm.dropHold k1 n p.frame else k1
    else k.setEnt o { p with refs := p.refs - 1 }

/-- Release a skein's entry. -/
def Kvm.release (k : Kvm) (e : Nat) : Kvm :=
  let p := k.ent e
  let k1 := k.defer e
  if p.shared then k1.dropHold 16 p.frame else k1

/-- Free a skein (R146, R165, R243): its entries become DEFERRED, its staging area returns with it. -/
def State.freeSkein (s : State) (root : Nat) : State :=
  s.onKvm (fun k =>
    let k1 := ((k.pages root).map (·.1)).foldl Kvm.release k
    { k1 with skeins := Tab.del root k1.skeins })

/-! ### Epochs and reclamation (R166) -/

/-- `a` counts as after `b` within the window of 32,768. -/
def epochAfter (a b : Nat) : Bool :=
  let d := (a + 65536 - b % 65536) % 65536
  decide (0 < d) && decide (d < 32768)

/-- How far the oldest running reader is behind. -/
def Kvm.lag (k : Kvm) : Nat := (k.readers.map (fun e => (k.cur + 65536 - e) % 65536)).foldl max 0

/-- KVM_EPOCH.OLDEST. -/
def Kvm.oldest (k : Kvm) : Nat := (k.cur + 65536 - k.lag) % 65536

/-- CUR may rise: no reader is 32,767 epochs behind. -/
def Kvm.mayRise (k : Kvm) : Bool := decide (k.lag < 32767)

/-- CUR rises by one; at the window limit it stops and KVM_STS.EPOCH_HOLD is set. -/
def State.epochRise (s : State) : State :=
  if s.kvm.mayRise then
    let s := s.onKvm (fun k => { k with cur := (k.cur + 1) % 65536 })
    if s.kvm.mayRise then s else s.setSts .KVM_STS [7]
  else s

/-- An operator takes the epoch it starts in. -/
def State.epochTake (s : State) : State := s.onKvm (fun k => { k with readers := k.cur :: k.readers })
def State.epochDrop (s : State) (e : Nat) : State := s.onKvm (fun k => { k with readers := k.readers.erase e })

/-- May a released entry return to the free pool? -/
def Kvm.reclaimable (k : Kvm) (p : PageEnt) : Bool :=
  (p.st == .deferred || (p.st == .evicted && p.hasFrame)) && k.readers.all (fun e => epochAfter e p.epoch)

/-- Return one entry, with its frame, to the free pool; an evicted page keeps its entry in the chain (R151). -/
def Kvm.reclaim (k : Kvm) (e : Nat) : Kvm :=
  let p := k.ent e
  if !k.reclaimable p then k
  else if p.st = .evicted then k.setEnt e { p with hasFrame := false, frame := 0, gran := 0 }
  else k.setEnt e {}

/-! ### Spilling and fetching (R155-R161) -/

/-- The device secret as bytes (R402, R406). -/
def deviceSecret : List Nat := beBytes 32 (Config.secret 0)

/-- The spill key of a realm (R402). -/
def State.spillKey (s : State) (r : Nat) : List Nat :=
  hkdf [] deviceSecret ("GYVIS-SPILL-1".toUTF8.toList.map UInt8.toNat ++ [r] ++ leBytes 8 (s.realm r).created) 32

/-- The nonce of a sealed frame: the entry index and the 32-bit spill count (R158). -/
def spillNonce (e count : Nat) : List Nat := leBytes 8 e ++ leBytes 4 count

/-- Where a spill slot lies. -/
def State.slotAddr (s : State) (r : Nat) (p : PageEnt) : Nat :=
  if p.tier = 1 then drawerBase + p.slot * 4096
  else hostBase + s.fld .KVM_RLM_HOST_LO_BASE_LO 0 r * 2 ^ 12 + s.fld .KVM_RLM_HOST_HI_BASE_HI 0 r * 2 ^ 32 + p.slot * 4096

/-- Spill slots in use: of a realm's host window (tier 0) or of the Drawer (tier 1). -/
def State.usedSlots (s : State) (r tier : Nat) : List (Nat × Nat) :=
  (s.kvm.ents.filter (fun e => (e.2.st == .spilling || e.2.st == .spilled || e.2.st == .fetching) && !e.2.shared && e.2.tier == tier
    && (tier == 1 || e.2.realm == r))).map (fun e => (e.2.slot, e.2.gran))

/-- May the realm spill to the Drawer: its bit, its grant, and a balance of the write budget (R155, R161, R417)? -/
def State.drawerOpen (s : State) (r : Nat) : Bool :=
  s.flag .KVM_RLM_SPILL_DRAWER 0 r && (s.realm r).drawer && decide (0 < s.drawer.spill)

/-- Where a frame of `n` granules spills: the tier and slot (R155). -/
def State.spillTo (s : State) (r n : Nat) : Option (Nat × Nat) :=
  let host := if s.flag .KVM_RLM_SPILL_HOST 0 r then lowestFrame (s.usedSlots r 0) (s.fld .KVM_RLM_HOST_SZ_SIZE 0 r * 16) n else none
  match host with
  | some a => some (0, a)
  | none => if s.drawerOpen r then (lowestFrame (s.usedSlots r 1) (s.fld .GLB_DRAWER_CAP * 2 ^ 18) n).map (fun a => (1, a)) else none

/-- Pages a realm may spill (R156): entry, whether its requests are paused, epochs since it was read. -/
def State.spillable (s : State) (r : Nat) : List (Nat × Bool × Nat) :=
  let lasts := s.kvm.skeins.map (fun k => k.2.last)
  let paused := ((s.kvm.skeins.filter (fun k => k.2.paused)).map (fun k => (s.kvm.pages k.1).map (·.1))).flatten
  (s.kvm.ents.filter (fun e => e.2.realm == r && e.2.st == .resident && !e.2.shared && !e.2.poison && !e.2.mapUe
      && e.2.fill == 16 * 2 ^ e.2.sizeLog && !lasts.contains e.1)).map
    (fun e => (e.1, paused.contains e.1, (s.kvm.cur + 65536 - e.2.lastRead) % 65536))

/-- Order of R156: paused requests first, then the pages not read for the most epochs, then the lowest entry. -/
def spillBefore (a b : Nat × Bool × Nat) : Bool :=
  if a.2.1 != b.2.1 then a.2.1 else if a.2.2 != b.2.2 then decide (b.2.2 < a.2.2) else decide (a.1 < b.1)

def spillFirst : List (Nat × Bool × Nat) → Option (Nat × Bool × Nat)
  | [] => none
  | a :: t => match spillFirst t with
    | none => some a
    | some b => some (if spillBefore a b then a else b)

/-- Granules that copies under way will free. -/
def State.spillingGran (s : State) (r : Nat) : Nat :=
  ((s.kvm.ents.filter (fun e => e.2.realm == r && e.2.st == .spilling)).map (fun e => e.2.gran)).sum

/-- Start spilling pages until the free granules will reach HIGH (R155-R157). -/
def State.spillPages (s : State) (r : Nat) : Nat → State
  | 0 => s
  | n + 1 =>
    if s.poolSize r * s.fld .KVM_RLM_SPILL_HIGH 0 r ≤ 256 * (s.freeGran r + s.spillingGran r) then s
    else match spillFirst (s.spillable r) with
      | none => s
      | some c =>
        let p := s.kvm.ent c.1
        match s.spillTo r p.gran with
        | none => s
        | some t => (s.onKvm (fun k => k.setEnt c.1 { p with st := .spilling, tier := t.1, slot := t.2 })).spillPages r n

/-- A frame for a fetch: the reserve may supply it (R160). -/
def State.fetchFrame (s : State) (r n : Nat) : Option Nat := lowestFrame (s.usedFrames r) (s.poolSize r) n

/-- Start fetching a SPILLED page (R157); false when no frame is found (R160). -/
def State.startFetch (s : State) (e : Nat) : Bool × State :=
  let p := s.kvm.ent e
  if p.st ≠ .spilled then (true, s)
  else match s.fetchFrame p.realm p.gran with
    | some f => (true, s.onKvm (fun k => k.setEnt e { p with st := .fetching, frame := f }))
    | none => (false, s)

/-- Start fetching the pages that a reader waits for; false when one finds no frame: KVM_STS.NOFRAME. -/
def State.fetchAll (s : State) (es : List Nat) : Bool × State :=
  let r := es.foldl (fun (a : Bool × State) e => let b := a.2.startFetch e; (a.1 && b.1, b.2)) (true, s)
  if r.1 then r else (false, r.2.setSts .KVM_STS [5])

/-- Look-ahead fetches (R159): the pages that follow the last page read, without a status when no frame is free. -/
def State.prefetch (s : State) (root : Nat) (read : List Nat) : State :=
  if !s.flag .KVM_CTRL_PREFETCH_EN then s
  else
    let ps := (s.kvm.pages root).map (fun y => s.kvm.owner 16 y.1)
    let last := (ps.zipIdx.filter (fun y => read.contains y.1)).foldl (fun m y => max m (y.2 + 1)) 0
    (((ps.drop last).take (s.fld .KVM_CTRL_PREFETCH_PAGES))).foldl (fun s e => (s.startFetch e).2) s

/-- FWU_DRAWER_WR and FWU_DRAWER_LEFT follow the write budget. -/
def State.drawerShow (s : State) : State :=
  let g := fun (n : Nat) => n / 2 ^ 30
  ((s.setFld .FWU_DRAWER_WR_GIB (satAt 0xFFFFFFFF (g s.drawer.written))).setFld .FWU_DRAWER_LEFT_SPILL_GIB (satAt 0xFFFF (g s.drawer.spill))).setFld
    .FWU_DRAWER_LEFT_MODEL_GIB (satAt 0xFFFF (g s.drawer.model))

/-- Charge a Drawer write to spilling (R417); at zero the hub stops spilling there and FWU_STS.SPILL_STOP is set. -/
def State.chargeSpill (s : State) (n : Nat) : State :=
  let s1 := ({ s with drawer := { s.drawer with spill := s.drawer.spill - n, written := s.drawer.written + n } } : State).drawerShow
  if s.drawer.spill ≠ 0 ∧ s1.drawer.spill = 0 then s1.setSts .FWU_STS [5] else s1

/-- A spill copy completes (R157, R158, R417). -/
def State.spillDone (s : State) (e : Nat) : State :=
  let p := s.kvm.ent e
  if p.st ≠ .spilling then s
  else
    let n := p.gran * 4096
    let count := s.kvm.spills % 2 ^ 32
    let c := gcmSeal (s.spillKey p.realm) (spillNonce e count) [] (s.bytes (s.frameAddr p.realm p.frame) n)
    let s := s.store (s.slotAddr p.realm p) c.1
    let s := s.onKvm (fun k => { k.setEnt e { p with st := .spilled, tag := c.2, spillCount := count, sealedBy := e, frame := 0 } with
                                 spills := k.spills + 1 })
    let s := s.bumpWrap .KVM_PERF_SPILL_COUNT 1
    if p.tier = 1 then s.chargeSpill n else s

/-- KVM_ERR_ENTRY keeps the first entry found uncorrectable or poisoned. -/
def State.errEntry (s : State) (e : Nat) : State :=
  if s.flag .KVM_ERR_ENTRY_VALID then s else (s.setFld .KVM_ERR_ENTRY_ENTRY e).setFld .KVM_ERR_ENTRY_VALID 1

/-- A fetch copy completes (R157, R158): a frame whose tag fails is RESIDENT and poisoned. -/
def State.fetchDone (s : State) (e wait : Nat) : State :=
  let p := s.kvm.ent e
  if p.st ≠ .fetching then s
  else
    let n := p.gran * 4096
    let src := s.slotAddr p.realm p
    let s := (s.bumpWrap .KVM_PERF_FETCH_COUNT 1).bumpWrap .KVM_PERF_FETCH_WAIT_COUNT wait
    match if s.mem.isBad src n then none
          else gcmOpen (s.spillKey p.realm) (spillNonce p.sealedBy p.spillCount) [] (s.bytes src n) p.tag with
    | some d => (s.store (s.frameAddr p.realm p.frame) d).onKvm (fun k => k.setEnt e { p with st := .resident, slot := 0, lastRead := k.cur })
    | none =>
      let s := s.onKvm (fun k => k.setEnt e { p with st := .resident, slot := 0, poison := true, lastRead := k.cur })
      (s.errEntry e).setSts .KVM_STS [3]

/-! ### Poison (R169, R170) -/

/-- The hub finds an entry uncorrectable (R169): it is recorded and reported when it is first found. -/
def State.mapFault (s : State) (e : Nat) : State :=
  let p := s.kvm.ent e
  if p.mapSeen then s
  else (((s.onKvm (fun k => k.setEnt e { p with mapSeen := true })).errEntry e).setSts .KVM_STS [1]).reportMod 2 0x0006 [p.realm] e

/-- A frame read returns an uncorrectable line (R170). -/
def State.frameFault (s : State) (e : Nat) (line : Nat) : State :=
  let p := s.kvm.ent e
  if p.poison then s
  else
    let s := if e = 0 then s else (s.onKvm (fun k => k.setEnt e { p with poison := true })).errEntry e
    (s.setSts .KVM_STS [2]).reportMod 2 0x0007 (if e = 0 then [] else [p.realm]) line

/-! ### SCATTER_KV (R148-R153, R164) -/

/-- The staged rows a SCATTER_KV takes (R148); none when its form fails check 1 of R149. -/
def scatterRows (k : Skein) (path : Bool) (count : Nat) (nodes : List Nat) : Option (List Nat) :=
  if path then
    if decide (1 ≤ nodes.length) && decide (nodes.length ≤ 16) && nodes.all (fun n => decide (n < k.staged))
        && (nodes.zip (nodes.drop 1)).all (fun y => k.parents.getD y.2 0xFF == y.1 && decide (y.1 < y.2))
    then some nodes else none
  else if count ≤ k.staged then some (List.range count) else none

/-- Pages that a skein of a profile needs for a length (page 0 is always there). -/
def State.pagesFor (s : State) (prof len : Nat) : Nat → Nat → Nat → Nat
  | 0, i, _ => i
  | fuel + 1, i, cap => if len ≤ cap ∧ 1 ≤ i then i else s.pagesFor prof len fuel (i + 1) (cap + s.pageTokens prof i)

def State.pageCount (s : State) (prof len : Nat) : Nat := s.pagesFor prof len 32800 0 0

/-- Copy `n` bytes; each destination word that takes a byte of an uncorrectable word is uncorrectable too. -/
def Mem.copy (m : Mem) (src dst n : Nat) : Mem :=
  (m.bad.filter (touchesWord src n)).foldl (fun m k =>
      let lo := max (8 * k) src - src + dst
      let hi := min (8 * k + 8) (src + n) - src + dst
      (m.spoil (lo / 8)).spoil ((hi - 1) / 8))
    (m.store dst (m.cells.bytes src n))

/-- The address of a row of a page (R142). -/
def State.pageRow (s : State) (e plane off rb : Nat) : Nat :=
  let p := s.kvm.ent e
  s.frameAddr p.realm p.frame + (plane * (16 * 2 ^ p.sizeLog) + off) * rb

/-- The score decay before eviction (R153). -/
def State.decay (s : State) (root prof : Nat) : State :=
  let d := s.fld .KVM_PROF_POLICY_DECAY 0 prof
  if d = 0 then s
  else s.onKvm (fun k => ((k.pages root).map (·.1)).foldl (fun k e => k.setEnt e { k.ent e with score := (k.ent e).score - (k.ent e).score / 2 ^ d }) k)

/-- One eviction (R151, R152): the unprotected page with the lowest SCORE, lowest position first; none when the rule keeps all. -/
def State.evictNext (s : State) (root : Nat) (k : Skein) : Option Nat :=
  let ps := s.kvm.pages root
  let size := fun (e : Nat) => 16 * 2 ^ (s.kvm.ent e).sizeLog
  let live := ps.filter (fun y => (s.kvm.ent (s.kvm.owner 16 y.1)).st != .evicted)
  let tokens := (live.map (fun y => min (size y.1) (k.len - y.2))).sum
  let recent := 16 * s.fld .KVM_PROF_POLICY_RECENT 0 k.prof
  if tokens ≤ 16 * s.fld .KVM_PROF_KEEP_KEEP 0 k.prof then none
  else
    let last := (ps.getLastD (0, 0)).1
    let cand := live.filter (fun y => y.2 != 0 && y.1 != last && decide (y.2 + size y.1 + recent ≤ k.len))
    (cand.foldl (fun (m : Option (Nat × Nat)) y => match m with
      | none => some y
      | some z => if (s.kvm.ent y.1).score < (s.kvm.ent z.1).score then some y else some z) none).map (·.1)

/-- Evict one page: its entry stays in the chain, its frame or hold is released (R151, R157). -/
def Kvm.evict (k : Kvm) (e : Nat) : Kvm :=
  let p := k.ent e
  let k1 := k.setEnt e { p with st := .evicted, epoch := k.cur, hasFrame := p.framed, slot := 0, shared := false,
                                frame := if p.shared then 0 else p.frame }
  if p.shared then k1.dropHold 16 p.frame else k1

def State.evictAll (s : State) (root : Nat) (k : Skein) : Nat → State
  | 0 => s
  | n + 1 => match s.evictNext root k with
    | none => s
    | some e => ((s.onKvm (fun m => m.evict e)).setSts .KVM_STS [6]).evictAll root k n

/-- SCATTER_KV (R148-R150, R164): all or nothing; answers the status. -/
def State.scatterKv (s : State) (root : Nat) (path : Bool) (count : Nat) (nodes : List Nat) : Nat × State :=
  match s.kvm.skein root with
  | none => (stDescAccess, s)
  | some k =>
    match scatterRows k path count nodes with
    | none => (stTreePath, s)
    | some rows =>
      let n := rows.length
      if 524288 < k.len + n then (stKvLimit, s)
      else
        let ps := s.kvm.pages root
        match ps.find? (fun y => (s.kvm.ent y.1).mapUe) with
        | some y => (stKvPoison, s.mapFault y.1)
        | none =>
          let have_ := ps.length
          let want := max have_ (s.pageCount k.prof (k.len + n))
          let idxs := (List.range (want - have_)).map (have_ + ·)
          let size := fun (e : Nat) => 16 * 2 ^ (s.kvm.ent e).sizeLog
          -- the pages written that are SHARED take a private frame first (R164)
          let cow := if n = 0 then [] else (ps.filter (fun y => decide (k.len < y.2 + size y.1) && (s.kvm.ent y.1).shared)).map (·.1)
          let grans := idxs.map (fun i => s.frameGran k.prof (s.pageTokens k.prof i)) ++ cow.map (fun e => s.frameGran k.prof (size e))
          let promised := k.promise - have_
          if !s.grants k.realm (idxs.length - promised) then s.refuse
          else match s.newFrames k.realm grans [] with
            | none => s.refuse
            | some fs =>
              let es := s.kvm.freeEntries idxs.length
              let rb := s.profRow k.prof
              let planes := s.profPlanes k.prof
              -- private copies of the owners' rows
              let copyOne := fun (s : State) (y : Nat × Nat) =>
                let o := s.kvm.owner 16 y.1
                let p := s.kvm.ent y.1
                let fill := (s.kvm.ent o).fill
                let src := fun (pl t : Nat) => s.pageRow o pl t rb
                let dst := fun (pl t : Nat) => s.frameAddr k.realm y.2 + (pl * (16 * 2 ^ p.sizeLog) + t) * rb
                let m := (List.range planes).foldl (fun m pl => (List.range fill).foldl (fun m t => Mem.copy m (src pl t) (dst pl t) rb) m) s.mem
                let s := { s with mem := m }
                let s := s.onKvm (fun q =>
                  (q.setEnt y.1 { p with shared := false, frame := y.2, gran := s.frameGran k.prof (16 * 2 ^ p.sizeLog), fill := fill, poison := (s.kvm.ent o).poison }).dropHold 16 p.frame)
                s.bumpWrap .KVM_PERF_COW_COUNT 1
              let s := (cow.zip (fs.drop idxs.length)).foldl copyOne s
              -- the new pages at the end of the chain
              let news := (es.zip (idxs.zip fs)).map (fun y => (y.1, s.newPage k.realm k.prof y.2.1 y.2.2))
              let s := s.onKvm (fun q => (match es with
                | [] => q
                | e :: _ => q.setEnt k.last { q.ent k.last with nxt := e }).putChain news)
              let ps := s.kvm.pages root
              -- the staged rows, in order, at positions LEN onwards
              let stage := fun (pl t : Nat) => s.frameAddr k.realm k.stageFrame + (pl * s.profStage k.prof + t) * rb
              let place := fun (s : State) (y : Nat × Nat) =>
                let pos := k.len + y.2
                match (ps.filter (fun z => decide (z.2 ≤ pos))).getLast? with
                | none => s
                | some z => { s with mem := (List.range planes).foldl (fun m pl => Mem.copy m (stage pl y.1) (s.pageRow z.1 pl (pos - z.2) rb) rb) s.mem }
              let badStage := rows.any (fun t => (List.range planes).any (fun pl => s.mem.isBad (stage pl t) rb))
              let s := rows.zipIdx.foldl place s
              let s := if badStage then s.frameFault 0 (s.badLine (stage 0 0) (planes * s.profStage k.prof * rb)) else s
              -- one page-map update (R150)
              let len := k.len + n
              let k' : Skein := { k with len := len, staged := 0, last := (es.getLast?).getD k.last, parents := [] }
              let s := s.onKvm (fun q =>
                (ps.foldl (fun q z =>
                  let p := q.ent z.1
                  if p.shared then q else q.setEnt z.1 { p with fill := max p.fill (min (16 * 2 ^ p.sizeLog) (len - z.2)) }) q).setSkein root k')
              let s := s.decay root k.prof
              (stOk, if s.flag .KVM_PROF_POLICY_EVICT 0 k.prof then s.evictAll root k' ps.length else s)

/-! ### Prefixes (R162, R165) -/

/-- May a prefix of `n` tokens of a skein be registered (R162)? -/
def State.prefixAligned (s : State) (root : Nat) (k : Skein) (n : Nat) : Bool :=
  decide (1 ≤ n) && decide (n ≤ k.len) && k.staged == 0
    && (n == k.len || (s.kvm.pages root).any (fun y => y.2 == n))

/-- Register a prefix: owner entries take the pages' frames, and the skein's entries become SHARED (R162). -/
def State.prefixRegister (s : State) (root n handle : Nat) : Nat × State :=
  match s.kvm.skein root with
  | none => (stNotFound, s)
  | some k =>
    if !s.prefixAligned root k n then (stPrefixAlign, s)
    else
      let ps := (s.kvm.pages root).filter (fun y => decide (y.2 < n))
      match Tab.freeKey s.kvm.prefixes 4096 0, s.grants k.realm ps.length with
      | some id, true =>
        let es := s.kvm.freeEntries ps.length
        let owners := (es.zip ps).map (fun y =>
          let p := s.kvm.ent y.2.1
          (y.1, { p with owner := true, fill := min (16 * 2 ^ p.sizeLog) (n - y.2.2), refs := 2 }))
        let q := s.kvm.putChain owners
        let q := (es.zip ps).foldl (fun q y =>
          let p := q.ent y.2.1
          q.setEnt y.2.1 { p with shared := true, frame := y.1, gran := 0, st := .resident, poison := false, slot := 0, spillCount := 0, tag := [] }) q
        (stOk, s.onKvm (fun _ => { q with prefixes := Tab.put id { realm := k.realm, handle := handle, prof := k.prof, n := n, first := es.headD 0 } q.prefixes }))
      | _, _ => s.refuse

/-- Release a prefix handle's hold on its owners (R165). -/
def State.prefixDrop (s : State) (id : Nat) (p : Prefix) : State :=
  s.onKvm (fun k =>
    let k1 := ((k.pages p.first).map (·.1)).foldl (fun k o => k.dropHold 16 o) k
    { k1 with prefixes := Tab.del id k1.prefixes })

end Sys2Proof.Machine
end

