-- ==== Sys2Proof/Machine/Arith.lean ====
section
/-! DEFINITION. Exact accumulation, the drain and its conversions, RAW entries, and what an operator answers (R18-R34, R190, R191, R333, R523-R525, R529). -/

namespace Sys2Proof.Machine

/-! ### The counter-based generator (R333) -/

def genRounds : Nat → Nat → Nat → Nat → Nat → Nat → Nat → Nat
  | 0, x0, _, _, _, _, _ => x0
  | k + 1, x0, x1, x2, x3, k0, k1 =>
    let p := 0xD2B74407 * x0
    let q := 0xA4F036E1 * x2
    genRounds k (Nat.xor (Nat.xor (q / 2 ^ 32) x1) k0) (q % 2 ^ 32) (Nat.xor (Nat.xor (p / 2 ^ 32) x3) k1) (p % 2 ^ 32)
      ((k0 + 0x9E3779B9) % 2 ^ 32) ((k1 + 0x6A09E667) % 2 ^ 32)

/-- The generator output g of R333. -/
def gen (seed stream pos : Nat) : Nat :=
  genRounds 10 (pos % 2 ^ 32) (pos / 2 ^ 32 % 2 ^ 32) (stream % 2 ^ 16) 0x6779 (seed % 2 ^ 32) (seed / 2 ^ 32 % 2 ^ 32)

/-- The rounding of the element at a position (R33, R34). -/
def OpCtx.rnd (x : OpCtx) (pos : Nat) : Rnd := if x.stochastic then .sto (gen x.seed x.stream pos % 65536) else .rne

/-! ### Accumulators (R18-R22, R25, R27) -/

/-- The accumulator form of an operand pair (R18, R20): its bits and the weight of its least significant bit, MX, or FP32. -/
inductive AccKind where
  | fixed (width : Nat) (grid : Int)
  | mx (q : Int)
  | f32
  deriving DecidableEq, Repr

/-- The accumulator of an operand pair; none for a pair that R18 does not list. -/
def pairKind (a b : Nat) : Option AccKind :=
  if a ≤ 3 ∧ b ≤ 3 then some (.fixed 32 0)
  else if elemIsFp8 a ∧ elemIsFp8 b then (if a = 4 ∧ b = 4 then some (.fixed 64 (-18)) else some (.fixed 80 (-32)))
  else if elemIsMx a ∧ elemIsMx b then
    match elemFmt a, elemFmt b with
    | some f, some g => some (.mx (f.grid + g.grid))
    | _, _ => none
  else if (a = 11 ∧ b = 11) ∨ (a = 12 ∧ b = 12) then some .f32
  else none

/-- Depth of a pass (R18). -/
def pairDepth (a b : Nat) : Nat :=
  if a = 11 ∨ a = 12 then 64
  else if ((a = 2 ∨ a = 3) ∧ (b = 2 ∨ b = 3)) ∨ (a = 10 ∧ b = 10) then 256
  else 128

/-- An accumulator entry: its value in units of its grid, the reference exponent of MX, that of a first block of zero elements (R25, R89), the
three flags of R22, the FP32 sum of a 16-bit pair, the saturation mark of R21 and the poison mark of R46. -/
structure Acc where
  v : Int := 0
  eref : Option Int := none
  eref0 : Option Int := none
  nan : Bool := false
  pinf : Bool := false
  ninf : Bool := false
  fp : Nat := 0
  sat : Bool := false
  p : Bool := false
  deriving DecidableEq, Repr

/-- A value held in `w` bits of two's complement, saturated (R21). -/
def satSigned (w : Nat) (v : Int) : Int × Bool := (⟨true, w⟩ : IntFmt).clamp v

/-- The sum of exact products in units of 2^g with the flags of R22. -/
def sumProducts (g : Int) (l : List XV) : Acc :=
  l.foldl (fun a x => match x with
    | .nan => { a with nan := true }
    | .inf true => { a with ninf := true }
    | .inf false => { a with pinf := true }
    | .num n m e => { a with v := a.v + unitsOf n m e g }) {}

def Acc.orFlags (a b : Acc) : Acc :=
  { a with nan := a.nan || b.nan, pinf := a.pinf || b.pinf, ninf := a.ninf || b.ninf, p := a.p || b.p, sat := a.sat || b.sat }

/-- One pass into a fixed-point accumulator (R20, R21). -/
def Acc.addFixed (w : Nat) (a b : Acc) : Acc :=
  let c := satSigned w (a.v + b.v)
  { a.orFlags b with v := c.1, sat := a.sat || b.sat || c.2 }

/-- Round an integer count of units to a grid 2^d units coarser, to nearest even. -/
def rneShift (v : Int) (d : Nat) : Int :=
  let q : Int := (roundAt .rne v.natAbs 0 d : Nat)
  if v < 0 then -q else q

/-- One block join of R25: `v` counts units of 2^(sb − 16 + q) when `fine`, else of 2^(sb + q). -/
def Acc.join (a : Acc) (sb : Int) (v : Int) : Acc :=
  match a.eref with
  | none =>
    let c := satSigned 128 (v * 65536)
    { a with eref := some sb, v := c.1, sat := a.sat || c.2 }
  | some e =>
    if sb > e + 16 then
      let c := satSigned 128 (rneShift a.v (sb - e).toNat + v * 65536)
      { a with eref := some sb, v := c.1, sat := a.sat || c.2 }
    else
      -- the block's scaled sum on the accumulator's grid: 2^(sb + q) is 2^(16 + sb − e) units
      let b := if 0 ≤ 16 + sb - e then v * (2 ^ (16 + sb - e).toNat : Nat) else rneShift v (e - 16 - sb).toNat
      let c := satSigned 128 (a.v + b)
      { a with v := c.1, sat := a.sat || c.2 }

/-- The exact value of an accumulator at the drain (R22). -/
def Acc.value (k : AccKind) (a : Acc) : XV :=
  match k with
  | .f32 => f32V a.fp
  | _ =>
    if a.nan || (a.pinf && a.ninf) then .nan
    else if a.pinf then .inf false
    else if a.ninf then .inf true
    else match k with
      | .fixed _ g => .ofInt a.v g
      | .mx q => .ofInt a.v ((a.eref.getD 0) - 16 + q)
      | .f32 => f32V a.fp

/-- Chunks of a list. -/
def chunksAux {α : Type} (n : Nat) : Nat → List α → List (List α)
  | 0, _ => []
  | _, [] => []
  | k + 1, l => l.take n :: chunksAux n k (l.drop n)

def chunks {α : Type} (n : Nat) (l : List α) : List (List α) := chunksAux n l.length l

/-- One operand vector along the contraction axis with its format. -/
structure Vec where
  elem : Nat
  row : ORow
  deriving DecidableEq, Repr

/-- Products of two element lists with the poison of either side. -/
def products (ea eb : Nat) (a b : List El) : List XV × Bool :=
  ((a.zip b).map (fun y => (elemVal ea y.1.code).mul (elemVal eb y.2.code)), (a.zip b).any (fun y => y.1.p || y.2.p))

/-- A block whose elements are all zero (R89). -/
def zeroBlock (e : Nat) (l : List El) : Bool := l.all (fun y => (elemVal e y.code).isZero)

/-- One entry of a contraction into an accumulator: passes in ascending order (R24), MX blocks (R25, R26), or groups of 64 (R27). -/
def Acc.entry (k : AccKind) (depth : Nat) (acc : Acc) (a b : Vec) : Acc :=
  match k with
  | .fixed w g =>
    ((chunks depth a.row.els).zip (chunks depth b.row.els)).foldl (fun acc y =>
      let pr := products a.elem b.elem y.1 y.2
      acc.addFixed w { sumProducts g pr.1 with p := pr.2 }) acc
  | .f32 =>
    ((chunks 64 a.row.els).zip (chunks 64 b.row.els)).foldl (fun acc y =>
      let pr := products a.elem b.elem y.1 y.2
      let t := f32Keep (pr.1.foldl XV.add (.num false 0 0))
      { acc with fp := f32Keep ((f32V acc.fp).add (f32V t)), p := acc.p || pr.2 }) acc
  | .mx q =>
    let blocks := ((chunks 32 a.row.els).zip (chunks 32 b.row.els)).zip (a.row.scales.zip b.row.scales)
    blocks.foldl (fun acc y =>
      match y.2 with
      | (some xa, some xb) =>
        let pr := products a.elem b.elem y.1.1 y.1.2
        let t := sumProducts q pr.1
        let nan := xa.code == 0xFF || xb.code == 0xFF
        let acc := acc.orFlags { t with nan := t.nan || nan, p := pr.2 || xa.p || xb.p }
        let sb : Int := (xa.code : Int) - 127 + ((xb.code : Int) - 127)
        -- a block of zero elements never changes an accumulator, whatever its scale (R89); a NaN block gives only its flag
        if nan then acc
        else if zeroBlock a.elem y.1.1 || zeroBlock b.elem y.1.2 then { acc with eref0 := acc.eref0.or (some sb) }
        else acc.join sb t.v
      | _ => acc) acc

/-! ### Partial sums (R28, R523-R525) -/

/-- Bytes of a RAW entry: 0 integer, 1 E4M3, 2 E5M2, 3 MX. -/
def rawBytes : Nat → Nat
  | 0 => 4
  | 1 => 8
  | 2 => 10
  | _ => 20

/-- The RAW form of an accumulator kind. -/
def AccKind.rawForm : AccKind → Option Nat
  | .fixed 32 _ => some 0
  | .fixed 64 _ => some 1
  | .fixed _ _ => some 2
  | .mx _ => some 3
  | .f32 => none

/-- The accumulator bits of a RAW form. -/
def rawWidth : Nat → Nat
  | 0 => 32
  | 1 => 64
  | 2 => 80
  | _ => 128

/-- The value field's bits of a RAW form (R524). -/
def rawField : Nat → Nat
  | 0 => 32
  | 1 => 61
  | 2 => 77
  | _ => 128

/-- E_ref of an entry: of its first block whose elements are not all zero, or of its first block when there is none (R25, R89). -/
def Acc.ref (a : Acc) : Int := (a.eref.or a.eref0).getD 0

/-- A RAW entry as bytes, with the mark of a value that did not fit (R524). -/
def rawEncode (form : Nat) (a : Acc) : List Nat × Bool :=
  let w := rawField form
  let c := satSigned w a.v
  let v := ofSigned w c.1
  let fl := b2n a.nan + 2 * b2n a.pinf + 4 * b2n a.ninf
  (leBytes (rawBytes form)
    (if form = 0 then v else if form = 3 then v + ofSigned 16 a.ref * 2 ^ 128 + fl * 2 ^ 144 else v + fl * 2 ^ w), c.2)

/-- A RAW entry read back (R524). -/
def rawDecode (form : Nat) (bs : List Nat) (p : Bool) : Acc :=
  let n := leNum bs
  let w := rawField form
  let fl := if form = 0 then 0 else if form = 3 then bits n 144 3 else bits n w 3
  { v := toSigned w n, eref := if form = 3 then some (toSigned 16 (bits n 128 16)) else none,
    nan := bit fl 0, pinf := bit fl 1, ninf := bit fl 2, p := p }

/-- The combination of a RAW entry into a target (R523), integer and FP8 forms. -/
def rawCombine (form : Nat) (t c : Acc) : Acc := t.addFixed (rawWidth form) c

/-- The MX combination of R523: one block join with the incoming E_ref and value. -/
def mxCombine (t c : Acc) : Acc :=
  let u := t.orFlags c
  if t.v = 0 ∧ !t.nan ∧ !t.pinf ∧ !t.ninf then { u with v := c.v, eref := some c.ref }
  else
    let et := t.ref
    let ec := c.ref
    if ec > et + 16 then
      let r := satSigned 128 (rneShift t.v (ec - et).toNat + c.v)
      { u with v := r.1, eref := some ec, sat := u.sat || r.2 }
    else
      let b := if et ≤ ec then c.v * (2 ^ (ec - et).toNat : Nat) else rneShift c.v (et - ec).toNat
      let r := satSigned 128 (t.v + b)
      { u with v := r.1, eref := some et, sat := u.sat || r.2 }

/-! ### The conversion record and the drain (R23, R29-R32, R191) -/

/-- A conversion record (R191). -/
structure Cvt where
  outFmt : Nat
  mxAxis : Nat
  shift : Nat
  biasFmt : Nat
  mult : Int
  zp : Int
  biasBase : Nat
  reserved : Bool
  multRaw : Nat
  zpRaw : Nat
  deriving DecidableEq, Repr

def Cvt.parse (b : List Nat) : Cvt :=
  { outFmt := fieldOf b 0 1, mxAxis := fieldOf b 1 1, shift := fieldOf b 2 1, biasFmt := fieldOf b 3 1,
    mult := toSigned 32 (fieldOf b 4 4), zp := toSigned 32 (fieldOf b 8 4), biasBase := fieldOf b 16 8,
    reserved := fieldOf b 12 4 == 0 && fieldOf b 24 8 == 0, multRaw := fieldOf b 4 4, zpRaw := fieldOf b 8 4 }

/-- Formats that the drain writes (R29). -/
def drainFmt (e : Nat) : Bool := decide (e ≤ 14)

/-- Ranges of a conversion record for an accumulator (R191); `intAcc` says that the accumulator is an integer one. -/
def Cvt.ok (c : Cvt) (intAcc : Bool) : Bool :=
  drainFmt c.outFmt && decide (c.mxAxis ≤ 1) && (elemIsMx c.outFmt || c.mxAxis == 0) && c.reserved && decide (c.shift ≤ 63)
  && (match elemInt c.outFmt with
      | some f => decide (f.lo ≤ c.zp) && decide (c.zp ≤ f.hi)
      | none => c.multRaw == 0 && c.shift == 0 && c.zpRaw == 0)
  && (c.biasFmt == 0 || (c.biasFmt == 14 && intAcc) || ((c.biasFmt == 13 || c.biasFmt == 11) && !intAcc))
  && (c.biasFmt != 0 || c.biasBase == 0)

/-- The bias array lies in its store (R191). -/
def State.biasOk (s : State) (x : OpCtx) (c : Cvt) (n : Nat) : Bool :=
  c.biasFmt == 0 || (s.local x c.biasBase (ceilDiv (n * elemBits c.biasFmt) 8)).isSome

/-- The biases of the output columns. -/
def State.biases (s : State) (x : OpCtx) (c : Cvt) (n : Nat) : List El :=
  if c.biasFmt = 0 then List.replicate n ⟨0, false⟩
  else match s.local x c.biasBase (ceilDiv (n * elemBits c.biasFmt) 8) with
    | some a => s.readEls a (elemBits c.biasFmt) n
    | none => List.replicate n ⟨0, false⟩

/-- An exact value with its bias added (R23). -/
def Cvt.biased (c : Cvt) (v : XV) (b : El) : XV := if c.biasFmt = 0 then v else v.add (elemVal c.biasFmt b.code)

/-- One output element other than MX (R23, R29, R30, R32, R518). -/
def Cvt.convert (c : Cvt) (intAcc : Bool) (rnd : Rnd) (ovfSat : Bool) (v : XV) : Nat × CvtFlags :=
  match elemInt c.outFmt with
  | some f => if intAcc && c.outFmt == 14 then f.encode rnd 1 0 0 v else f.encode rnd c.mult c.shift c.zp v
  | none => match elemFmt c.outFmt with
    | some f => f.encode rnd ovfSat v
    | none => (0, {})

/-- e_max of R31. -/
def mxEmax : Nat → Int
  | 6 => 8
  | 7 => 15
  | 8 => 4
  | _ => 2

def XV.maxMag (l : List XV) : Option (Nat × Int) :=
  l.foldl (fun a x => match x with
    | .num _ m e => if m = 0 then a else match a with
        | none => some (m, e)
        | some (n, f) => if (XV.num false n f).lt (.num false m e) then some (m, e) else a
    | _ => a) none

/-- The conversion of one MX block (R31): element codes, the scale byte, and the flags. -/
def mxBlock (e : Nat) (ovfSat : Bool) (l : List (XV × Rnd)) : List Nat × Nat × CvtFlags :=
  match elemFmt e with
  | none => ([], 0, {})
  | some f =>
    let vs := l.map (·.1)
    let nanBlock : List Nat × Nat := (l.map (fun _ => 0), 0xFF)
    let elems := fun (scale : Int) =>
      l.map (fun y => match y.1 with
        | .num n m k =>
          let mag := f.roundMag y.2 m (k - scale)
          -- the quotient reaches 2^(e_max + 1) only when the scale was clamped
          (f.signed n (min mag f.maxCode), decide (m ≠ 0) && decide (mxEmax e + 1 ≤ ilog2 m (k - scale)))
        | .inf n => if f.kind = FmtKind.ieee && !ovfSat then (f.signed n (f.maxCode + 1), true) else (f.signed n f.maxCode, true)
        | .nan => (0, false))
    if vs.any (fun v => v == .nan) then (nanBlock.1, nanBlock.2, ⟨true, false⟩)
    else if vs.any (fun v => match v with | .inf _ => true | _ => false) then
      if !ovfSat && f.kind != FmtKind.ieee then (nanBlock.1, nanBlock.2, ⟨true, true⟩)
      else
        let r := elems 127
        (r.map (·.1), 0xFE, ⟨false, r.any (·.2)⟩)
    else match XV.maxMag vs with
      | none => (vs.map (fun _ => 0), 0, {})
      | some (m, k) =>
        let s := max (-127) (min 127 (ilog2 m k - mxEmax e))
        let r := elems s
        (r.map (·.1), (s + 127).toNat, ⟨false, r.any (·.2)⟩)

/-! ### What an operator answers -/

/-- One run of bytes that an operator writes, with the words that take the poison code. -/
structure WriteOut where
  addr : Nat
  bytes : List Nat
  poison : List Nat := []
  deriving DecidableEq, Repr

/-- The effect of an operator before the cluster applies it. -/
structure OpRes where
  status : Nat := 0
  writes : List WriteOut := []
  accSat : Bool := false
  nanOut : Bool := false
  cvtOvf : Bool := false
  counts : List Nat := [0, 0, 0, 0]
  /-- Uncorrectable words of the tile or cluster store that were read (R46). -/
  ue : List Nat := []
  /-- Page-map entries read, waited for, and broken or poisoned (0 the staging area), those with the line of the frame. -/
  pages : List Nat := []
  waits : List Nat := []
  kvPoison : List (Nat × Nat) := []
  /-- Score credits by entry (R153). -/
  credits : List (Nat × Nat) := []
  /-- Parent arrays of the staged trees by root (R139, R148). -/
  trees : List (Nat × List Nat) := []
  /-- The thin-channel engine ran it, and its argmax met an all-NaN pixel (R101, R104). -/
  argNan : Bool := false
  /-- A KV access outside the realm, reported as CONTAINED besides the status (R59, R393). -/
  access : Bool := false
  recomp : Nat := 0
  deriving DecidableEq, Repr

def OpRes.fail (st : Nat) : OpRes := { status := st, access := st == stIdxAccess }

/-- The words that a byte range touches. -/
def wordsOf (a n : Nat) : List Nat := (List.range (n / 8 + 2)).filterMap (fun i => if touchesWord a n (a / 8 + i) then some (a / 8 + i) else none)

/-- One element of an output: its code and mark. -/
def rowWrite (a eb : Nat) (cs : List El) : WriteOut :=
  { addr := a, bytes := packCodes eb (cs.map El.code),
    poison := (cs.zipIdx.map (fun e => if e.1.p then wordsOf (a + e.2 * eb / 8) (ceilDiv (e.2 * eb % 8 + eb) 8) else [])).flatten }

/-- The address of an output row. -/
def State.outRow (s : State) (x : OpCtx) (o : Isd) (r : Nat) : Nat := (s.place x o.src (o.dataBase + r * o.rowStride) o.rowBytes).getD 0

/-- Poison-marked values to be converted. -/
structure Cell where
  v : XV
  p : Bool := false
  deriving DecidableEq, Repr

/-- Groups of a matrix of cells that form MX blocks, with the index of their scale (R31, R529). -/
def mxGroups (axis m n : Nat) : List (List (Nat × Nat) × Nat) :=
  if axis = 0 then
    ((List.range m).map (fun r => (List.range (ceilDiv n 32)).map (fun b =>
      ((List.range (min 32 (n - 32 * b))).map (fun i => (r, 32 * b + i)), r * ceilDiv n 32 + b)))).flatten
  else
    ((List.range (ceilDiv m 32)).map (fun rb => (List.range n).map (fun c =>
      ((List.range (min 32 (m - 32 * rb))).map (fun i => (32 * rb + i, c)), rb * n + c)))).flatten

def cellAt (cells : List (List Cell)) (r c : Nat) : Cell := (cells.getD r []).getD c { v := .num false 0 0 }

/-- A converted matrix: rows of marked codes, for MX the scales by index, and the flags. -/
structure Conv where
  rows : List (List El)
  scales : List (Nat × El) := []
  nan : Bool := false
  ovf : Bool := false
  deriving DecidableEq, Repr

/-- Convert a matrix of exact values, biases added, through the drain (R23, R29-R32). `pos r` is the logical index of element
(r, 0) in the whole tensor (R33). -/
def convertCells (x : OpCtx) (c : Cvt) (intAcc : Bool) (cells : List (List Cell)) (bs : List El) (pos : Nat → Nat) : Conv :=
  let n := (cells.headD []).length
  let val := fun (r k : Nat) => c.biased (cellAt cells r k).v (bs.getD k ⟨0, false⟩)
  let mark := fun (r k : Nat) => (cellAt cells r k).p || (bs.getD k ⟨0, false⟩).p
  let rnd := fun (r k : Nat) => x.rnd (pos r + k)
  if elemIsMx c.outFmt then
    let gs := (mxGroups c.mxAxis cells.length n).map (fun g =>
      (g, mxBlock c.outFmt x.ovfSat (g.1.map (fun y => (val y.1 y.2, rnd y.1 y.2))), g.1.any (fun y => mark y.1 y.2)))
    let codes := (gs.map (fun g => g.1.1.zip g.2.1.1)).flatten
    let code := fun (r k : Nat) => ((codes.find? (fun y => y.1 == (r, k))).map (·.2)).getD 0
    { rows := cells.zipIdx.map (fun e => (List.range n).map (fun k => ⟨code e.2 k, mark e.2 k⟩))
      scales := gs.map (fun g => (g.1.2, ⟨g.2.1.2.1, g.2.2⟩))
      nan := gs.any (fun g => g.2.1.2.2.nan), ovf := gs.any (fun g => g.2.1.2.2.ovf) }
  else
    let conv := cells.zipIdx.map (fun e => (List.range n).map (fun k => (c.convert intAcc (rnd e.2 k) x.ovfSat (val e.2 k), mark e.2 k)))
    { rows := conv.map (fun r => r.map (fun y => ⟨y.1.1, y.2⟩))
      nan := (conv.flatten).any (fun y => y.1.2.nan), ovf := (conv.flatten).any (fun y => y.1.2.ovf) }

/-- Convert and write a matrix of exact values (R46, R190, R529). -/
def State.drain (s : State) (x : OpCtx) (o : Isd) (c : Cvt) (intAcc : Bool) (cells : List (List Cell)) (pos : Nat → Nat) : OpRes :=
  let n := (cells.headD []).length
  let r := convertCells x c intAcc cells (s.biases x c n) pos
  { writes := r.rows.zipIdx.map (fun e => rowWrite (s.outRow x o e.2) (elemBits c.outFmt) e.1)
              ++ r.scales.map (fun g => rowWrite ((s.local x (o.auxBase + g.1) 1).getD 0) 8 [g.2])
    ue := if c.biasFmt = 0 then [] else match s.local x c.biasBase (ceilDiv (n * elemBits c.biasFmt) 8) with
      | some a => (s.ueIn a (ceilDiv (n * elemBits c.biasFmt) 8)).toList
      | none => []
    nanOut := r.nan, cvtOvf := r.ovf }

/-- The conditions whose status writes its output, in the order of R522. -/
def writtenStatus (kv sat range ptr grid : Bool) : Nat :=
  if kv then stKvPoison else if sat then stScatterSat else if range then stIdxRange else if ptr then stIdxPtr
  else if grid then stGridOutside else stOk

/-- What an operand read adds to an operator's answer: statuses, counts, waits, page reads and uncorrectable words. -/
def OpRes.withOperand (o : OpRes) (a : Operand) : OpRes :=
  { o with status := if o.status = 0 then writtenStatus (!a.kvPoison.isEmpty) false (a.range != 0) (a.ptrBad != 0) false else o.status,
           counts := [o.counts.getD 0 0 + a.range, o.counts.getD 1 0, o.counts.getD 2 0, o.counts.getD 3 0 + a.ptrBad],
           waits := o.waits ++ a.waits, kvPoison := o.kvPoison ++ a.kvPoison, pages := o.pages ++ a.pages,
           ue := o.ue ++ a.ue ++ a.lost.toList,
           writes := if a.lost.isSome then [] else o.writes }

/-! ### Operator headers (R190) -/

/-- An operator header with its descriptors. -/
structure OpHdr where
  version : Nat
  pliesA : Nat
  pliesB : Nat
  outs : Nat
  opflags : Nat
  arg0 : Nat
  arg1 : Nat
  arg2 : Nat
  cvt : Cvt
  cvtRaw : List Nat
  a : List (List Nat)
  b : List (List Nat)
  o : List Isd
  deriving DecidableEq, Repr

def OpHdr.parse (blk : List Nat) : OpHdr :=
  let pa := fieldOf blk 1 1
  let pb := fieldOf blk 2 1
  let no := fieldOf blk 3 1
  let recAt := fun k => (blk.drop (64 * (k + 1))).take 64
  { version := fieldOf blk 0 1, pliesA := pa, pliesB := pb, outs := no, opflags := fieldOf blk 4 4, arg0 := fieldOf blk 8 8,
    arg1 := fieldOf blk 16 8, arg2 := fieldOf blk 24 8, cvt := Cvt.parse ((blk.drop 32).take 32), cvtRaw := (blk.drop 32).take 32,
    a := (List.range pa).map recAt, b := (List.range pb).map (fun k => recAt (pa + k)),
    o := (List.range no).map (fun k => Isd.parse (recAt (pa + pb + k))) }

def OpHdr.noCvt (h : OpHdr) : Bool := h.cvtRaw.all (fun v => v == 0)

/-- Counts and flags within the operator table's ranges (R192, first check of R190). -/
def OpHdr.ok (h : OpHdr) (a0 a1 b0 b1 o0 o1 flagMask : Nat) : Bool :=
  h.version == 1 && decide (a0 ≤ h.pliesA) && decide (h.pliesA ≤ a1) && decide (b0 ≤ h.pliesB) && decide (h.pliesB ≤ b1)
  && decide (o0 ≤ h.outs) && decide (h.outs ≤ o1) && (h.opflags &&& flagMask) == h.opflags

/-- The output descriptor writes `rows` rows of `n` elements of a format (R190). -/
def Isd.outOk (o : Isd) (rows n e : Nat) : Bool :=
  o.rowCount == rows && o.rowBytes == ceilDiv (n * elemBits e) 8 && o.elem == e

/-- An output descriptor of bytes: rows and bytes alone are checked. -/
def Isd.outBytes (o : Isd) (rows bytes : Nat) : Bool := o.rowCount == rows && o.rowBytes == bytes

end Sys2Proof.Machine
end

