-- ==== Sys2Proof/Machine/OpsMat.lean ====
section
/-! DEFINITION. The operators of the matrix unit and its relatives: MATMUL, the segment reductions, SCATTER_ADD and MSG (R42, R70-R76, R192). -/

namespace Sys2Proof.Machine

/-- The weights of a matrix product: for each column its elements down the contraction axis, with its scales (R520). -/
structure Weights where
  cols : List ORow
  ue : List Nat
  deriving DecidableEq, Repr

/-- Read a weights ISD of K rows of N elements (R520). -/
def State.readWeights (s : State) (x : OpCtx) (w : Isd) : Weights :=
  let n := w.rowBytes * 8 / elemBits w.elem
  let eb := elemBits w.elem
  let base := (s.place x w.src w.dataBase w.span).getD 0
  let rows := (List.range w.rowCount).map (fun k => s.readEls (base + k * w.rowStride) eb n)
  let nb := if w.mxScale then w.rowCount / 32 else 0
  let sb := (s.local x w.auxBase (nb * n)).getD 0
  let scales := if nb = 0 then [] else s.readEls sb 8 (nb * n)
  { cols := (List.range n).map (fun c =>
      ⟨rows.map (fun r => r.getD c ⟨0, false⟩), (List.range nb).map (fun kb => some (scales.getD (kb * n + c) ⟨0, false⟩))⟩)
    ue := (((List.range w.rowCount).filterMap (fun k => s.ueIn (base + k * w.rowStride) w.rowBytes)).take 1)
          ++ (if nb = 0 then [] else (s.ueIn sb (nb * n)).toList) }

/-- The accumulators of the output columns of one output row, entries in order (R24, R526). -/
def accRow (k : AccKind) (depth ea eb : Nat) (entries : List ORow) (cols : List ORow) : List Acc :=
  cols.map (fun w => entries.foldl (fun a e => a.entry k depth ⟨ea, e⟩ ⟨eb, w⟩) {})

/-- RAW rows of an output (R28, R524). -/
def State.rawOut (s : State) (x : OpCtx) (o : Isd) (form : Nat) (accs : List (List Acc)) : OpRes :=
  let enc := accs.map (fun r => r.map (fun a => (rawEncode form a, a.p)))
  { writes := enc.zipIdx.map (fun e =>
      rowWrite (s.outRow x o e.2) 8 ((e.1.map (fun y => y.1.1.map (fun b => (⟨b, y.2⟩ : El)))).flatten))
    accSat := (enc.flatten).any (fun y => y.1.2) }

def isIntAcc : AccKind → Bool
  | .fixed 32 _ => true
  | _ => false

/-- Cells of accumulators for the drain. -/
def accCells (k : AccKind) (accs : List (List Acc)) : List (List Cell) := accs.map (fun r => r.map (fun a => ⟨a.value k, a.p⟩))

def anySat (accs : List (List Acc)) : Bool := accs.any (fun r => r.any Acc.sat)

/-- The plies of operand A agree on their output rows (R192). -/
def sameRows (ds : List Isd) : Bool := ds.all (fun d => d.outRows == (ds.headD (Isd.parse [])).outRows)

def pliesOf (l : List (List Nat)) : List Isd := l.map Isd.parse
def firstElem (l : List Isd) : Nat := (l.headD (Isd.parse [])).elem

/-- Checks of the plies of operand A. -/
def State.pliesCheck (s : State) (x : OpCtx) (ds : List Isd) : Nat := firstBad (ds.map (fun d => s.isdCheck x d (firstElem ds)))

/-- The output and bias checks shared by the operators that convert (R190, R191). -/
def State.outCheck (s : State) (x : OpCtx) (h : OpHdr) (o : Isd) (rows n : Nat) (intAcc : Bool) : Nat :=
  firstBad [s.isdCheck x o o.elem false true h.cvt.mxAxis, if o.outOk rows n h.cvt.outFmt then 0 else stIdxFormat,
            if h.cvt.ok intAcc then 0 else stIdxFormat, if s.biasOk x h.cvt n then 0 else stIdxAccess]

def nilIsd : Isd := Isd.parse []

/-- The matrix product of MATMUL and MSG up to the accumulators of each entry row. -/
structure MatIn where
  bad : Nat := 0
  kind : AccKind := .f32
  depth : Nat := 128
  a : List Isd := []
  w : Isd := Isd.parse []
  opnd : Operand := {}
  wts : Weights := ⟨[], []⟩
  m : Nat := 0
  n : Nat := 0
  deriving DecidableEq, Repr

/-- Read and check the operands of a product (R19, R59, R192). -/
def State.matIn (s : State) (x : OpCtx) (h : OpHdr) : MatIn :=
  let ds := pliesOf h.a
  let w := Isd.parse (h.b.headD [])
  let m := (ds.headD nilIsd).outRows
  let n := w.rowBytes * 8 / elemBits w.elem
  let k := (ds.map Isd.elems).sum
  let chk := firstBad [s.pliesCheck x ds, s.isdCheck x w w.elem true,
    if sameRows ds && w.kind == 0 && w.rowCount == k then 0 else stIdxFormat]
  if chk ≠ 0 then { bad := chk }
  else match pairKind (firstElem ds) w.elem with
    | none => { bad := stOpFault }
    | some kind =>
      let op := s.readOperand x ds m
      if op.mismatch then { bad := stIdxFormat }
      else { kind := kind, depth := pairDepth (firstElem ds) w.elem, a := ds, w := w, opnd := op, wts := s.readWeights x w, m := m, n := n }

/-- MATMUL (R42, R192): out[r] = Σ over the entries of row r of the row times the weights. -/
def opMatmul (s : State) (x : OpCtx) (blk : List Nat) : OpRes :=
  let h := OpHdr.parse blk
  if !h.ok 1 4 1 1 1 1 1 then .fail stIdxFormat
  else
    let i := s.matIn x h
    let o := h.o.headD nilIsd
    if i.bad ≠ 0 then .fail i.bad
    else
      let accs := i.opnd.rows.map (fun r => accRow i.kind i.depth (firstElem i.a) i.w.elem (r.map (·.row)) i.wts.cols)
      if bit h.opflags 0 then
        match i.kind.rawForm with
        | none => .fail stIdxFormat
        | some f =>
          let chk := firstBad [s.isdCheck x { o with elem := 1, flags := 0, auxBase := 0 } 1 false true,
            if o.outBytes i.m (i.n * rawBytes f) then 0 else stIdxFormat]
          if chk ≠ 0 then .fail chk
          else
            let r := s.rawOut x o f accs
            { r with accSat := r.accSat || anySat accs, ue := i.wts.ue : OpRes }.withOperand i.opnd
      else
        let chk := s.outCheck x h o i.m i.n (isIntAcc i.kind)
        if chk ≠ 0 then .fail chk
        else
          let r := s.drain x o h.cvt (isIntAcc i.kind) (accCells i.kind accs) (fun r => r * i.n)
          { r with accSat := anySat accs, ue := r.ue ++ i.wts.ue : OpRes }.withOperand i.opnd

/-! ### Segment reductions (R70) -/

/-- The accumulator form of a segment sum: the input paired with ones of its own format. -/
def segKind (e : Nat) : Option AccKind := pairKind e e

/-- The sum of one feature over the entries of a segment on the matrix unit (R70): the feature times one, the block's scale with it. -/
def segAcc (e : Nat) (k : AccKind) (f : Nat) (entries : List ORow) : Acc :=
  entries.foldl (fun a r =>
    let el := r.els.getD f ⟨0, false⟩
    let v := elemVal e el.code
    match k with
    | .fixed w g => a.addFixed w { sumProducts g [v] with p := el.p }
    | .f32 => { a with fp := f32Keep ((f32V a.fp).add (f32V (f32Keep ((XV.num false 0 0).add v)))), p := a.p || el.p }
    | .mx q =>
      match r.scales.getD (f / 32) none with
      | none => a
      | some sc =>
        -- one block of the feature times 1.0 under scale 0x7F
        let t := sumProducts q [v]
        let nan := sc.code == 0xFF
        let a := a.orFlags { t with nan := t.nan || nan, p := el.p || sc.p }
        if nan || v.isZero then a else a.join ((sc.code : Int) - 127) t.v) {}

/-- The FP32 sum of a segment in entry order (R70). -/
def segF32 (f : Nat) (entries : List ORow) : Cell :=
  let els := entries.map (fun r => r.els.getD f ⟨0, false⟩)
  match els with
  | [] => ⟨.num false 0 0, false⟩
  | e :: t => ⟨f32V (t.foldl (fun a y => f32Add a y.code) e.code), els.any El.p⟩

/-- The cells of a segment sum: exact for the matrix unit, FP32 for FP32 inputs. -/
def segCells (e n : Nat) (op : Operand) : List (List Cell) × Bool :=
  if e = 13 then (op.rows.map (fun r => (List.range n).map (fun f => segF32 f (r.map (·.row)))), false)
  else match segKind e with
    | none => ([], false)
    | some k =>
      let accs := op.rows.map (fun r => (List.range n).map (fun f => segAcc e k f (r.map (·.row))))
      (accCells k accs, anySat accs)

/-- Formats that SEG_SUM takes (R70). -/
def segFmt (e : Nat) : Bool := decide (e ≤ 13)

/-- Is the accumulator of an element format an integer one (R191)? -/
def elemIntAcc (e : Nat) : Bool := decide (e ≤ 3)

/-- Division of a sum by the entry count (R70, R74). -/
def meanCell (c : Cell) (count : Nat) : Cell :=
  if count = 0 then ⟨.num false 0 0, false⟩ else ⟨f32V (f32Div (f32Keep c.v) (f32OfNat count)), c.p⟩

/-- SEG_SUM and SEG_MEAN (R70). -/
def opSegSum (mean : Bool) (s : State) (x : OpCtx) (blk : List Nat) : OpRes :=
  let h := OpHdr.parse blk
  if !h.ok 1 4 0 0 1 1 0 then .fail stIdxFormat
  else
    let ds := pliesOf h.a
    let o := h.o.headD nilIsd
    let e := firstElem ds
    let m := (ds.headD nilIsd).outRows
    let n := (ds.map Isd.elems).sum
    let chk := firstBad [s.pliesCheck x ds, if sameRows ds then 0 else stIdxFormat]
    if chk ≠ 0 then .fail chk
    else if !segFmt e then .fail stOpFault
    else
      let chk := s.outCheck x h o m n (elemIntAcc e && !mean)
      if chk ≠ 0 then .fail chk
      else
        let op := s.readOperand x ds m
        if op.mismatch then .fail stIdxFormat
        else
          let c := segCells e n op
          let cells := if mean then (c.1.zip op.rows).map (fun y => y.1.map (fun v => meanCell v y.2.length)) else c.1
          { s.drain x o h.cvt (elemIntAcc e && !mean) cells (fun r => r * n) with accSat := c.2 : OpRes }.withOperand op

/-- The smaller or larger of two values of a format (R37, R70). -/
def pick (mx : Bool) (e : Nat) (a b : Nat) : Nat :=
  match elemInt e with
  | some f =>
    let va := if f.signed then toSigned f.width a else (a : Int)
    let vb := if f.signed then toSigned f.width b else (b : Int)
    if mx then (if va < vb then b else a) else (if vb < va then b else a)
  | none => match elemFmt e with
    | none => a
    | some f =>
      if f.decode a == .nan || f.decode b == .nan then f.nanCode
      else
        let ord := fun (c : Nat) => if bit c f.magBits then -((bits c 0 f.magBits : Nat) : Int) - 1 else (bits c 0 f.magBits : Nat)
        if mx then (if ord a < ord b then b else a) else (if ord b < ord a then b else a)

/-- What an empty segment gives (R70). -/
def emptySeg (mx zero : Bool) (e : Nat) : XV :=
  if zero then .num false 0 0
  else match elemInt e with
    | some f => .ofInt (if mx then f.lo else f.hi) 0
    | none => .inf mx

/-- The reduction of one feature over the non-null entries of a segment. For MX, the value with its scale. -/
def segPick (mx : Bool) (e : Nat) (els : List (El × Option El)) : Option Cell :=
  match els with
  | [] => none
  | h :: t =>
    if elemIsMx e then
      let val := fun (y : El × Option El) => match y.2 with
        | some sc => if sc.code = 0xFF then XV.nan else (elemVal e y.1.code).scale ((sc.code : Int) - 127)
        | none => elemVal e y.1.code
      let better := fun (a b : XV) =>
        if a == .nan || b == .nan then XV.nan
        else if mx then (if a.lt b || (a.isZero && b.isZero && a.isNeg) then b else a)
        else (if b.lt a || (a.isZero && b.isZero && b.isNeg) then b else a)
      some ⟨t.foldl (fun a y => better a (val y)) (val h), els.any (fun y => y.1.p || (match y.2 with | some z => z.p | none => false))⟩
    else some ⟨elemVal e (t.foldl (fun a y => pick mx e a y.1.code) (pick mx e h.1.code h.1.code)), els.any (fun y => y.1.p)⟩

/-- SEG_MAX and SEG_MIN (R70). -/
def opSegPick (mx : Bool) (s : State) (x : OpCtx) (blk : List Nat) : OpRes :=
  let h := OpHdr.parse blk
  if !h.ok 1 1 0 0 1 1 1 then .fail stIdxFormat
  else
    let d := Isd.parse (h.a.headD [])
    let o := h.o.headD nilIsd
    let chk := s.isdCheck x d d.elem
    if chk ≠ 0 then .fail chk
    else
      let chk := s.outCheck x h o d.outRows d.elems (elemInt d.elem).isSome
      if chk ≠ 0 then .fail chk
      else
        let op := s.readOperand x [d] d.outRows
        let cells := (op.rows.zip op.nulls).map (fun y =>
          let live := (y.1.zip y.2).filter (fun z => !z.2)
          (List.range d.elems).map (fun f =>
            (segPick mx d.elem (live.map (fun z => (z.1.row.els.getD f ⟨0, false⟩, z.1.row.scales.getD (f / 32) none)))).getD
              ⟨emptySeg mx (bit h.opflags 0) d.elem, false⟩))
        (s.drain x o h.cvt (elemInt d.elem).isSome cells (fun r => r * d.elems)).withOperand op

/-! ### Scatter-add (R71-R73) -/

/-- Address ranges of the model that a ply reads (R73). -/
def State.plyRanges (s : State) (x : OpCtx) (d : Isd) (source : Bool) : List (Nat × Nat) :=
  (if source ∧ d.kind ≠ 5 then ((s.place x d.src d.dataBase d.span).map (fun a => (a, d.span))).toList else [])
  ++ d.arrays.filterMap (fun y => (s.local x y.1 y.2).map (fun a => (a, y.2)))
  ++ (if d.mxScale ∧ d.kind ≠ 5 then ((s.local x d.auxBase (d.rowCount * d.blocks)).map (fun a => (a, d.rowCount * d.blocks))).toList else [])
  ++ (if d.prefetch then [(tileBase x.tile + d.ringBase, 64 * d.ringLines)] else [])

def overlaps (a b : Nat × Nat) : Bool := decide (a.1 < b.1 + b.2) && decide (b.1 < a.1 + a.2) && a.2 != 0 && b.2 != 0

/-- Bytes of one entry of a scatter target: FP32, INT32, RAW integer, RAW E4M3, RAW E5M2. -/
def scatterBytes : Nat → Nat
  | 3 => 8
  | 4 => 10
  | _ => 4

/-- One contribution into one target entry (R71, R523, R525): the new bytes, CVT_OVF, and a RAW saturation. -/
def scatterOne (form : Nat) (old new : List Nat) : List Nat × Bool × Bool :=
  match form with
  | 0 => (leBytes 4 (f32Add (leNum old) (leNum new)), false, false)
  | 1 =>
    let c := satSigned 32 (toSigned 32 (leNum old) + toSigned 32 (leNum new))
    (leBytes 4 (ofSigned 32 c.1), c.2, false)
  | f =>
    let a := rawCombine (f - 2) (rawDecode (f - 2) old false) (rawDecode (f - 2) new false)
    let e := rawEncode (f - 2) a
    (e.1, false, a.sat || e.2)

/-- One contribution row into one target row. -/
def scatterRow (form : Nat) (old new : List Nat) : List Nat × Bool × Bool :=
  let w := scatterBytes form
  let r := ((chunks w old).zip (chunks w new)).map (fun y => scatterOne form y.1 y.2)
  ((r.map (·.1)).flatten, r.any (fun y => y.2.1), r.any (fun y => y.2.2))

/-- A target row while contributions arrive: its bytes, its poison, and the marks met. -/
structure TRow where
  bytes : List Nat
  p : Bool := false
  ovf : Bool := false
  sat : Bool := false
  deriving DecidableEq, Repr

def TRow.add (form : Nat) (t : TRow) (c : List Nat) (p : Bool) : TRow :=
  let r := scatterRow form t.bytes c
  { bytes := r.1, p := t.p || p, ovf := t.ovf || r.2.1, sat := t.sat || r.2.2 }

/-- The contributions in the order they are applied: entry order, or the arrival order the surroundings give (R71). -/
def arrival (ordered : Bool) (order : List Nat) (l : List (Nat × Nat)) : List (Nat × Nat) :=
  if ordered then l
  else (order.filterMap (fun j => l[j]?)).eraseDups ++ l.filter (fun e => !((order.filterMap (fun j => l[j]?)).contains e))

/-- SCATTER_ADD (R71-R73). -/
def opScatterAdd (s : State) (x : OpCtx) (blk : List Nat) : OpRes :=
  let h := OpHdr.parse blk
  if !h.ok 1 1 1 1 0 0 0xF || !h.noCvt then .fail stIdxFormat
  else
    let d := Isd.parse (h.a.headD [])
    let t := Isd.parse (h.b.headD [])
    let form := bits h.opflags 1 3
    let w := scatterBytes form
    let chk := firstBad [
      if form ≤ 4 then 0 else stIdxFormat,
      s.isdCheck x (if form ≥ 2 then { d with elem := 1 } else d) (if form ≥ 2 then 1 else d.elem),
      s.isdCheck x (if form ≥ 2 then { t with elem := 1 } else t) (if form ≥ 2 then 1 else t.elem),
      if d.kind = 0 ∧ t.kind = 1 ∧ t.block = 1 ∧ t.src ≤ 1 ∧ d.elem ≤ 0x13 ∧ t.rowBytes = d.rowBytes ∧ d.rowBytes % w = 0
        ∧ (form ≠ 0 ∨ d.elem = 13) ∧ (form ≠ 1 ∨ d.elem = 14) ∧ t.outRows = d.outRows then 0 else stIdxFormat]
    if chk ≠ 0 then .fail chk
    else
      let target := ((s.place x t.src t.dataBase t.span).getD 0, t.span)
      if (s.plyRanges x d true ++ s.plyRanges x t false).any (overlaps target) then .fail stIdxOverlap
      else
        let wk := s.walk x t
        let ordered := form < 2 && (bit h.opflags 0 || x.det)
        let list := wk.entries.filter (fun e => e.2 != nullIdx)
        let live := list.filter (fun e => decide (e.2 < t.rowCount))
        let src := fun (j : Nat) => (s.place x d.src (d.dataBase + j * d.rowStride) d.rowBytes).getD 0
        let addr := fun (r : Nat) => target.1 + r * t.rowStride
        let rows := (arrival ordered x.env.order live).foldl (fun (acc : Tab TRow) e =>
          let a := addr e.2
          let cur := (Tab.find e.2 acc).getD { bytes := s.bytes a t.rowBytes, p := s.mem.isBad a t.rowBytes }
          Tab.put e.2 (cur.add form (s.bytes (src e.1) d.rowBytes) (s.mem.isBad (src e.1) d.rowBytes)) acc) []
        let sat := form ≥ 2 && rows.any (fun e => e.2.sat)
        let range := list.length - live.length
        { status := writtenStatus false sat (range != 0) false false,
          writes := if wk.lost.isSome then [] else rows.map (fun e => rowWrite (addr e.1) 8 (e.2.bytes.map (fun b => ⟨b, e.2.p⟩))),
          cvtOvf := rows.any (fun e => e.2.ovf), accSat := sat,
          counts := [range, 0, 0, 0],
          ue := wk.lost.toList ++ live.filterMap (fun e => s.ueIn (src e.1) d.rowBytes) ++ live.filterMap (fun e => s.ueIn (addr e.2) t.rowBytes) }

/-! ### Message passing (R74-R76) -/

/-- MSG (R74): the reduction over the edges into each destination of the message row times the weights. -/
def opMsg (s : State) (x : OpCtx) (blk : List Nat) : OpRes :=
  let h := OpHdr.parse blk
  let red := bits h.opflags 0 2
  if !h.ok 1 4 1 1 1 1 3 || red == 3 then .fail stIdxFormat
  else
    let i := s.matIn x h
    let o := h.o.headD nilIsd
    if i.bad ≠ 0 then .fail i.bad
    else if i.a.any (fun d => d.kind != 2 && d.kind != 0) || i.a.all (fun d => d.kind == 0) then .fail stIdxFormat
    else
      let intOut := isIntAcc i.kind && red == 0
      let chk := s.outCheck x h o i.m i.n intOut
      if chk ≠ 0 then .fail chk
      else
        let acc := fun (es : List ORow) => accRow i.kind i.depth (firstElem i.a) i.w.elem es i.wts.cols
        let rows := i.opnd.rows.zip i.opnd.nulls
        let sums := i.opnd.rows.map (fun r => acc (r.map (·.row)))
        let maxRow := fun (r : List RowRead) (nulls : List Bool) =>
          let msgs := ((r.zip nulls).filter (fun z => !z.2)).map (fun z => acc [z.1.row])
          (List.range i.n).map (fun c =>
            match msgs.map (fun m => let a := m.getD c {}; (f32Keep (a.value i.kind), a.p)) with
            | [] => (⟨.inf true, false⟩ : Cell)
            | v :: t => ⟨f32V (t.foldl (fun a y => f32Max a y.1) (f32Max v.1 v.1)), (v :: t).any (·.2)⟩)
        let cells :=
          if red = 0 then accCells i.kind sums
          else if red = 1 then ((accCells i.kind sums).zip i.opnd.rows).map (fun y => y.1.map (fun c => meanCell c y.2.length))
          else rows.map (fun y => maxRow y.1 y.2)
        let r := s.drain x o h.cvt intOut cells (fun r => r * i.n)
        let sat := if red = 2 then i.opnd.rows.any (fun r => r.any (fun z => (acc [z.row]).any Acc.sat)) else anySat sums
        { r with accSat := sat, ue := r.ue ++ i.wts.ue : OpRes }.withOperand i.opnd

end Sys2Proof.Machine
end

