-- ==== Sys2Proof/Machine/OpsSet.lean ====
section
/-! DEFINITION. The set operators: TOPK, SORT, UNIQUE, GRID_BUILD and KNN (R77-R84, R192). -/

namespace Sys2Proof.Machine

/-- Key formats of R77. -/
def keyFmt (e : Nat) : Bool := e == 0 || e == 1 || e == 4 || e == 5 || (decide (11 ≤ e) && decide (e ≤ 0x13))

/-- The order of keys (R77): signed or unsigned integers, or the transformed bit pattern of a float. -/
def keyOrd (e code : Nat) : Int :=
  match elemInt e with
  | some f => if f.signed then toSigned f.width code else (code : Int)
  | none =>
    let w := elemBits e
    if bit code (w - 1) then ((2 ^ w - 1 - code : Nat) : Int) else ((code + 2 ^ (w - 1) : Nat) : Int)

def isNanCode (e code : Nat) : Bool := match elemFmt e with
  | some f => f.decode code == .nan
  | none => false

/-- Stable insertion. -/
def insSorted {α : Type} (le : α → α → Bool) (x : α) : List α → List α
  | [] => [x]
  | y :: t => if le x y then x :: y :: t else y :: insSorted le x t

/-- A stable sort: equal elements keep their order (R80). -/
def stableSort {α : Type} (le : α → α → Bool) : List α → List α
  | [] => []
  | x :: t => insSorted le x (stableSort le t)

/-- Write rows of codes (values that no conversion touches). -/
def State.codeOut (s : State) (x : OpCtx) (o : Isd) (rows : List (List El)) : List WriteOut :=
  rows.zipIdx.map (fun e => rowWrite (s.outRow x o e.2) (elemBits o.elem) e.1)

/-- Codes laid row after row into an output of `n` elements a row; the rest of the output is not written. -/
def State.flatOut (s : State) (x : OpCtx) (o : Isd) (els : List El) : List WriteOut :=
  let n := o.rowBytes * 8 / elemBits o.elem
  s.codeOut x o (chunks (max n 1) els)

/-- Elements of an output descriptor. -/
def Isd.total (o : Isd) : Nat := o.rowCount * (o.rowBytes * 8 / elemBits o.elem)

/-- The position of a key in TOPK order (R78): every NaN below every number in both directions. -/
def topkBefore (e : Nat) (dir : Bool) (a b : El × Nat) : Bool :=
  let na := isNanCode e a.1.code
  let nb := isNanCode e b.1.code
  if na != nb then nb
  else
    let ka := keyOrd e a.1.code
    let kb := keyOrd e b.1.code
    if ka = kb then decide (a.2 ≤ b.2) else if dir then decide (ka < kb) else decide (kb < ka)

/-- TOPK (R78). -/
def opTopk (s : State) (x : OpCtx) (blk : List Nat) : OpRes :=
  let h := OpHdr.parse blk
  let d := Isd.parse (h.a.headD [])
  let k := bits h.arg0 0 12
  let o0 := h.o.getD 0 nilIsd
  let o1 := h.o.getD 1 nilIsd
  let fmtOk := h.ok 1 1 0 0 2 2 1 && h.noCvt && decide (h.arg0 < 4096) && h.arg1 == 0 && h.arg2 == 0
  let chk := firstBad [if fmtOk then 0 else stIdxFormat, s.isdCheck x d d.elem,
    if d.kind = 0 ∧ keyFmt d.elem ∧ 1 ≤ k ∧ k ≤ 2048 ∧ d.outRows ≤ 65536 ∧ d.elems ≤ 1048576 then 0 else stIdxFormat,
    s.isdCheck x o0 o0.elem false true, s.isdCheck x o1 o1.elem false true,
    if o0.outOk d.outRows k d.elem ∧ o1.outOk d.outRows k 0x0F then 0 else stIdxFormat]
  if chk ≠ 0 then .fail chk
  else
    let op := s.readOperand x [d] d.outRows
    let best := op.rows.map (fun r =>
      let row := (r.map (fun y => y.row.els)).flatten
      let p := row.any El.p
      let l := ((stableSort (topkBefore d.elem (bit h.opflags 0)) row.zipIdx).take k).map (fun e => (e.1.code, e.2, p))
      l ++ List.replicate (k - l.length) (0, nullIdx, p))
    ({ writes := s.codeOut x o0 (best.map (fun r => r.map (fun e => ⟨e.1, e.2.2⟩)))
                ++ s.codeOut x o1 (best.map (fun r => r.map (fun e => ⟨e.2.1, e.2.2⟩))) } : OpRes).withOperand op

/-- The keys of a set operator in input order. -/
def flatEls (op : Operand) : List El := ((op.rows.flatten).map (fun y => y.row.els)).flatten

/-- SORT (R80): a stable sort of the keys with their payloads. -/
def opSort (s : State) (x : OpCtx) (blk : List Nat) : OpRes :=
  let h := OpHdr.parse blk
  let d := Isd.parse (h.a.headD [])
  let pl := h.b.map Isd.parse
  let index := bit h.opflags 1
  let o0 := h.o.getD 0 nilIsd
  let o1 := h.o.getD 1 nilIsd
  let n := d.outRows * d.elems
  let fmtOk := h.ok 1 1 0 1 2 2 3 && h.noCvt && (!index || h.pliesB == 0) && h.arg0 == 0 && h.arg1 == 0 && h.arg2 == 0
  let chk := firstBad ([if fmtOk then 0 else stIdxFormat, s.isdCheck x d d.elem,
    if keyFmt d.elem ∧ n ≤ 1048576 then 0 else stIdxFormat]
    ++ pl.map (fun b => s.isdCheck x b b.elem)
    ++ pl.map (fun b => if elemBits b.elem = 32 ∧ b.outRows * b.elems = n then 0 else stIdxFormat)
    ++ [s.isdCheck x o0 o0.elem false true, s.isdCheck x o1 o1.elem false true,
        if o0.outOk d.outRows d.elems d.elem ∧ elemBits o1.elem = 32 ∧ o1.total = n then 0 else stIdxFormat])
  if chk ≠ 0 then .fail chk
  else
    let op := s.readOperand x [d] d.outRows
    let keys := flatEls op
    let ob := match pl with
      | b :: _ => some (s.readOperand x [b] b.outRows)
      | [] => none
    let pay : List El := match ob with
      | some b => flatEls b
      | none => (List.range keys.length).map (fun i => ⟨i, false⟩)
    let sorted := stableSort (fun (a b : El × El) => decide (keyOrd d.elem a.1.code ≤ keyOrd d.elem b.1.code)) (keys.zip pay)
    let r : OpRes := { writes := s.flatOut x o0 (sorted.map (·.1))
                        ++ (if index || h.pliesB == 1 then s.flatOut x o1 (sorted.map (·.2)) else []) }
    let r := r.withOperand op
    match ob with
    | some b => r.withOperand b
    | none => r

/-- Maximal non-decreasing runs of a list of keys (R81). -/
def runsOf (e : Nat) : List (El × Nat) → List (List (El × Nat))
  | [] => []
  | y :: t => match runsOf e t with
    | [] => [[y]]
    | r :: rs => match r with
      | [] => [y] :: rs
      | z :: _ => if keyOrd e y.1.code ≤ keyOrd e z.1.code then (y :: r) :: rs else [y] :: r :: rs

/-- Groups of equal bit patterns of a sorted list. -/
def groupsOf : List (El × Nat) → List (List (El × Nat))
  | [] => []
  | y :: t => match groupsOf t with
    | [] => [[y]]
    | r :: rs => match r with
      | [] => [y] :: rs
      | z :: _ => if y.1.code = z.1.code then (y :: r) :: rs else [y] :: r :: rs

/-- UNIQUE (R81). -/
def opUnique (s : State) (x : OpCtx) (blk : List Nat) : OpRes :=
  let h := OpHdr.parse blk
  let d := Isd.parse (h.a.headD [])
  let inv := bit h.opflags 0
  let n := d.outRows * d.elems
  let fmtOk := h.ok 1 1 0 0 3 4 1 && h.noCvt && h.outs == (if inv then 4 else 3) && h.arg0 == 0 && h.arg1 == 0 && h.arg2 == 0
  let chk := firstBad ([if fmtOk then 0 else stIdxFormat, s.isdCheck x d d.elem, if keyFmt d.elem ∧ n ≤ 1048576 then 0 else stIdxFormat]
    ++ h.o.map (fun o => s.isdCheck x o o.elem false true)
    ++ h.o.zipIdx.map (fun e => if e.1.total = n ∧ e.1.elem = (if e.2 = 0 then d.elem else 0x0F) then 0 else stIdxFormat))
  if chk ≠ 0 then .fail chk
  else
    let op := s.readOperand x [d] d.outRows
    let keys := (flatEls op).zipIdx
    let le := fun (a b : El × Nat) => decide (keyOrd d.elem a.1.code ≤ keyOrd d.elem b.1.code)
    let groups := if d.sorted then ((runsOf d.elem keys).map groupsOf).flatten else groupsOf (stableSort le keys)
    let p := (flatEls op).any El.p
    let out := fun (k : Nat) (l : List Nat) => s.flatOut x (h.o.getD k nilIsd) (l.map (fun c => ⟨c, p⟩))
    let first := fun (g : List (El × Nat)) => (g.map (·.2)).foldl min ((g.map (·.2)).headD 0)
    let pos := fun (i : Nat) => ((groups.zipIdx.find? (fun g => g.1.any (fun y => y.2 == i))).map (·.2)).getD 0
    ({ writes := out 0 (groups.map (fun g => (g.headD (⟨0, false⟩, 0)).1.code)) ++ out 1 (groups.map List.length) ++ out 2 (groups.map first)
                ++ (if inv then out 3 ((List.range keys.length).map pos) else []) } : OpRes).withOperand op

/-! ### Points (R82-R84) -/

/-- The grid of GRID_BUILD and KNN: origin, cell size and cells per axis. -/
structure Grid where
  org : List Nat
  size : Nat
  cells : List Nat
  deriving DecidableEq, Repr

def Grid.parse (a0 a1 a2 : Nat) : Grid :=
  { org := [bits a0 0 32, bits a0 32 32, bits a1 0 32], size := bits a1 32 32,
    cells := [bits a2 0 10 + 1, bits a2 10 10 + 1, bits a2 20 10 + 1] }

/-- The cell coordinate of a point on one axis: floor ((p − origin) / size), exact (log entry 16); none for no number. -/
def cellCoord (p org size : Nat) : Option Int :=
  match (f32V p).add (f32V org).neg, f32V size with
  | .num n m e, .num false d f =>
    if d = 0 then none
    else
      let g := min e f
      some (unitsOf n m e g / unitsOf false d f g)
  | _, _ => none

def Grid.coords (g : Grid) (pt : List Nat) : Option (List Int) :=
  match cellCoord (pt.getD 0 0) (g.org.getD 0 0) g.size, cellCoord (pt.getD 1 0) (g.org.getD 1 0) g.size,
        cellCoord (pt.getD 2 0) (g.org.getD 2 0) g.size with
  | some a, some b, some c => some [a, b, c]
  | _, _, _ => none

/-- The cell number x_c + 1,024 · (y_c + 1,024 · z_c) of coordinates inside the grid. -/
def Grid.number (g : Grid) (c : List Int) : Option Nat :=
  if (c.zip g.cells).all (fun y => decide (0 ≤ y.1) && decide (y.1 < y.2)) then
    some ((c.getD 0 0).toNat + 1024 * ((c.getD 1 0).toNat + 1024 * (c.getD 2 0).toNat))
  else none

def pointsOf (op : Operand) : List (List El) := op.rows.map (fun r => (r.map (fun y => y.row.els)).flatten)

/-- GRID_BUILD (R84, R192): points sorted by cell, and the table of occupied cells. -/
def opGridBuild (s : State) (x : OpCtx) (blk : List Nat) : OpRes :=
  let h := OpHdr.parse blk
  let d := Isd.parse (h.a.headD [])
  let o0 := h.o.getD 0 nilIsd
  let o1 := h.o.getD 1 nilIsd
  let fmtOk := h.ok 1 1 0 0 2 2 0 && h.noCvt && decide (h.arg2 < 2 ^ 30)
  let chk := firstBad [if fmtOk then 0 else stIdxFormat, s.isdCheck x d d.elem,
    if d.rowBytes = 16 ∧ d.elem = 13 ∧ d.outRows ≤ 65536 then 0 else stIdxFormat,
    s.isdCheck x o0 o0.elem false true, s.isdCheck x o1 o1.elem false true,
    if o0.outOk d.outRows 4 13 ∧ o1.rowBytes = 16 ∧ elemBits o1.elem = 32 then 0 else stIdxFormat]
  if chk ≠ 0 then .fail chk
  else
    let op := s.readOperand x [d] d.outRows
    let g := Grid.parse h.arg0 h.arg1 h.arg2
    let pts := (pointsOf op).map (fun p => (p, (g.coords (p.map El.code)).bind g.number))
    let kept := pts.filterMap (fun y => y.2.map (fun c => (c, y.1)))
    let sorted := stableSort (fun (a b : Nat × List El) => decide (a.1 ≤ b.1)) kept
    let nums := sorted.map (·.1)
    let cells := nums.eraseDups
    let out := pts.length - kept.length
    let table := cells.map (fun c => [c, nums.findIdx (fun v => v == c), (nums.filter (fun v => v == c)).length, 0])
    let p := kept.any (fun y => y.2.any El.p)
    if cells.length > 65536 ∨ o1.rowCount < cells.length then .fail stIdxFormat
    else
      let r : OpRes := { writes := s.codeOut x o0 (sorted.map (·.2)) ++ s.codeOut x o1 (table.map (fun t => t.map (fun v => ⟨v, p⟩))) }
      let r := r.withOperand op
      { r with status := if r.status = 0 then writtenStatus false false false false (out != 0) else r.status,
               counts := [r.counts.getD 0 0 + out, 0, 0, r.counts.getD 3 0] }

/-- The squared distance of R82 over the dimensions given. -/
def dist2 (p q : List Nat) : Nat :=
  match (p.zip q).map (fun y => f32Sub y.1 y.2) with
  | [] => 0
  | d :: t => t.foldl (fun a v => f32Fma v v a) (f32Mul d d)

/-- KNN (R82, R83). -/
def opKnn (s : State) (x : OpCtx) (blk : List Nat) : OpRes :=
  let h := OpHdr.parse blk
  let brute := bit h.opflags 0
  let dims := bits h.opflags 1 5
  let k := bits h.arg0 0 6
  let d := Isd.parse (h.a.headD [])
  let bs := h.b.map Isd.parse
  let rf := bs.getD 0 nilIsd
  let ct := bs.getD 1 nilIsd
  let o0 := h.o.getD 0 nilIsd
  let o1 := h.o.getD 1 nilIsd
  let k := if k = 0 then 64 else k
  let fmtOk := h.ok 1 1 1 2 2 2 0x3F && h.noCvt && h.pliesB == (if brute then 1 else 2) && decide (2 ≤ dims) && decide (dims ≤ 16)
    && (brute || dims == 3) && decide (1 ≤ k) && decide (k ≤ 64)
  let chk := firstBad ([if fmtOk then 0 else stIdxFormat, s.isdCheck x d d.elem]
    ++ bs.map (fun b => s.isdCheck x b b.elem)
    ++ [if d.elem = 13 ∧ rf.elem = 13 ∧ dims ≤ d.elems ∧ dims ≤ rf.elems ∧ d.outRows ≤ 65536 ∧ rf.outRows ≤ 65536
          ∧ (brute ∨ (ct.rowBytes = 16 ∧ elemBits ct.elem = 32)) then 0 else stIdxFormat,
        s.isdCheck x o0 o0.elem false true, s.isdCheck x o1 o1.elem false true,
        if o0.outOk d.outRows k 0x0F ∧ o1.outOk d.outRows k 0x0D then 0 else stIdxFormat])
  if chk ≠ 0 then .fail chk
  else
    let oq := s.readOperand x [d] d.outRows
    let orf := s.readOperand x [rf] rf.outRows
    let oct := if brute then {} else s.readOperand x [ct] ct.outRows
    let refs := (pointsOf orf).map (fun p => (p.take dims).map El.code)
    let pr := (pointsOf orf).any (fun p => (p.take dims).any El.p)
    let rmax := bits h.arg1 0 32
    let r2 := f32Mul rmax rmax
    -- grid mode: every reference that the cell table holds; with a cell size of at least RMAX, which R83 asks of software, the
    -- 27 cells hold every reference within RMAX (log entry 17)
    let tbl := (pointsOf oct).map (fun t => t.map El.code)
    let near := fun (i : Nat) => brute || tbl.any (fun t => decide (t.getD 1 0 ≤ i) && decide (i < t.getD 1 0 + t.getD 2 0))
    let best := (pointsOf oq).map (fun qe =>
      let q := (qe.take dims).map El.code
      let cand := (refs.zipIdx.filter (fun y => near y.2)).map (fun y => (dist2 y.1 q, y.2))
      let ok := cand.filter (fun y => !f32IsNan y.1 && !f32Lt r2 y.1 && !f32IsNan r2)
      let l := (stableSort (fun (a b : Nat × Nat) => decide (a.1 < b.1) || (a.1 == b.1 && decide (a.2 ≤ b.2))) ok).take k
      let p := pr || (qe.take dims).any El.p
      (l ++ List.replicate (k - l.length) (f32Inf, nullIdx)).map (fun y => (y.1, y.2, p)))
    let r : OpRes := { writes := s.codeOut x o0 (best.map (fun b => b.map (fun y => ⟨y.2.1, y.2.2⟩)))
                        ++ s.codeOut x o1 (best.map (fun b => b.map (fun y => ⟨y.1, y.2.2⟩))) }
    (((r.withOperand oq).withOperand orf).withOperand oct)

end Sys2Proof.Machine
end

