-- ==== Sys2Proof/Machine/OpsConv.lean ====
section
/-! DEFINITION. Convolution and pooling, fused groups, and the elementwise and random operators (R85-R116, R192-R194). -/

namespace Sys2Proof.Machine

/-- An image in the tile's reach: rows of pixels, each the channels of one pixel. -/
structure Img where
  h : Nat
  w : Nat
  elem : Nat
  pix : List (List ORow)
  ue : List Nat := []
  deriving DecidableEq, Repr

def Img.at (i : Img) (y x : Nat) : ORow := (i.pix.getD y []).getD x ⟨[], []⟩

/-- Read the image a WND names (R85, R520). -/
def State.readImg (s : State) (x : OpCtx) (w : Wnd) : Img :=
  let n := w.cIn
  let cb := if w.mxScale then n / 32 else 0
  let base := (s.place x w.src w.dataBase ((w.inH - 1) * w.lineStride + (w.inW - 1) * w.pixStride + w.pixBytes)).getD 0
  let sb := (s.local x w.auxBase (w.inH * w.inW * cb)).getD 0
  let at_ := fun (y z : Nat) => base + y * w.lineStride + z * w.pixStride
  { h := w.inH, w := w.inW, elem := w.elem
    pix := (List.range w.inH).map (fun y => (List.range w.inW).map (fun z =>
      ⟨s.readEls (at_ y z) (elemBits w.elem) n, if cb = 0 then [] else (s.readEls (sb + (y * w.inW + z) * cb) 8 cb).map some⟩))
    ue := if s.mem.bad.isEmpty then []
          else (((List.range w.inH).map (fun y => (List.range w.inW).filterMap (fun z => s.ueIn (at_ y z) w.pixBytes))).flatten).take 1 }

/-- Channels `c0 .. c0 + n - 1` of a pixel. -/
def ORow.slice (r : ORow) (c0 n : Nat) : ORow := ⟨(r.els.drop c0).take n, (r.scales.drop (c0 / 32)).take (n / 32)⟩

/-- The channels that a tap supplies (R89). -/
def tapOf (i : Img) (w : Wnd) (c0 n oy ox ky kx : Nat) : ORow :=
  match w.tap oy ox ky kx with
  | (.inside y, .inside z) => (i.at y z).slice c0 n
  | _ => ⟨List.replicate n ⟨w.zeroCode, false⟩, List.replicate (if w.mxScale then n / 32 else 0) none⟩

/-- Pieces of 7 of a kernel axis, as (start, length) (R92). -/
def subAxis (k : Nat) : List (Nat × Nat) := (List.range (ceilDiv k 7)).map (fun j => (7 * j, min 7 (k - 7 * j)))

/-- The taps of each sub-kernel in the order of R90. -/
def subKernels (kh kw : Nat) : List (List (Nat × Nat)) :=
  ((subAxis kh).map (fun a => (subAxis kw).map (fun b =>
    ((List.range a.2).map (fun i => (List.range b.2).map (fun j => (a.1 + i, b.1 + j)))).flatten))).flatten

/-- Channels of a tap rounded up to whole 64 bytes (R90). -/
def padChan (elem n : Nat) : Nat := ceilDiv (n * elemBits elem) 512 * 512 / elemBits elem

def ORow.padTo (r : ORow) (n : Nat) : ORow := ⟨r.els ++ List.replicate (n - r.els.length) ⟨0, false⟩, r.scales⟩

/-- The weight rows of each tap in the contraction order: the tap's index in the whole order times the group's channels. -/
def tapStarts (ks : List (List (Nat × Nat))) (n : Nat) : List (List (Nat × Nat × Nat)) :=
  (ks.foldl (fun (a : List (List (Nat × Nat × Nat)) × Nat) k =>
    (a.1 ++ [k.zipIdx.map (fun t => (t.1.1, t.1.2, (a.2 + t.2) * n))], a.2 + k.length)) ([], 0)).1

/-- The contraction of one output pixel and column: one pair of vectors per sub-kernel (R90). -/
def convPairs (i : Img) (w : Wnd) (c0 n oy ox : Nat) (ks : List (List (Nat × Nat × Nat))) (col : ORow) : List (ORow × ORow) :=
  ks.map (fun k =>
    let np := padChan i.elem n
    (k.foldl (fun r t => r.append ((tapOf i w c0 n oy ox t.1 t.2.1).padTo np)) ⟨[], []⟩,
     k.foldl (fun r t => r.append ((col.slice t.2.2 n).padTo np)) ⟨[], []⟩))

/-- Passes of a contraction: pieces of the pass depth (R24, R93). -/
def passesOf (depth : Nat) (l : List (ORow × ORow)) : List (ORow × ORow) :=
  (l.map (fun y =>
    let a := chunks depth y.1.els
    let b := chunks depth y.2.els
    let sa := chunks (max 1 (depth / 32)) y.1.scales
    let sb := chunks (max 1 (depth / 32)) y.2.scales
    (List.range a.length).map (fun k => (⟨a.getD k [], sa.getD k []⟩, ⟨b.getD k [], sb.getD k []⟩)))).flatten

def accPasses (k : AccKind) (depth ea eb : Nat) (l : List (ORow × ORow)) : Acc :=
  l.foldl (fun a y => a.entry k depth ⟨ea, y.1⟩ ⟨eb, y.2⟩) {}

/-- Cut a list at the lengths given; the rest is the last part. -/
def splitAtAll {α : Type} : List Nat → List α → List (List α)
  | [], l => [l]
  | n :: t, l => l.take n :: splitAtAll t (l.drop n)

/-- A contraction split over tiles in the fast mode (R94, R525): each part drained to FP32, combined in arrival order. -/
def splitCell (k : AccKind) (depth ea eb : Nat) (parts order : List Nat) (l : List (ORow × ORow)) : Cell :=
  let ps := ((splitAtAll parts l).filter (fun p => !p.isEmpty)).map (fun p =>
    let a := accPasses k depth ea eb p
    (f32Keep (a.value k), a.p))
  let arr := (order.filterMap (fun j => if j < ps.length then some j else none)).eraseDups
  let seq := (arr ++ (List.range ps.length).filter (fun j => !arr.contains j)).map (fun j => ps.getD j (0, false))
  match seq with
  | [] => ⟨.num false 0 0, false⟩
  | h :: t => ⟨f32V (t.foldl (fun a y => f32Add a y.1) h.1), seq.any (·.2)⟩

/-- A layer of a convolution or pooling operator, apart from where its image and its output lie. -/
structure Layer where
  op : Nat
  wnd : Wnd
  cvt : Cvt
  groups : Nat
  wts : List ORow
  wElem : Nat
  bias : List El
  deriving DecidableEq, Repr

/-- Depthwise: each group has one input and one output channel (R95). -/
def Layer.depthwise (l : Layer) (n : Nat) : Bool := l.groups == l.wnd.cIn && l.groups == n && decide (1 < l.groups)

/-- One depthwise output (R95): the FP32 sum of the products in tap order. -/
def depthCell (i : Img) (w : Wnd) (wElem c oy ox : Nat) (col : ORow) : Cell :=
  let taps := (subKernels w.kh w.kw).flatten
  let ps := taps.zipIdx.map (fun t =>
    let a := (tapOf i w c 1 oy ox t.1.1 t.1.2).els.getD 0 ⟨0, false⟩
    let b := col.els.getD t.2 ⟨0, false⟩
    (f32Mul (f32Of (elemVal i.elem a.code)) (f32Of (elemVal wElem b.code)), a.p || b.p))
  match ps with
  | [] => ⟨.num false 0 0, false⟩
  | h :: t => ⟨f32V (t.foldl (fun a y => f32Add a y.1) h.1), ps.any (·.2)⟩

/-- Output channels of a layer. -/
def Layer.chans (l : Layer) : Nat := if l.op = 0x10 then l.wts.length else l.wnd.cIn

/-- The cells of a convolution over a range of output pixels, with the saturation mark (R90-R95). -/
def convCells (x : OpCtx) (split : Bool) (i : Img) (l : Layer) (pixels : List (Nat × Nat)) : List (List Cell) × Bool :=
  let n := l.wts.length
  if l.depthwise n then
    (pixels.map (fun p => l.wts.zipIdx.map (fun c => depthCell i l.wnd l.wElem c.2 p.1 p.2 c.1)), false)
  else match pairKind i.elem l.wElem with
    | none => ([], false)
    | some k =>
      let d := pairDepth i.elem l.wElem
      let ci := l.wnd.cIn / l.groups
      let ks := tapStarts (subKernels l.wnd.kh l.wnd.kw) ci
      let per := n / l.groups
      let pairs := fun (p : Nat × Nat) (c : ORow × Nat) => passesOf d (convPairs i l.wnd (c.2 / per * ci) ci p.1 p.2 ks c.1)
      let isSplit := split && !x.det && !x.env.parts.isEmpty && (match k with | .fixed _ _ => false | _ => true)
      if isSplit then
        (pixels.map (fun p => l.wts.zipIdx.map (fun c => splitCell k d i.elem l.wElem x.env.parts x.env.order (pairs p c))), false)
      else
        let accs := pixels.map (fun p => l.wts.zipIdx.map (fun c => accPasses k d i.elem l.wElem (pairs p c)))
        (accCells k accs, anySat accs)

/-- The FP32 value of an element, with its scale (R96, R193). -/
def elemF32 (e : Nat) (y : El) (sc : Option El) : Nat :=
  match sc with
  | some z => if z.code = 0xFF then f32Nan else f32Keep ((elemVal e y.code).scale ((z.code : Int) - 127))
  | none => f32Keep (elemVal e y.code)

/-- Positions of a pooling window that take part, in row-major order (R97, R98). -/
def poolTaps (i : Img) (w : Wnd) (avg : Bool) (oy ox : Nat) : List ORow :=
  ((List.range w.kh).map (fun ky => (List.range w.kw).filterMap (fun kx =>
    match w.tap oy ox ky kx with
    | (.inside y, .inside z) => some (i.at y z)
    | (.beyond, _) => none
    | (_, .beyond) => none
    | _ => if avg && w.countPad then some (tapOf i w 0 w.cIn oy ox ky kx) else none))).flatten

/-- One pooled pixel: MAXPOOL codes, or the FP32 quotient of AVGPOOL (R96-R99). -/
def poolPixel (i : Img) (w : Wnd) (avg : Bool) (pos oy ox : Nat) : List Cell × List El :=
  let taps := poolTaps i w avg oy ox
  let chan := fun (c : Nat) => taps.map (fun t => t.els.getD c ⟨0, false⟩)
  if avg then
    ((List.range w.cIn).map (fun c =>
      let els := chan c
      let vs := els.map (fun y => elemF32 i.elem y none)
      let sum := match vs with
        | [] => 0
        | h :: t => t.foldl f32Add h
      ⟨f32V (f32Div sum (f32OfNat taps.length)), els.any El.p⟩), [])
  else
    ([], (List.range w.cIn).map (fun c =>
      match chan c with
      | [] => ⟨Config.emptyPool (pos + c) % 2 ^ elemBits i.elem, false⟩
      | h :: t => ⟨t.foldl (fun a y => pick true i.elem a y.code) (pick true i.elem h.code h.code), (h :: t).any El.p⟩))

/-- The window of GLOBAL_AVG: the whole plane (R96). -/
def globalWnd (w : Wnd) : Wnd :=
  { w with kh := w.inH, kw := w.inW, sh := 1, sw := 1, dh := 1, dw := 1, padT := 0, padB := 0, padL := 0, padR := 0,
           outY0 := 0, outX0 := 0, outRows := 1, outCols := 1 }

/-- The conversion of a pooled quotient: no multiplier, shift or zero point (R99). -/
def Cvt.plain (c : Cvt) : Cvt := { c with mult := 1, shift := 0, zp := 0, biasFmt := 0 }

/-- Is the accumulator of a layer an integer one? -/
def Layer.intAcc (l : Layer) : Bool := l.op == 0x10 && elemIntAcc l.wnd.elem

/-- The converted outputs of a layer over a list of output pixels. -/
def layerOut (x : OpCtx) (split : Bool) (i : Img) (l : Layer) (pixels : List (Nat × Nat)) : Conv × Bool :=
  let n := l.chans
  let pool := l.op != 0x10
  let wOut := l.wnd.wOut pool
  let pos := fun (r : Nat) => let p := pixels.getD r (0, 0); (p.1 * wOut + p.2) * n
  if l.op = 0x10 then
    let c := convCells x split i l pixels
    (convertCells x l.cvt l.intAcc c.1 l.bias pos, c.2)
  else
    let avg := l.op != 0x11
    let px := pixels.zipIdx.map (fun p => poolPixel i l.wnd avg (pos p.2) p.1.1 p.1.2)
    if avg then (convertCells x l.cvt.plain false (px.map (·.1)) [] pos, false)
    else ({ rows := px.map (·.2) }, false)

/-- The output pixels of a WND's range, row-major. -/
def Wnd.pixels (w : Wnd) : List (Nat × Nat) :=
  ((List.range w.outRows).map (fun y => (List.range w.outCols).map (fun z => (w.outY0 + y, w.outX0 + z)))).flatten

/-- The channel of the largest output of a pixel (R104): every NaN below every number, the lowest channel on a tie. -/
def argmaxRow (e : Nat) (row : List El) : El × Bool :=
  let better := fun (a b : Nat × Nat) =>
    let na := isNanCode e a.1
    let nb := isNanCode e b.1
    if nb then a else if na then b else if keyOrd e a.1 < keyOrd e b.1 then b else a
  let live := row.zipIdx.map (fun y => (y.1.code, y.2))
  let p := row.any El.p
  if row.all (fun y => isNanCode e y.code) then (⟨0, p⟩, !row.isEmpty)
  else match live with
    | [] => (⟨0, p⟩, false)
    | h :: t => (⟨(t.foldl better h).2, p⟩, false)

/-- Which path of R105 a convolution takes: 1 thin-channel engine, 2 space to depth, 0 direct; with the S2D_NOSPACE mark (R107). -/
def State.convPath (s : State) (x : OpCtx) (w : Wnd) (wts : Isd) (o : Isd) (groups n : Nat) : Nat × Bool :=
  let eb := elemBits w.elem
  let intFp8 := (decide (w.elem ≤ 3) && decide (wts.elem ≤ 3)) || (elemIsFp8 w.elem && elemIsFp8 wts.elem)
  let g := if n ≤ 1 then 1 else 2 ^ ((n - 1).log2 + 1)
  let in1_7 := fun (v : Nat) => decide (1 ≤ v) && decide (v ≤ 7)
  let in1_4 := fun (v : Nat) => decide (1 ≤ v) && decide (v ≤ 4)
  let thin := decide (w.cIn * eb < 512) || decide (n ≤ 16)
  let tce := s.flag .CLU_CTRL_TCE_EN x.clu && intFp8 && w.src == 1 && o.src == 1 && in1_7 w.kh && in1_7 w.kw && in1_4 w.sh && in1_4 w.sw
    && in1_4 w.dh && in1_4 w.dw && decide (1 ≤ n) && decide (n ≤ 64) && thin
    && decide (w.kh * w.kw * w.cIn * g * max 8 (elemBits wts.elem) ≤ 8 * 65536) && groups == 1
  if tce then (1, false)
  else
    let b := [2, 4, 8].find? (fun b => w.sh % b == 0 && decide (512 ≤ b * b * w.cIn * eb))
    match b with
    | none => (0, false)
    | some b =>
      let cond := intFp8 && w.sh == w.sw && w.dh == 1 && w.dw == 1 && decide (w.cIn * eb < 512) && s.flag .CLU_CTRL_S2D_EN x.clu
      let packed := ceilDiv (w.inH + w.padT + w.padB) b * ceilDiv (w.inW + w.padL + w.padR) b * (ceilDiv (b * b * w.cIn * eb) 512 * 64)
      if !cond then (0, false)
      else if packed ≤ s.fld .CLU_S2D_SCRATCH_SIZE x.clu * 4096 then (2, false) else (0, true)

/-- The convolution of an operator block: its parts after the checks. -/
structure ConvIn where
  bad : Nat := 0
  layer : Layer := ⟨0, Wnd.parse [], Cvt.parse [], 1, [], 0, []⟩
  o : Isd := Isd.parse []
  o2 : Isd := Isd.parse []
  path : Nat := 0
  noSpace : Bool := false
  argmax : Bool := false
  keep : Bool := true
  wue : List Nat := []
  deriving DecidableEq, Repr

/-- Weight rows of a convolution: KH · KW · C_IN / G rows of N elements, in the order of R90 (log entry 18). -/
def State.convIn (s : State) (x : OpCtx) (blk : List Nat) : ConvIn :=
  let h := OpHdr.parse blk
  let am := bit h.opflags 0
  let g := bits h.arg0 0 17
  let w := Wnd.parse (h.a.headD [])
  let wt := Isd.parse (h.b.headD [])
  let o := h.o.getD 0 nilIsd
  let o2 := h.o.getD 1 nilIsd
  let n := wt.rowBytes * 8 / elemBits wt.elem
  let m := w.outRows * w.outCols
  let ci := w.cIn / g
  if !h.ok 1 1 1 1 1 2 3 || h.outs != (if am then 2 else 1) || (bit h.opflags 1 && !am) || g == 0 || decide (65536 < g) || decide (2 ^ 17 ≤ h.arg0)
    then { bad := stIdxFormat }
  else
    let dwise := g == w.cIn && g == n && decide (1 < g)
    let chk := firstBad [s.isdCheck x wt wt.elem true, s.isdCheck x o o.elem false true h.cvt.mxAxis,
      if am then s.isdCheck x o2 o2.elem false true else 0, s.wndCheck x w false false,
      if w.cIn % g = 0 ∧ n % g = 0 ∧ wt.kind = 0 ∧ wt.rowCount = w.kh * w.kw * ci then 0 else stIdxFormat,
      if dwise ∧ (16 < w.kh ∨ 16 < w.kw) then stConvShape else 0,
      if elemIsMx w.elem ∧ ci % 32 ≠ 0 then stConvShape else 0,
      if o.outOk m n h.cvt.outFmt ∧ (!am ∨ o2.outOk m 1 1) then 0 else stIdxFormat,
      if h.cvt.ok (elemIntAcc w.elem) then 0 else stIdxFormat, if s.biasOk x h.cvt n then 0 else stIdxAccess,
      if (pairKind w.elem wt.elem).isNone then stOpFault else 0]
    if chk ≠ 0 then { bad := chk }
    else
      let wts := s.readWeights x wt
      let p := s.convPath x w wt o g n
      { layer := { op := 0x10, wnd := w, cvt := h.cvt, groups := g, wts := wts.cols, wElem := wt.elem, bias := s.biases x h.cvt n },
        o := o, o2 := o2, path := p.1, noSpace := p.2, argmax := am, keep := !am || bit h.opflags 1, wue := wts.ue }

/-- CONV (R85-R108): the three paths give the same bits (R106). -/
def opConv (s : State) (x : OpCtx) (blk : List Nat) : OpRes :=
  let c := s.convIn x blk
  if c.bad ≠ 0 then .fail c.bad
  else
    let img := s.readImg x c.layer.wnd
    let split := s.flag .CLU_CTRL_SPLIT_EN x.clu && decide (c.layer.wnd.outRows * c.layer.wnd.outCols < 512)
    let r := layerOut x split img c.layer c.layer.wnd.pixels
    let am := r.1.rows.map (argmaxRow c.layer.cvt.outFmt)
    { writes := (if c.keep then r.1.rows.zipIdx.map (fun e => rowWrite (s.outRow x c.o e.2) (elemBits c.layer.cvt.outFmt) e.1)
                                ++ r.1.scales.map (fun g => rowWrite ((s.local x (c.o.auxBase + g.1) 1).getD 0) 8 [g.2]) else [])
                ++ (if c.argmax then am.zipIdx.map (fun e => rowWrite (s.outRow x c.o2 e.2) 8 [e.1.1]) else [])
      accSat := r.2, nanOut := r.1.nan, cvtOvf := r.1.ovf, argNan := c.argmax && am.any (·.2), ue := img.ue ++ c.wue }

/-- MAXPOOL, AVGPOOL and GLOBAL_AVG (R96-R99). -/
def opPool (op : Nat) (s : State) (x : OpCtx) (blk : List Nat) : OpRes :=
  let h := OpHdr.parse blk
  let w0 := Wnd.parse (h.a.headD [])
  let w := if op = 0x13 then globalWnd w0 else w0
  let o := h.o.getD 0 nilIsd
  let m := w.outRows * w.outCols
  if !h.ok 1 1 0 0 1 1 0 || h.arg0 != 0 || h.arg1 != 0 || h.arg2 != 0 then .fail stIdxFormat
  else
    let chk := firstBad [s.isdCheck x o o.elem false true h.cvt.mxAxis, s.wndCheck x w true (op == 0x13),
      if elemIsMx w.elem ∨ elemIsMx h.cvt.outFmt then stIdxFormat else 0,
      if op = 0x13 ∧ 65536 < w.inH * w.inW then stConvShape else 0,
      if o.outOk m w.cIn h.cvt.outFmt ∧ h.cvt.biasFmt = 0 ∧ (op ≠ 0x11 ∨ h.cvt.outFmt = w.elem) ∧ (op = 0x11 ∨ drainFmt h.cvt.outFmt) then 0
        else stIdxFormat]
    if chk ≠ 0 then .fail chk
    else
      let img := s.readImg x w
      let r := layerOut x false img { op := op, wnd := w, cvt := h.cvt, groups := 1, wts := [], wElem := 0, bias := [] } w.pixels
      { writes := r.1.rows.zipIdx.map (fun e => rowWrite (s.outRow x o e.2) (elemBits h.cvt.outFmt) e.1),
        nanOut := r.1.nan, cvtOvf := r.1.ovf, ue := img.ue }

/-! ### ELTWISE and RANDOM (R193, R194) -/

/-- The functions of R193; none for a code outside the table. The second part says whether the function has two inputs. -/
def eltFun : Nat → Option (Bool × (Nat → Nat → Nat → Nat))
  | 0 => some (true, fun a b _ => f32Add a b)
  | 1 => some (true, fun a b _ => f32Sub a b)
  | 2 => some (true, fun a b _ => f32Mul a b)
  | 3 => some (true, fun a b s => f32Fma a b s)
  | 4 => some (true, fun a b _ => f32Min a b)
  | 5 => some (true, fun a b _ => f32Max a b)
  | 6 => some (false, fun a _ s => f32Mul a s)
  | 7 => some (false, fun a _ _ => f32Exp2 a)
  | 8 => some (false, fun a _ _ => f32Log2 a)
  | 9 => some (false, fun a _ _ => f32Rcp a)
  | 10 => some (false, fun a _ _ => f32Rsqrt a)
  | 11 => some (true, fun a b _ => f32Div a b)
  | 12 => some (false, fun a _ _ => f32Sqrt a)
  | 13 => some (false, fun a _ _ => a)
  | 14 => some (true, fun a b _ => if f32Lt b a then f32One else 0)
  | _ => none

/-- The elements of a row as FP32 codes with their marks. -/
def rowF32 (e : Nat) (r : ORow) : List (Nat × Bool) :=
  r.els.zipIdx.map (fun y =>
    let sc := if elemIsMx e then r.scales.getD (y.2 / 32) none else none
    (elemF32 e y.1 sc, y.1.p || (match sc with | some z => z.p | none => false)))

/-- ELTWISE (R193). -/
def opEltwise (s : State) (x : OpCtx) (blk : List Nat) : OpRes :=
  let h := OpHdr.parse blk
  let ds := pliesOf h.a
  let d := ds.headD nilIsd
  let o := h.o.getD 0 nilIsd
  let b := ds.getD 1 nilIsd
  if !h.ok 1 2 0 0 1 1 0 || decide (256 ≤ h.arg0) || decide (2 ^ 32 ≤ h.arg1) || h.arg2 != 0 then .fail stIdxFormat
  else match eltFun h.arg0 with
    | none => .fail stIdxFormat
    | some f =>
      let n := d.elems
      let chk := firstBad ([s.pliesCheck x ds, if ds.all (fun y => y.kind == 0 && y.outRows == d.outRows && y.elems == n) then 0 else stIdxFormat,
        if f.1 ∧ ds.length < 2 then stIdxFormat else 0] ++ [s.outCheck x { h with cvt := { h.cvt with biasFmt := h.cvt.biasFmt } } o d.outRows n false])
      if chk ≠ 0 then .fail chk
      else
        let oa := s.readOperand x [d] d.outRows
        let ob := if ds.length = 2 then s.readOperand x [b] d.outRows else { oa with range := 0, ue := [] }
        let rowsOf := fun (y : Operand) => y.rows.map (fun r => (r.map (fun z => rowF32 d.elem z.row)).flatten)
        let cells := ((rowsOf oa).zip (rowsOf ob)).map (fun y => (y.1.zip y.2).map (fun z =>
          (⟨f32V (f.2 z.1.1 z.2.1 (bits h.arg1 0 32)), z.1.2 || (f.1 && z.2.2)⟩ : Cell)))
        let r := (s.drain x o h.cvt.plain false cells (fun r => r * n)).withOperand oa
        if ds.length = 2 then r.withOperand ob else r

/-- RANDOM (R194): one generator output per element, by its logical index. -/
def opRandom (s : State) (x : OpCtx) (blk : List Nat) : OpRes :=
  let h := OpHdr.parse blk
  let dist := bits h.arg0 0 2
  let p := bits h.arg1 0 32
  let ds := pliesOf h.a
  let o := h.o.getD 0 nilIsd
  let d := ds.headD nilIsd
  let n := o.rowBytes * 8 / elemBits o.elem
  if !h.ok 0 1 0 0 1 1 0 || decide (4 ≤ h.arg0) || dist == 3 || h.arg2 != 0 then .fail stIdxFormat
  else
    let pOk : Bool := match f32V p with
      | .num neg m _ => (!neg || m == 0) && f32Lt p f32One
      | _ => false
    let chk := firstBad ([s.pliesCheck x ds, s.isdCheck x o o.elem false true h.cvt.mxAxis,
      if ((dist == 2) == (ds.length == 1)) = true ∧ (dist ≠ 2 ∨ pOk) ∧ (dist ≠ 0 ∨ h.cvt.outFmt = 0x0F) ∧ (dist = 0 ∨ drainFmt h.cvt.outFmt)
        ∧ o.elem = h.cvt.outFmt ∧ h.cvt.biasFmt = 0
        ∧ (dist ≠ 2 ∨ (d.kind = 0 ∧ d.outRows = o.rowCount ∧ d.elems = n)) then 0 else stIdxFormat])
    if chk ≠ 0 then .fail chk
    else
      let g := fun (r c : Nat) => gen x.seed x.stream (r * n + c)
      if dist = 0 then
        { writes := s.codeOut x o ((List.range o.rowCount).map (fun r => (List.range n).map (fun c => ⟨g r c, false⟩))) }
      else
        let u := fun (r c : Nat) => f32Of (.num false (g r c / 256) (-24))
        if dist = 1 then
          s.drain x o h.cvt.plain false ((List.range o.rowCount).map (fun r => (List.range n).map (fun c => ⟨f32V (u r c), false⟩))) (fun r => r * n)
        else
          let k := f32Div f32One (f32Sub f32One p)
          let op := s.readOperand x [d] d.outRows
          let cells := op.rows.zipIdx.map (fun r => ((r.1.map (fun z => rowF32 d.elem z.row)).flatten).zipIdx.map (fun y =>
            (⟨if f32Lt (u r.2 y.2) p then .num false 0 0 else f32V (f32Mul y.1.1 k), y.1.2⟩ : Cell)))
          (s.drain x o h.cvt.plain false cells (fun r => r * n)).withOperand op

/-! ### Fused groups (R109-R116) -/

/-- A fused group header (R110). -/
structure GroupHdr where
  version : Nat
  layers : Nat
  stripes : Nat
  clusters : Nat
  outW : Nat
  outH : Nat
  layerTable : Nat
  stripeTable : Nat
  depths : List Nat
  outBase : Nat
  outSrc : Nat
  band : Nat
  reserved : Bool
  deriving DecidableEq, Repr

def GroupHdr.parse (b : List Nat) : GroupHdr :=
  { version := fieldOf b 0 1, layers := fieldOf b 1 1, stripes := fieldOf b 2 1, clusters := fieldOf b 3 1, outW := fieldOf b 4 2,
    outH := fieldOf b 6 2, layerTable := fieldOf b 8 8, stripeTable := fieldOf b 16 8, depths := (b.drop 0x18).take 7,
    outBase := fieldOf b 0x20 8, outSrc := fieldOf b 0x28 1, band := fieldOf b 0x29 1,
    reserved := fieldOf b 0x1F 1 == 0 && fieldOf b 0x2A 22 == 0 }

/-- The layer records of a group (R192): header, WND, weights ISD. -/
def State.groupLayer (s : State) (x : OpCtx) (g : GroupHdr) (k : Nat) : OpHdr × Wnd × Isd :=
  match s.local x (g.layerTable + 192 * k) 192 with
  | none => (OpHdr.parse [], Wnd.parse [], Isd.parse [])
  | some a =>
    let b := s.bytes a 192
    (OpHdr.parse (b.take 64), Wnd.parse ((b.drop 64).take 64), Isd.parse (b.drop 128))

/-- First output columns of the last layer, per stripe in ownership order. -/
def State.stripeCols (s : State) (x : OpCtx) (g : GroupHdr) : List Nat :=
  match s.local x g.stripeTable (2 * (g.stripes * g.clusters)) with
  | none => []
  | some a => unpack 16 (g.stripes * g.clusters) (s.bytes a (2 * (g.stripes * g.clusters)))

/-- Columns [a, b] that each stripe owns at a layer, from the last layer back (R111); `ws` the WNDs of the later layers, nearest first. -/
def ownedCols (width : Nat) (last : Bool) (own : Nat × Nat) (w : Wnd) : Nat × Nat :=
  (own.1 * w.sw, if last then width - 1 else min (width - 1) ((own.2 + 1) * w.sw - 1))

/-- Columns of a layer that a stripe's next layer reads (R111). -/
def readCols (width : Nat) (own : Nat × Nat) (w : Wnd) : Nat × Nat :=
  (own.1 * w.sw - w.padL, min (width - 1) (own.2 * w.sw + (w.kw - 1) * w.dw - w.padL))

/-- Owned columns of every stripe at every layer, last layer first. -/
def ownAll (widths : List Nat) (wnds : List Wnd) (cols : List (Nat × Nat)) : List (List (Nat × Nat)) :=
  match wnds, widths with
  | w :: ws, width :: ts =>
    let prev := cols.zipIdx.map (fun c => ownedCols width (c.2 + 1 == cols.length) c.1 w)
    cols :: ownAll ts ws prev
  | _, _ => [cols]

/-- A checked group. -/
structure GroupIn where
  bad : Nat := 0
  hdr : GroupHdr := GroupHdr.parse []
  layers : List Layer := []
  img : Img := ⟨0, 0, 0, [], []⟩
  wue : List Nat := []
  /-- Owned last-layer columns of the stripes. -/
  stripes : List (Nat × Nat) := []
  deriving DecidableEq, Repr

/-- Line buffers that a group needs in one cluster: direction, layer, producer and consumer stripe, halo columns (R111). -/
structure BufPlan where
  dir : Nat
  layer : Nat
  prod : Nat
  cons : Nat
  cols : Nat × Nat
  lines : Nat
  depth : Nat
  rows : Nat
  deriving DecidableEq, Repr

def GroupIn.widths (g : GroupIn) : List Nat := g.layers.map (fun l => l.wnd.wOut (l.op != 0x10))
def GroupIn.heights (g : GroupIn) : List Nat := g.layers.map (fun l => l.wnd.hOut (l.op != 0x10))

/-- The bytes of one pixel of a layer's output. -/
def Layer.pixOut (l : Layer) : Nat := ceilDiv (l.chans * elemBits l.cvt.outFmt) 8

/-- The line buffers of the stripes `[first, first + n)` of one cluster. -/
def GroupIn.plan (g : GroupIn) (first n : Nat) : List BufPlan :=
  let ls := g.layers
  -- owned columns per layer, layer 0 first
  let own := (ownAll ((g.widths.reverse.drop 1)) ((ls.map Layer.wnd).reverse.take (ls.length - 1)) g.stripes).reverse
  ((List.range (ls.length - 1)).map (fun k =>
    let lay := ls.getD k ⟨0, Wnd.parse [], Cvt.parse [], 1, [], 0, []⟩
    let nxt := ls.getD (k + 1) lay
    let width := g.widths.getD k 1
    let o := own.getD k []
    let on := own.getD (k + 1) []
    let depth := g.hdr.depths.getD k 0 + 1
    let mk := fun (dir p c : Nat) (a b : Nat) =>
      if b < a then [] else [{ dir := dir, layer := k, prod := p, cons := c, cols := (a, b),
                               lines := ceilDiv ((b + 1 - a) * lay.pixOut) 64, depth := depth, rows := g.heights.getD k 0 : BufPlan }]
    ((List.range (n - 1)).map (fun j =>
      let l := first + j
      let r := first + j + 1
      let need := fun (q : Nat) => readCols width (on.getD q (0, 0)) nxt.wnd
      let oc := fun (q : Nat) => o.getD q (0, 0)
      -- to the right: columns left of the right stripe's own; to the left: columns right of the left stripe's own
      mk 0 j (j + 1) ((need r).1) ((oc r).1 - 1) |>.filter (fun _ => decide ((need r).1 < (oc r).1))
        |> (· ++ (mk 1 (j + 1) j ((oc l).2 + 1) ((need l).2)).filter (fun _ => decide ((oc l).2 < (need l).2))))).flatten)).flatten

/-- The minimum depth of R114 for the buffer after a layer. -/
def minDepth (band : Nat) (next : Wnd) : Nat := (band - 1) * next.sh + ((next.kh - 1) * next.dh + 1) + band - 1

/-- Bytes of line buffers a plan needs. -/
def planBytes (p : List BufPlan) : Nat := (p.map (fun b => b.lines * b.depth * 64)).sum

/-- Read and check a group (R110, R114, R115, R192). -/
def State.groupIn (s : State) (x : OpCtx) (blk : List Nat) : GroupIn :=
  let g := GroupHdr.parse blk
  let r := fun (v lo hi : Nat) => decide (lo ≤ v) && decide (v ≤ hi)
  if !(g.version == 1 && r g.layers 1 8 && r g.stripes 1 16 && r g.clusters 1 8 && r g.outSrc 1 2 && r g.band 1 64 && g.reserved
        && (g.depths.zipIdx).all (fun d => if d.2 + 1 < g.layers then d.1 != 0 else d.1 == 0)) then { bad := stIdxFormat }
  else if (s.local x g.layerTable (192 * g.layers)).isNone || (s.local x g.stripeTable (2 * (g.stripes * g.clusters))).isNone then
    { bad := stIdxAccess }
  else
    let recs := (List.range g.layers).map (s.groupLayer x g)
    let mk := fun (e : (OpHdr × Wnd × Isd) × Nat) =>
      let h := e.1.1
      let w := e.1.2.1
      let wt := e.1.2.2
      let op := bits h.arg2 0 16
      let n := wt.rowBytes * 8 / elemBits wt.elem
      let gr := if op = 0x10 then max 1 (bits h.arg0 0 17) else 1
      let pool := op != 0x10
      let bad := firstBad [if op = 0x10 ∨ op = 0x11 ∨ op = 0x12 then 0 else stIdxFormat,
        if op = 0x10 then s.isdCheck x wt wt.elem true else 0,
        if w.formatOk pool then 0 else stIdxFormat,
        if e.2 = 0 then s.wndCheck x { w with outY0 := 0, outX0 := 0, outRows := 0, outCols := 0 } pool false else 0,
        if w.hOut pool = 0 ∨ w.wOut pool = 0 then stConvShape else 0,
        if op = 0x10 ∧ (w.cIn % gr ≠ 0 ∨ n % gr ≠ 0 ∨ wt.rowCount ≠ w.kh * w.kw * (w.cIn / gr)) then stIdxFormat else 0,
        if op = 0x10 then (if h.cvt.ok (elemIntAcc w.elem) then 0 else stIdxFormat) else 0,
        if op = 0x10 ∧ (pairKind w.elem wt.elem).isNone then stOpFault else 0,
        if s.biasOk x h.cvt n then 0 else stIdxAccess]
      let wts := if op = 0x10 ∧ bad = 0 then s.readWeights x wt else ⟨[], []⟩
      (bad, ({ op := op, wnd := w, cvt := h.cvt, groups := gr, wts := wts.cols, wElem := wt.elem, bias := s.biases x h.cvt n } : Layer), wts.ue)
    let ls := recs.zipIdx.map mk
    let bad := firstBad (ls.map (·.1))
    if bad ≠ 0 then { bad := bad }
    else
      let layers := ls.map (fun y => y.2.1)
      let cols := s.stripeCols x g
      let stripes := cols.zipIdx.map (fun c => (c.1, (cols.getD (c.2 + 1) g.outW) - 1))
      let lastL := layers.getLastD ⟨0, Wnd.parse [], Cvt.parse [], 1, [], 0, []⟩
      -- each layer reads the one before it
      let chain := (layers.zip (layers.drop 1)).all (fun y =>
        y.2.wnd.inH == y.1.wnd.hOut (y.1.op != 0x10) && y.2.wnd.inW == y.1.wnd.wOut (y.1.op != 0x10) && y.2.wnd.cIn == y.1.chans
          && y.2.wnd.elem == y.1.cvt.outFmt)
      let shape := chain && lastL.wnd.wOut (lastL.op != 0x10) == g.outW && lastL.wnd.hOut (lastL.op != 0x10) == g.outH
        && cols.headD 1 == 0 && (cols.zip (cols.drop 1)).all (fun y => decide (y.1 < y.2)) && cols.all (fun c => decide (c < g.outW))
        && !elemIsMx lastL.cvt.outFmt
      let gi : GroupIn := { hdr := g, layers := layers, img := s.readImg x (layers.headD lastL).wnd, wue := (ls.map (fun y => y.2.2)).flatten, stripes := stripes }
      let deep := (layers.drop 1).zipIdx.all (fun y => decide (minDepth g.band y.1.wnd ≤ g.depths.getD y.2 0 + 1) || g.stripes == 1)
      let fits := (List.range g.clusters).all (fun c =>
        decide (planBytes (gi.plan (c * g.stripes) g.stripes) ≤ s.fld .CLU_LB_SIZE_SIZE x.clu * 4096))
      -- rolling rows and weights of the layers in one tile store (R115; log entry 19)
      let widest := (stripes.map (fun c => c.2 + 1 - c.1)).foldl max 0
      let rolling := (layers.map (fun l => ((g.band - 1) * l.wnd.sh + (l.wnd.kh - 1) * l.wnd.dh + 1) * (widest * l.wnd.sw + l.wnd.kw * l.wnd.dw)
        * ceilDiv (l.wnd.cIn * elemBits l.wnd.elem) 512 * 64 + ceilDiv ((l.wts.map (fun c => c.els.length)).sum * elemBits l.wElem) 8)).sum
      let outN := g.outW * g.outH * lastL.pixOut
      if !shape || !deep || !fits || decide (2 ^ 21 < rolling) then { bad := stConvShape }
      else if (s.place x g.outSrc g.outBase outN).isNone then { bad := stIdxAccess }
      else gi

/-- The image that a layer makes from its input image: every output pixel (R116). -/
def nextImg (x : OpCtx) (i : Img) (l : Layer) : Img × Conv × Bool :=
  let pool := l.op != 0x10
  let hO := l.wnd.hOut pool
  let wO := l.wnd.wOut pool
  let w := { l.wnd with outY0 := 0, outX0 := 0, outRows := hO, outCols := wO }
  let r := layerOut x false i { l with wnd := w } w.pixels
  let nb := ceilDiv l.chans 32
  let px := r.1.rows.zipIdx.map (fun e =>
    (⟨e.1, if elemIsMx l.cvt.outFmt then (List.range nb).map (fun b => ((r.1.scales.find? (fun g => g.1 == e.2 * nb + b)).map (·.2))) else []⟩ : ORow))
  ({ h := hO, w := wO, elem := l.cvt.outFmt, pix := chunks (max wO 1) px, ue := i.ue }, r.1, r.2)

/-- The images after each layer of a group, with the marks met. -/
def groupRun (x : OpCtx) : Img → List Layer → List (Img × Conv × Bool)
  | _, [] => []
  | i, l :: t =>
    let r := nextImg x i l
    r :: groupRun x r.1 t

/-- The output of a group: bit-identical to its layers run one by one (R116). -/
def opGroup (s : State) (x : OpCtx) (blk : List Nat) : OpRes :=
  let g := s.groupIn x blk
  if g.bad ≠ 0 then .fail g.bad
  else
    let rs := groupRun x g.img g.layers
    match rs.getLast? with
    | none => .fail stIdxFormat
    | some r =>
      let base := (s.place x g.hdr.outSrc g.hdr.outBase 0).getD 0
      let e := r.1.elem
      let lb := ceilDiv ((r.1.pix.headD []).length * ((r.1.at 0 0).els.length * elemBits e)) 8
      { writes := r.1.pix.zipIdx.map (fun y => rowWrite (base + y.2 * lb) (elemBits e) ((y.1.map ORow.els).flatten))
        accSat := rs.any (fun y => y.2.2), nanOut := rs.any (fun y => y.2.1.nan), cvtOvf := rs.any (fun y => y.2.1.ovf),
        ue := g.img.ue ++ g.wue }

end Sys2Proof.Machine
end

