-- ==== Sys2Proof/Machine/Rings.lean ====
section
/-! DEFINITION. Rings, doorbells, descriptors, events and internal queues (R173-R217). -/

namespace Sys2Proof.Machine

/-! ### Doorbells (R179-R181, R454) -/

/-- A doorbell value that is dropped and reported. -/
def State.dbInvalid (s : State) (r page v : Nat) : State :=
  (s.setSts .RING_STS [0] r).emit 15 0x20 0x0001 r (page + v % 2 ^ 16 * 2 ^ 16)

/-- Does a doorbell act: the module takes work, the realm is ACTIVE, the write has 32 bits and no Reserved bit set? -/
def State.doorbell (s : State) (r v width top : Nat) : Bool := s.ready && s.active r && width == 32 && decide (v < top)

/-- SQ_TAIL: the new TAIL of a submission ring (R181). -/
def execSqTail (r n v width : Nat) (s : State) : Res :=
  .next (if !(s.doorbell r v width (2 ^ 15) && decide (n < 64) && s.flag .RING_SIZE_ENABLE r n) then s
    else
      let q := s.ring r n
      let size := s.sqSize r n
      if v < size ∧ (v + size - q.tail) % size + (q.tail + size - q.head) % size ≤ size - 1
      then s.setRing r n { q with tail := v }
      else s.dbInvalid r n v)

/-- CQ_HEAD: completion slots below this index are consumed (R176, R181). -/
def execCqHead (r n v width : Nat) (s : State) : Res :=
  .next (if !(s.doorbell r v width (2 ^ 15) && decide (n < 64) && s.flag .RING_SIZE_ENABLE r n) then s
    else
      let q := s.ring r n
      let size := s.cqSize r n
      if v < size ∧ (v + size - q.cqHead) % size ≤ (q.cqTail + size - q.cqHead) % size
      then s.setRing r n { q with cqHead := v }
      else s.dbInvalid r n v)

/-- EQ_HEAD: event slots below this index are consumed; a run of drops may now be reported (R181, R207). -/
def execEqHead (r v width : Nat) (s : State) : Res :=
  .next (if !(s.doorbell r v width (2 ^ 16) && s.flag .RING_EQ_CFG_ENABLE r) then s
    else
      let q := s.evRing r
      let size := s.eqSize r
      if v < size ∧ (v + size - q.head) % size ≤ (q.tail + size - q.head) % size
      then s.setEvRing r { q with head := v }
      else s.dbInvalid r 64 v)

/-- EQ_OVERFLOW: two slots are free again and the record of a run of drops is written (R207). -/
def execEqOverflow (r : Nat) (s : State) : Res :=
  s.whenReady (fun s => if r < 4 ∧ s.flag .RING_EQ_CFG_ENABLE r then s.eqOverflow r else s)

/-- MSIX_MESSAGE: the message of a ring pair (vector 0–63 of the realm) or of its event ring (64) is sent (R182). -/
def execMsixMessage (r n : Nat) (s : State) : Res :=
  s.whenReady (fun s =>
    if 4 ≤ r ∨ 65 ≤ n then s
    else if n = 64 then
      match (s.evRing r).irqDue with
      | some _ => (s.setEvRing r { s.evRing r with irqDue := none }).send (.msix (65 * r + 64))
      | none => s
    else
      match (s.ring r n).irqDue with
      | some _ => (s.setRing r n { s.ring r n with irqDue := none }).send (.msix (65 * r + n))
      | none => s)

/-! ### Descriptors (R175, R176, R183-R186) -/

/-- Fetched and not yet completed. -/
def maxFetched : Nat := 32

/-- DESCRIPTOR_FETCH: the descriptor after the last one fetched; `err` when the read returns an error or poisoned data, and `cqErr`
when the host will refuse its record (R175, R209). -/
def execDescriptorFetch (r n : Nat) (err cqErr : Bool) (s : State) : Res :=
  s.whenReady (fun s =>
    let q := s.ring r n
    if !(s.active r && decide (n < 64) && s.flag .RING_SIZE_ENABLE r n && s.flag .RING_CTRL_FETCH_EN r && !q.stopped && !s.flt.failed
        && q.fetch != q.tail && decide ((q.descs.filter (fun d => !d.extra)).length < maxFetched)) then s
    else if err then
      ((s.setRing r n { q with stopped := true }).setSts .RING_STS [1] r).emit 15 0x20 0x0002 r n
    else
      let d : Desc := { uid := s.nextUid, slot := q.fetch, raw := s.bytes (hostBase + s.sqBase r n + 64 * q.fetch) 64, cqErr := cqErr,
                        ctl := (s.word .DET_CTRL).toNat, fetchedAt := s.gauge }
      { s.setRing r n { q with fetch := (q.fetch + 1) % s.sqSize r n, descs := q.descs ++ [d] } with nextUid := s.nextUid + 1 })

/-- Bytes `a .. b - 1` of a descriptor are Reserved and zero. -/
def Desc.zeros (d : Desc) (a b : Nat) : Bool := ((d.raw.drop a).take (b - a)).all (· == 0)

/-- A JOB_KEY or PKG_KEY field of a descriptor. -/
def noKey : Nat := 0xFFFF

/-- Reserved fields and ranges of each type (R183-R186). -/
def Desc.fieldsOk (d : Desc) : Bool :=
  d.zeros 2 4 && decide (d.flags < 16) &&
  (match d.ty with
   | 0x00 => d.zeros 8 64
   | 0x01 => decide (64 ≤ d.num 0x18 4) && decide (d.num 0x18 4 ≤ 1048576) && d.zeros 0x1D 0x1E && d.zeros 0x38 64
   | 0x02 => decide (1 ≤ d.num 0x18 4) && decide (bits (d.byte 0x1C) 0 4 ≤ 2) && decide (bits (d.byte 0x1C) 4 4 ≤ 2)
             && decide (d.byte 0x1D ≤ 7) && d.zeros 0x20 64
   | 0x03 => decide (d.num 8 4 < 2 ^ 20) && d.zeros 0x20 64 &&
             (if d.byte 0x0C = 0 then decide (d.num 0x0E 2 ≤ 2048) && d.zeros 0x0D 0x0E && d.zeros 0x10 0x20
              else d.byte 0x0C == 1 && decide (1 ≤ d.byte 0x0D) && decide (d.byte 0x0D ≤ 16) && d.zeros 0x0E 0x10
                   && d.zeros (0x10 + d.byte 0x0D) 0x20)
   | 0x04 => decide (d.num 8 2 < 256) && decide (d.num 0x0A 2 ≤ 1023) && decide (d.byte 0x0C ≤ 3) && decide (d.byte 0x0D < 8) && d.zeros 0x0E 0x10
             && d.num 0x18 8 % 64 == 0 && decide (d.num 0x20 4 ≤ 524288) && (d.num 0x20 4 != 0 || d.num 0x10 8 != 0)
             && decide (1 ≤ d.num 0x24 4) && decide (d.num 0x24 4 ≤ 524288) && d.num 0x30 8 % 64 == 0
   | 0x05 => decide (d.byte 8 < 64) && d.zeros 9 0x0C && d.zeros 0x10 64
   | 0x06 => d.num 8 8 != 0 && decide (d.byte 0x14 ≤ 1) && decide (d.byte 0x15 < 64) && d.zeros 0x16 0x18 && d.zeros 0x1C 64
   | 0x07 => d.zeros 0x10 64
   | 0x08 => decide (d.num 8 2 < 256) && decide (d.byte 0x0A ≤ 1) && d.zeros 0x0B 0x0C && d.zeros 0x0E 0x10 && d.zeros 0x20 64
   | 0x09 => decide (d.num 8 2 < 256) && decide (d.byte 0x0A ≤ 1) && d.zeros 0x0B 64
   | 0x0A => decide (d.num 8 2 < 256) && decide (d.byte 0x0A ≤ 1) && decide (d.byte 0x0B ≤ 3) && d.zeros 0x1C 0x20 && d.zeros 0x2C 0x30 && d.zeros 0x38 64
   | 0x0B => d.zeros 0x10 64
   | 0x0C => d.zeros 0x10 64
   | 0x0D => d.num 8 8 % 4096 == 0 && decide (d.byte 0x18 < 64) && d.zeros 0x19 0x1C && d.zeros 0x20 64
   | 0x0E => d.num 8 8 % 4096 == 0 && decide (d.byte 0x18 < 64) && d.zeros 0x19 64
   | 0x0F => decide (d.byte 9 ≤ 1) && d.zeros 0x0A 0x0C && decide (1 ≤ d.num 0x10 4) && d.zeros 0x14 64
   | 0x10 => d.zeros 8 0x0C && d.zeros 0x10 64
   | _ => false)

/-- The FLAGS combinations of R184 and the enables of DET_CTRL as the fetch sampled them (R357). -/
def State.flagsOk (s : State) (r n : Nat) (d : Desc) : Bool :=
  let digest := bit d.flags 1
  let sign := bit d.flags 2
  (!digest || ((d.ty == 1 || d.ty == 0x0D || d.ty == 0x0E) && s.recBytes r n == 128 && bit d.ctl 0))
  && (!sign || (digest && d.ty == 1 && d.num 0x30 8 != 0 && bit d.ctl 1))
  && (!(d.ty == 0x0D || d.ty == 0x0E) || bit d.ctl 2)
  && (d.ty != 0x0F || bit d.ctl 3)

/-- Address of one side of a DMA, when the realm may reach it (R185, R391). -/
def State.dmaPlace (s : State) (r space clu a n : Nat) : Option Nat :=
  match space with
  | 0 => some (hostBase + a)
  | 1 => if s.inRegions r a n then some (lpddrBase + a) else none
  | _ => if 2 ^ 24 ≤ a && s.inCluster r (s.physCluster clu) (a - 2 ^ 24) n then some (clusterBase (s.physCluster clu) + (a - 2 ^ 24)) else none

/-- Addresses outside the realm's regions (R186). -/
def State.descAccess (s : State) (r : Nat) (d : Desc) : Bool :=
  match d.ty with
  | 0x01 => s.inRegions r (d.num 8 8) 64 && s.inRegions r (d.num 0x10 8) (d.num 0x18 4)
  | 0x02 =>
    let n := d.num 0x18 4
    (s.dmaPlace r (bits (d.byte 0x1C) 0 4) (d.byte 0x1D) (d.num 8 8) n).isSome
      && (s.dmaPlace r (bits (d.byte 0x1C) 4 4) (d.byte 0x1D) (d.num 0x10 8) n).isSome
  | 0x03 => (match s.kvm.skein (d.num 8 4) with
             | some k => k.realm == r
             | none => false)
  | 0x0A => s.inRegions r (d.num 0x10 8) (d.num 0x18 4) && s.inRegions r (d.num 0x20 8) (d.num 0x28 4)
  | _ => true

def State.keySlot (s : State) (r slot : Nat) : Option KeySlot := if slot < 256 then Tab.find (256 * r + slot) s.keys else none
def State.setKeySlot (s : State) (r slot : Nat) (k : KeySlot) : State := { s with keys := Tab.put (256 * r + slot) k s.keys }

def stKeySlot : Nat := 0x80
def stKeySeal : Nat := 0x81
def stKeyReplay : Nat := 0x82
def stKeyUse : Nat := 0x83

/-- A named key slot must be LOADED for the descriptor's use (R396). -/
def State.keyOk (s : State) (r use slot : Nat) : Bool :=
  slot == noKey || (match s.keySlot r slot with
    | some k => k.use == use
    | none => false)

/-- The checks made before a descriptor starts (R186, R396, R399); OK when it may run. -/
def State.descCheck (s : State) (r n : Nat) (d : Desc) : Nat :=
  if !d.fieldsOk || !s.flagsOk r n d then stDescFormat
  else if !s.descAccess r d then stDescAccess
  else if (d.ty == 1 || d.ty == 2) && !s.keyOk r 0 (d.num 0x1E 2) then stKeySlot
  else if d.ty == 8 && !s.keyOk r 1 (d.num 0x0C 2) then stKeySlot
  else if d.ty == 2 && d.num 0x1E 2 != noKey && (bits (d.byte 0x1C) 0 4 == 0) == (bits (d.byte 0x1C) 4 4 == 0) then stKeyUse
  else stOk

/-- CANCEL and SNAPSHOT act when they are fetched, out of ring order (R198, R343). -/
def Desc.early (d : Desc) : Bool := d.ty == 5 || d.ty == 0x0D

/-- Descriptors of a ring fetched before one. -/
def State.earlier (s : State) (r n uid : Nat) : List Desc := (s.ring r n).descs.filter (fun d => decide (d.uid < uid) && !d.extra)

/-- May a descriptor start in its turn (R184, R195-R197)? -/
def State.mayStart (s : State) (r n : Nat) (d : Desc) : Bool :=
  let before := s.earlier r n d.uid
  if d.result.isSome || d.early then d.acted
  else if s.det.snaps.any (fun x => x.target == d.uid) then false
  else
    before.all (fun e => (e.started.isSome || e.early || e.result.isSome) && e.ty != 0x0B && e.ty != 0x0C)
    && (!bit d.flags 0 || before.isEmpty)
    && (d.ty != 0x0B || !d.fieldsOk ||
        (before.isEmpty && (List.range 64).all (fun k => !bit (d.num 8 8) k || (s.earlier r k d.uid).isEmpty)))

/-- LAUNCH_LATE of a descriptor that follows a LAUNCH_AT: fetched less than 20 µs before COUNT, or started after it (R197). -/
def State.launchLate (s : State) (q : Ring) (d : Desc) : Bool :=
  match q.launch with
  | some c => !d.early && d.result.isNone && (decide (c < d.fetchedAt + 6400) || decide (c < s.gauge))
  | none => false

/-- A descriptor starts: it holds a completion slot from now on (R176). -/
def Desc.begin (d : Desc) (now : Nat) (late det : Bool) : Desc :=
  { d with started := some now, reserved := true, launchLate := late, det := det }

/-- DESCRIPTOR_START: a fetched descriptor reserves its completion slot and is checked; one that fails a check, or whose record is
already known, completes at once (R176, R186, R197). -/
def execDescriptorStart (r n i : Nat) (s : State) : Res :=
  s.whenReady (fun s =>
    match s.desc r n i with
    | none => s
    | some d =>
      let q := s.ring r n
      if !s.active r || s.flt.failed || d.started.isSome || q.stopped || s.cqFree r n = 0 || !s.mayStart r n d then s
      else
        let t := s.updDesc r n d.uid (fun e => e.begin s.gauge (s.launchLate q d) (s.flag .GLB_CFG_DET_MODE))
        match d.result with
        | some x => t.complete r n d.uid x
        | none =>
          if d.early then t
          else
            let t := t.setRing r n { t.ring r n with launch := none }
            if t.descCheck r n d = stOk then t else t.complete r n d.uid { status := t.descCheck r n d })

/-- A descriptor of a type that has started and has not acted. -/
def State.starting (s : State) (r n i ty : Nat) : Option Desc :=
  (s.desc r n i).filter (fun d => d.started.isSome && !d.acted && d.ty == ty)

/-- The effect of a started descriptor of a type; nothing when there is none. -/
def State.onDesc (s : State) (r n i ty : Nat) (f : Desc → State → State) : State :=
  match s.starting r n i ty with
  | some d => f d (s.updDesc r n d.uid (fun d => { d with acted := true }))
  | none => s

/-- NOP (R185). -/
def execNop (r n i : Nat) (s : State) : Res := s.whenReady (fun s => s.onDesc r n i 0 (fun d s => s.done r n d.uid stOk))

/-- FENCE: it completes at once after it starts (R196). -/
def execFence (r n i : Nat) (s : State) : Res := s.whenReady (fun s => s.onDesc r n i 0x0B (fun d s => s.done r n d.uid stOk))

/-- A LAUNCH_AT completes, and the next descriptor of its ring may start (R197). -/
def State.launchDone (s : State) (r n uid count : Nat) (late : Bool) : State :=
  let s := s.updDesc r n uid (fun d => { d with launchLate := d.launchLate || late })
  let s := s.done r n uid stOk
  s.setRing r n { s.ring r n with launch := some count }

/-- LAUNCH_AT: one whose COUNT has passed completes at once with LAUNCH_LATE (R197). -/
def execLaunchAt (r n i : Nat) (s : State) : Res :=
  s.whenReady (fun s => s.onDesc r n i 0x0C (fun d s => if d.num 8 8 < s.gauge then s.launchDone r n d.uid (d.num 8 8) true else s))

/-- LAUNCH_COUNT_REACHED: the Gauge reaches COUNT of a LAUNCH_AT that waits (R197). -/
def execLaunchCountReached (r n i : Nat) (s : State) : Res :=
  s.whenReady (fun s =>
    match (s.desc r n i).filter (fun d => d.started.isSome && d.acted && d.ty == 0x0C) with
    | some d => ({ s with gauge := max s.gauge (d.num 8 8) }).launchDone r n d.uid (d.num 8 8) false
    | none => s)

/-! ### Event ring reset, counters (R210) -/

/-- EQ_RESET of a realm: both indices and RING_EQ_DROP become 0, and the first pass writes PHASE 1 again. -/
def State.eqReset (s : State) (r : Nat) : State := (s.setEvRing r {}).setWord .RING_EQ_DROP r 0 0

/-- A command bit of a RING_ page: its own realm, firmware and the management window act directly (R218, R219, R457). -/
def State.ringCommand (s : State) (w : Win) (r : Nat) (f : State → State) : Res :=
  .next (if s.pageUp 4 && decide (r < 4) && (match w with
    | .realm q => q == r && s.windowOpen r
    | _ => true) then f s else s)

def execEqReset (w : Win) (r : Nat) (s : State) : Res := s.ringCommand w r (fun s => s.eqReset r)

/-- RING_CNT_CLR: RING_EQ_DROP and RING_PERF_DONE clear. -/
def execRingCntClr (w : Win) (r : Nat) (s : State) : Res :=
  s.ringCommand w r (fun s => (s.setWord .RING_EQ_DROP r 0 0).setWord .RING_PERF_DONE r 0 0)

/-! ### Internal queues (R211-R217) -/

/-- QUEUE_ITEM_ARRIVE: an item of one to eight words arrives at a queue (R212, R213, R217). -/
def execQueueItemArrive (q : Nat) (ws : List Nat) (s : State) : Res :=
  .next (if s.up && decide (1 ≤ ws.length) && decide (ws.length ≤ 8) then s.setQueue q ((s.queue q).arrive q ws) else s)

/-- GAP_MARKER_ENTER: a pending gap marker enters the chain once an entry is free (R213). -/
def execGapMarkerEnter (q : Nat) (s : State) : Res := s.whenUp (fun s => s.setQueue q ((s.queue q).enterGap q))

/-- The front word of a queue as its reader sees it: parity is checked when it is read (R215). -/
def wordGap (w : BitVec 72) : Bool := w.toNat / 2 ^ 66 % 2 == 1
def wordFirst (w : BitVec 72) : Bool := w.toNat / 2 ^ 64 % 4 ≤ 1
def wordParityOk (w : BitVec 72) : Bool := popCount 72 w.toNat % 2 == 0

/-- Read one word: the word with whether it is poisoned, none when the queue is empty or the word is discarded (R215). -/
def IQueue.read (x : IQueue) (flip : Bool) : Option (BitVec 72 × Bool) × IQueue :=
  match x.words with
  | [] => (none, x)
  | w :: t =>
    if x.skipping && !wordFirst w then (none, { x with words := t })
    else
      let bad := flip || !wordParityOk w
      (some (w, bad), { x with words := t, skipping := bad })

/-- QUEUE_WORD_READ: the reader of a queue takes its front word; `flip` when the stored word has lost its parity. A gap marker or a
poisoned word of firmware's event queue becomes an event (R214, R215), and firmware then reads every error status (R364). -/
def execQueueWordRead (q : Nat) (flip : Bool) (s : State) : Res :=
  s.whenUp (fun s =>
    let a := (s.queue q).read flip
    let s := s.setQueue q (a.2.enterGap q)
    match a.1 with
    | none => s
    | some (w, bad) =>
      if q ≠ fwQueue then s
      else if bad then (s.onFlt (fun f => { f with rereadAll := true })).emit 1 0x0F 0x0002 mgmtRealm (q * 2 ^ 32)
      else if wordGap w then (s.onFlt (fun f => { f with rereadAll := true })).emit 1 0x0F 0x0001 mgmtRealm (w.toNat % 2 ^ 40)
      else s)

end Sys2Proof.Machine
end

