-- ==== Sys2Proof/Machine/JobOps.lean ====
section
/-! DEFINITION. Running a JOB: its checks, the dispatch of its operators, what an operator's end does, its record and digests
(R50-R52, R187-R192, R199-R202, R327-R341). -/

namespace Sys2Proof.Machine

/-! ### Program records and their checks (R188, R190, R192, R334) -/

def opCodes : List Nat := [1, 2, 3, 4, 5, 6, 7, 8, 9, 0xA, 0xB, 0xC, 0x10, 0x11, 0x12, 0x13, 0x20, 0x21, 0x40, 0x41]

/-- The null DEP field. -/
def noDep : Nat := 0xFFFFFFFF

def OpRecord.parse (b : List Nat) : OpRecord :=
  { opcode := fieldOf b 0 2, stream := fieldOf b 2 2, cluster := fieldOf b 4 1, oflags := fieldOf b 5 1, tiles := fieldOf b 6 2,
    off := fieldOf b 8 4, len := fieldOf b 12 4, deps := (List.range 4).map (fun k => fieldOf b (16 + 4 * k) 4) }

/-- The length R190 gives a parameter block. -/
def State.blockLen (s : State) (param : Nat) (x : OpRecord) : Nat :=
  if x.opcode = 0x40 ∨ x.opcode = 0x41 then 64
  else
    let b := s.bytes (lpddrBase + param + x.off) 4
    64 * (1 + fieldOf b 1 1 + fieldOf b 2 1 + fieldOf b 3 1)

/-- The checks of R188 on record `i` that end a JOB with DESC_FORMAT. -/
def State.recordOk (s : State) (d : Desc) (i : Nat) (x : OpRecord) : Bool :=
  opCodes.contains x.opcode && decide (x.stream < 0xFF00)
  && (x.cluster == 0xFF || (decide (x.cluster < 8) && bit (d.byte 0x1C) x.cluster))
  && decide (x.oflags < 3) && x.off % 64 == 0
  && x.deps.all (fun e => e == noDep || decide (e < i))
  && decide (x.off + x.len ≤ d.num 0x18 4) && x.len == s.blockLen (d.num 0x10 8) x

/-- Logical clusters that a record may use. -/
def OpRecord.clusters (x : OpRecord) (mask : Nat) : List Nat :=
  if x.cluster = 0xFF then (List.range 8).filter (bit mask) else [x.cluster]

/-- A usable tile: the realm owns it, the lane does not hold it, its logical cluster is available (R188, R367). -/
def State.tileUsable (s : State) (r lt : Nat) : Bool :=
  s.tileRealm lt == some r && decide (s.physCluster (lt / 16) < 9) && !(s.tile (s.physTile lt)).retired

/-- Logical tiles that a record allows, in ascending order, with those it cannot use. -/
def OpRecord.tileList (x : OpRecord) (mask : Nat) : List Nat :=
  ((x.clusters mask).map (fun c => ((List.range 16).filter (fun t => x.tiles == 0 || bit x.tiles t)).map (16 * c + ·))).flatten

def State.usableTiles (s : State) (r mask : Nat) (x : OpRecord) : List Nat := (x.tileList mask).filter (s.tileUsable r)

/-- The checks of R188 on a record that end a JOB with DESC_ACCESS; with CLUSTER 0xFF the clusters without a usable tile are passed over. -/
def State.recordAccess (s : State) (r mask : Nat) (x : OpRecord) : Bool :=
  if x.tiles = 0 then !(s.usableTiles r mask x).isEmpty
  else
    let ls := (x.tileList mask).filter (fun lt => x.cluster != 0xFF || (List.range 16).any (fun t => s.tileUsable r (lt / 16 * 16 + t)))
    !ls.isEmpty && ls.all (fun lt => s.tileRealm lt == some r)

/-! ### Digest tables (R336-R339) -/

def stDigestTable : Nat := 0x7C

/-- A region of a digest table (R336). -/
structure DRegion where
  addr : Nat
  size : Nat
  cls : Nat
  space : Nat
  deriving DecidableEq, Repr

structure DTable where
  version : Nat
  model : Nat
  progBytes : Nat
  zero : Bool
  regions : List DRegion
  deriving DecidableEq, Repr

def State.digestTable (s : State) (param : Nat) : DTable :=
  let h := s.bytes (lpddrBase + param) 64
  let n := fieldOf h 1 1
  let b := s.bytes (lpddrBase + param + 64) (16 * n)
  { version := fieldOf h 0 1, model := fieldOf h 2 2, progBytes := fieldOf h 4 4, zero := (h.drop 8).all (· == 0) && ((List.range n).all (fun i => fieldOf b (16 * i + 14) 2 == 0)),
    regions := (List.range n).map (fun i => ⟨fieldOf b (16 * i) 8, fieldOf b (16 * i + 8) 4, fieldOf b (16 * i + 12) 1, fieldOf b (16 * i + 13) 1⟩) }

def DRegion.overlaps (a b : DRegion) : Bool := a.space == b.space && decide (a.addr < b.addr + b.size) && decide (b.addr < a.addr + a.size)

/-- No output region overlaps another region. -/
def outputsApart (l : List DRegion) : Bool :=
  (l.zipIdx).all (fun a => a.1.cls != 3 || (l.zipIdx).all (fun b => a.2 == b.2 || !a.1.overlaps b.1))

def Srv.model (v : Srv) (m : Nat) : Model := Tab.get (fun _ => {}) v.models m
def State.onSrv (s : State) (f : Srv → Srv) : State := { s with srv := f s.srv }

/-- The checks of R337; OK, DIGEST_TABLE or DESC_ACCESS. -/
def State.digestCheck (s : State) (r : Nat) (d : Desc) : Nat :=
  let t := s.digestTable (d.num 0x10 8)
  let m := s.srv.model t.model
  if !(t.version == 1 && decide (1 ≤ t.regions.length) && decide (64 ≤ t.progBytes) && t.zero
      && decide (64 + 16 * t.regions.length ≤ d.num 0x18 4)
      && t.regions.all (fun x => decide (1 ≤ x.size) && decide (1 ≤ x.cls) && decide (x.cls ≤ 3) && decide (x.space ≤ 1))
      && outputsApart t.regions
      && (t.model == 0xFFFF || (t.regions.all (fun x => x.cls != 1) && decide (t.model < 256) && m.st == .resident && m.realm == r)))
    then stDigestTable
  else if !(s.inRegions r (d.num 8 8) t.progBytes && t.regions.all (fun x => x.space == 0 || s.inRegions r x.addr x.size)) then stDescAccess
  else stOk

/-- The digest of a byte range: SHA-256 over the SHA-256 of its 1 MiB chunks (R338). -/
def chunkDigest (l : List Nat) : List Nat := sha256 (((pieces (2 ^ 20) l).map sha256).flatten)

def State.regionDigest (s : State) (x : DRegion) : List Nat := chunkDigest (s.bytes ((if x.space = 0 then hostBase else lpddrBase) + x.addr) x.size)

/-- A class digest (R338). -/
def State.classDigest (s : State) (t : DTable) (cls : Nat) : List Nat :=
  sha256 (((t.regions.filter (fun x => x.cls == cls)).map s.regionDigest).flatten)

/-- Program, weights and input digests of a JOB (R338, R341). -/
def State.inputDigests (s : State) (d : Desc) : List (List Nat) :=
  let t := s.digestTable (d.num 0x10 8)
  [s.regionDigest ⟨d.num 8 8, t.progBytes, 0, 1⟩, if t.model = 0xFFFF then s.classDigest t 1 else (s.srv.model t.model).digest, s.classDigest t 2]

/-! ### Starting a JOB (R187, R188, R329) -/

/-- The records of a program. -/
def State.program (s : State) (prog n : Nat) : List OpRecord :=
  (List.range n).map (fun i => OpRecord.parse (s.bytes (lpddrBase + prog + 64 + 32 * i) 32))

/-- Does a parameter block hold an ATTN operator or a PAGED ply? -/
def State.readsSkein (s : State) (param : Nat) (x : OpRecord) : Bool :=
  x.opcode == 0x40 || (x.opcode != 0x41 && (List.range (x.len / 64 - 1)).any (fun k => fieldOf (s.bytes (lpddrBase + param + x.off + 64 * (k + 1)) 1) 0 1 == 5))

/-- The checks of a JOB at its start; OK with its records, or the status that ends it. -/
def State.jobCheck (s : State) (r : Nat) (d : Desc) : Nat × List OpRecord :=
  let prog := d.num 8 8
  let h := s.bytes (lpddrBase + prog) 64
  let n := fieldOf h 4 4
  -- the digest table is checked with the descriptor, before the program (R337)
  let dg := if bit d.flags 1 then s.digestCheck r d else stOk
  if dg ≠ stOk then (dg, [])
  else if !(fieldOf h 0 1 == 1 && fieldOf h 1 3 == 0 && decide (1 ≤ n) && decide (n ≤ 65536) && (h.drop 8).all (· == 0)) then (stDescFormat, [])
  else if !s.inRegions r prog (64 + 32 * n) then (stDescAccess, [])
  else
    let rs := s.program prog n
    if !(rs.zipIdx).all (fun e => s.recordOk d e.2 e.1) then (stDescFormat, [])
    else if !rs.all (s.recordAccess r (d.byte 0x1C)) then (stDescAccess, [])
    else (stOk, rs)

/-- A JOB begins to run. -/
def State.beginJob (s : State) (r n : Nat) (d : Desc) (rs : List OpRecord) (first maxGt : Nat) (imageDet : Option Bool) : State :=
  s.setJob d.uid { realm := r, ring := n, recs := rs, first := first, det := d.det, mode := s.modeWord d.det (d.byte 0x1C), start := s.gauge,
                   maxGt := maxGt, paged := rs.any (s.readsSkein (d.num 0x10 8)),
                   inputs := if bit d.flags 1 then s.inputDigests d else [],
                   fw := (s.word .GLB_FW_VER).toNat, imageDet := imageDet }

/-- JOB: the program is read and checked, and its operators may start (R187, R188). -/
def execJob (r n i : Nat) (s : State) : Res :=
  s.whenReady (fun s => if s.det.snaps.any (fun x => some x.target == (s.desc r n i).map Desc.uid) then s else s.onDesc r n i 1 (fun d s =>
    let c := s.jobCheck r d
    if c.1 ≠ stOk then s.done r n d.uid c.1 else s.beginJob r n d c.2 0 (d.num 0x28 8) none))

/-! ### Dispatch (R50, R51, R189, R330) -/

def Job.nOps (j : Job) : Nat := j.recs.length
def Job.rcd (j : Job) (k : Nat) : OpRecord := j.recs.getD k {}

def OpSt.hasEnded : OpSt → Bool
  | .ended _ => true
  | _ => false

/-- May operator `k` start in its turn: program order, DEP fields, no status that ends the JOB, no SNAPSHOT (R187, R189, R343)? -/
def Job.mayStart (j : Job) (k : Nat) : Bool :=
  decide (k < j.nOps) && decide (j.first ≤ k) && (j.op k).st == .waiting && j.ending.isNone && !j.held && !j.finished
  && (List.range k).all (fun e => decide (e < j.first) || (j.op e).st != .waiting)
  && (j.rcd k).deps.all (fun e => e == noDep || decide (e < j.first) || (j.op e).st.hasEnded)

/-- A physical tile that takes an operator now (R50, R51). -/
def State.tileFree (s : State) (p : Nat) : Bool :=
  let t := s.tile p
  t.st == .idle && !t.retired && !t.retiring && s.flag .TIL_CTRL_ENABLE p && !s.flag .TIL_CTRL_HALT p && !s.tileGated p

inductive TilePick where
  | none
  | busy
  | tile (lt : Nat)
  deriving DecidableEq, Repr

/-- The tile that takes an operator: round robin in ascending logical order in DET_MODE, the one idle first in the fast mode (R330). -/
def State.pickTile (s : State) (j : Job) (mask : Nat) (x : OpRecord) (env : OpEnv) : TilePick :=
  let us := s.usableTiles j.realm mask x
  if us.isEmpty then .none
  else if j.det then
    let en := us.filter (fun lt => s.flag .TIL_CTRL_ENABLE (s.physTile lt))
    match (en.find? (fun lt => match j.lastTile with
      | some l => decide (l < lt)
      | Option.none => true)).or en.head? with
    | some lt => if s.tileFree (s.physTile lt) then .tile lt else .busy
    | Option.none => .busy
  else if us.contains env.tile && s.tileFree (s.physTile env.tile) then .tile env.tile
  else .busy

/-- The context of an operator on a tile: its settings as sampled at its start (R34, R50). -/
def Job.ctx (j : Job) (x : OpRecord) (o : OpRun) (seed p : Nat) (env : OpEnv) : OpCtx :=
  { realm := j.realm, clu := p / 17, tile := p, seed := seed, stream := x.stream, stochastic := o.stoch, ovfSat := o.ovfSat, det := j.det, env := env }

/-- Rounding of an operator: OFLAGS.RND, or TIL_CVT where it leaves it open (R29, R188). -/
def State.stochasticOn (s : State) (x : OpRecord) (p : Nat) : Bool :=
  match bits x.oflags 0 2 with
  | 1 => false
  | 2 => true
  | _ => s.flag .TIL_CVT_RND p

/-- A tile takes an operator. -/
def State.occupy (s : State) (p : Nat) (k : OpKey) : State := s.setTile p { s.tile p with st := .running, cur := some k }

/-- A tile's operator has ended: it returns to IDLE, or to HALTED when HALT is set (R51); a tile in FAULT stays there. -/
def State.vacate (s : State) (p : Nat) : State :=
  let t := s.tile p
  s.setTile p { t with cur := none, st := if t.st = .running then (if s.flag .TIL_CTRL_HALT p then .halted else .idle) else t.st }

/-! ### The end of an operator -/

/-- Statuses after which a JOB runs on: their output is written (R187, R203). -/
def runsOn (st : Nat) : Bool := [0, stIdxRange, stIdxPtr, stScatterSat, stGridOutside, stKvPoison].contains st

/-- Remove an operator from a cluster's engines and line buffers. -/
def Cluster.forget (c : Cluster) (k : OpKey) : Cluster :=
  { c with tceRun := if c.tceRun = some k then none else c.tceRun, tceQueue := c.tceQueue.filter (· != k),
           s2dRun := if c.s2dRun = some k then none else c.s2dRun, s2dQueue := c.s2dQueue.filter (· != k),
           groups := c.groups.filter (· != k), bufs := c.bufs.filter (fun b => b.2.owner != k) }

def State.forgetOp (s : State) (k : OpKey) : State :=
  { s with clusters := (List.range 9).foldl (fun t c =>
      Tab.set (fun _ => {}) c ((Tab.get (fun _ => ({} : Cluster)) t c).forget k) t) s.clusters }

/-- A finished JOB leaves the table. -/
def State.dropJob (s : State) (uid : Nat) : State :=
  { s with jobs := Tab.del uid s.jobs, det := { s.det with signs := s.det.signs.filter (fun x => x.2.2 != uid) } }

/-- The status and operator of a JOB's record: the one that ended it, or the first that is not OK (R202). -/
def Job.outcome (j : Job) : Nat × Nat :=
  match j.ending with
  | some e => e
  | none =>
    match (List.range j.nOps).find? (fun k => match (j.op k).st with
        | .ended st => st != 0
        | _ => false) with
    | some k => ((match (j.op k).st with
        | .ended st => st
        | _ => 0), k)
    | none => (stOk, 0xFFFFFFFF)

def Job.record (j : Job) : Rec :=
  { status := j.outcome.1, opIndex := j.outcome.2, counts := j.counts, path := j.path, digest := j.digest, modeWord := j.mode, fw := some j.fw }

/-- CUR rises at the end of a JOB that reads skeins (R166). -/
def State.jobEpoch (s : State) (j : Job) : State := if j.paged then s.epochRise else s

/-- A JOB is over when all its operators have ended, or when a status has ended it and none of them runs. -/
def Job.allEnded (j : Job) : Bool :=
  let st := (List.range j.nOps).filter (fun k => decide (j.first ≤ k))
  if j.ending.isSome then st.all (fun k => (j.op k).st != .running)
  else st.all (fun k => (j.op k).st.hasEnded)

/-- The end of a JOB's operators: its record, or the digest of its outputs first (R341). -/
def State.jobOver (s : State) (uid : Nat) : State :=
  match s.job uid with
  | none => s
  | some j =>
    if !j.allEnded || j.finished then s
    else
      let s := s.jobEpoch j
      match s.descUid j.realm j.ring uid with
      | none => s.dropJob uid
      | some d =>
        if bit d.flags 1 && j.ending.isNone then s.updJob uid (fun j => { j with finished := true })
        else (s.dropJob uid).finish j.realm j.ring uid j.record

/-- An operator ends with a status: its tiles are free, its epoch is dropped, its counts enter the JOB's (R187, R202). -/
def State.opEnd (s : State) (k : OpKey) (st : Nat) (counts : List Nat) : State :=
  match s.job k.desc with
  | none => s
  | some j =>
    let o := j.op k.op
    let s := o.tiles.foldl (fun s p => s.vacate p) s
    let s := match o.epoch with
      | some e => s.epochDrop e
      | none => s
    let s := s.forgetOp k
    let j := j.setOp k.op { o with st := .ended st, tiles := [], epoch := none }
    let j := { j with counts := (List.range 4).map (fun i => j.counts.getD i 0 + counts.getD i 0),
                      ending := if runsOn st then j.ending else j.ending.or (some (st, k.op)) }
    (s.setJob k.desc j).jobOver k.desc

/-- Every running operator of a JOB ends and the JOB ends with a status (R187, R242, R345). -/
def State.endJob (s : State) (uid st : Nat) : State :=
  match s.job uid with
  | none => s
  | some j =>
    let running := (List.range j.nOps).filter (fun k => (j.op k).st == .running)
    let s := s.updJob uid (fun j => { j with ending := some (st, 0xFFFFFFFF), finished := false, digest := none })
    let s := running.foldl (fun s k => s.opEnd ⟨uid, k⟩ st []) s
    s.jobOver uid

/-! ### What an operator's run does to the module -/

/-- The first run of bytes that an operator wrote before an error ended it. -/
def cutWrites : Nat → List WriteOut → List WriteOut
  | 0, _ => []
  | _, [] => []
  | n + 1, w :: t => if w.bytes.length ≤ n + 1 then w :: cutWrites (n + 1 - w.bytes.length) t else [{ w with bytes := w.bytes.take (n + 1) }]

/-- The stores take an operator's outputs (R46). -/
def State.applyWrites (s : State) (ws : List WriteOut) : State :=
  ws.foldl (fun s w => w.poison.foldl (fun s k => s.onMem (fun m => m.spoil k)) (s.store w.addr w.bytes)) s

/-- Uncorrectable words that an operator meets by writing a part of them (R46). -/
def State.partWrites (s : State) (ws : List WriteOut) : List Nat :=
  s.mem.bad.filter (fun k => ws.any (fun w => touchesWord w.addr w.bytes.length k && !coversWord w.addr w.bytes.length k))

/-- TIL_ECC_ADDR keeps the first uncorrectable read since the last CNT_CLR (R46). -/
def State.eccCapture (s : State) (p a : Nat) : State :=
  let s := s.bumpSat .TIL_ECC_CNT_UE_COUNT 1 p
  if s.flag .TIL_ECC_ADDR_VALID p then s
  else (((s.setFld .TIL_ECC_ADDR_WORD (bits a 3 3) p).setFld .TIL_ECC_ADDR_BANK (bits a 6 5) p).setFld .TIL_ECC_ADDR_ROW (bits a 11 10) p).setFld
    .TIL_ECC_ADDR_VALID 1 p

/-- An uncorrectable word ends an operator: in the tile's store, in a cluster store, or in an LPDDR5 line (R46, R359). -/
def State.reportUe (s : State) (p k : Nat) : State :=
  let a := 8 * k
  if tileBase 0 ≤ a then
    let off := a - tileBase p
    ((s.eccCapture p off).setSts .TIL_STS [4] p).contain 0x0001 0 p 0 (off / 64) ((s.tile p).exhausted.contains (bits off 6 5 + 32 * bits off 3 3))
  else if clusterBase 0 ≤ a then
    let c := (a - clusterBase 0) / 2 ^ 24
    s.contain 0x0004 1 c 1 ((a - clusterBase c) / 64)
  else s.contain 0x0007 0 p 0 ((a - lpddrBase) / 64)

/-- Score credits of a run (R153): SCORE saturates. -/
def State.credit (s : State) (cs : List (Nat × Nat)) : State :=
  s.onKvm (fun k => cs.foldl (fun k c => k.setEnt c.1 { k.ent c.1 with score := satAt 0xFFFFFFFF ((k.ent c.1).score + c.2) }) k)

/-- What the operator told about the pages it read (R139, R148, R153, R156, R159, R169, R170). -/
def State.applyPages (s : State) (x : OpRes) : State :=
  let s := s.onKvm (fun k => x.pages.foldl (fun k e => k.setEnt e { k.ent e with lastRead := k.cur }) k)
  let s := s.credit x.credits
  let s := s.onKvm (fun k => x.trees.foldl (fun k t => match k.skein t.1 with
    | some q => k.setSkein t.1 { q with parents := t.2 }
    | none => k) k)
  x.kvPoison.eraseDups.foldl (fun s e => if (s.kvm.ent e.1).mapUe then s.mapFault e.1 else s.frameFault e.1 e.2) s

/-- TIL_STS of a finished operator (R21, R30, R19). -/
def OpRes.marks (x : OpRes) : List Nat :=
  (if x.accSat then [0] else []) ++ (if x.nanOut then [1] else []) ++ (if x.cvtOvf then [2] else []) ++ (if x.status = stOpFault then [5] else [])

def State.perf (s : State) (p : Nat) (env : OpEnv) : State :=
  ((s.bumpWrap .TIL_PERF_BUSY_COUNT env.busy p).bumpWrap .TIL_PERF_CONFLICT_COUNT env.conflict p).bumpWrap .TIL_PERF_IDXWAIT_COUNT env.idxWait p

/-- The status of an operator that an error ended: LB_ABORT for a fused group (R117), TILE_FAULT otherwise (R52). -/
def State.faultEnd (s : State) (k : OpKey) (group : Bool) : State :=
  if group then
    let cs := ((List.range 9).filter (fun c => (s.cluster c).groups.contains k))
    cs.foldl (fun s c => s.setSts .CLU_STS [1] c) (s.opEnd k stLbAbort [])
  else s.opEnd k stTileFault []

/-- A run of an operator has its answer: the module applies it. `tce`: the thin-channel engine ran it (R101). -/
def State.settle (s : State) (k : OpKey) (p : Nat) (env : OpEnv) (x : OpRes) (tce group : Bool) : State :=
  let c := p / 17
  let hit := x.ue ++ s.partWrites x.writes
  match hit.head? with
  | some w => ((s.applyWrites (cutWrites env.cut x.writes)).reportUe p w).faultEnd k group
  | none =>
    if env.datapath then ((s.applyWrites (cutWrites env.cut x.writes)).contain 0x0002 0 p 0 0).faultEnd k group
    else
      let s := s.applyWrites x.writes
      let s := if tce then s.setSts .CLU_STS ((if x.argNan then [5] else []) ++ (if x.accSat then [6] else [])) c else s
      let s := s.setSts .TIL_STS (if tce then x.marks.filter (· != 0) else x.marks) p
      let s := s.applyPages x
      -- an access outside the realm's regions is reported besides its status (R59, R393)
      let s := if x.access then
          let q := s.draw
          q.2.reportMod 2 (q.1 % 2 ^ 16) ((s.logTile p).bind s.tileRealm).toList 0 (some 14)
        else s
      (s.perf p env).opEnd k x.status x.counts

/-- The bits that fault injection by the surroundings changes before an operator reads (R45, R46). -/
def State.disturb (s : State) (p : Nat) (env : OpEnv) : State :=
  let s := env.bad.foldl (fun s k => s.onMem (fun m => m.spoil k)) s
  s.tileCe p env.ce.length

/-- Start operator `k` on a tile: it samples its settings (R50) and takes its epoch (R166). -/
def State.opStart (s : State) (uid k p : Nat) (tiles : List Nat) (lt : Nat) : State :=
  match s.job uid with
  | none => s
  | some j =>
    let x := j.rcd k
    let e := s.kvm.cur
    let paged := match s.descUid j.realm j.ring uid with
      | some d => s.readsSkein (d.num 0x10 8) x
      | none => false
    let s := if paged then s.epochTake else s
    let s := tiles.foldl (fun s p => s.occupy p ⟨uid, k⟩) s
    s.setJob uid { (j.setOp k { st := .running, tiles := tiles, home := p, start := s.gauge, epoch := if paged then some e else none,
                                stoch := s.stochasticOn x p, ovfSat := s.flag .TIL_CVT_OVF_SAT p }) with lastTile := some lt }

/-- The parameter block of an operator. -/
def State.block (s : State) (d : Desc) (x : OpRecord) : List Nat := s.bytes (lpddrBase + d.num 0x10 8 + x.off) x.len

/-- Run a started operator on its tile; it stays RUNNING while a page it reads is being fetched (R157, R160). -/
def State.opRun (s : State) (d : Desc) (uid k p : Nat) (env : OpEnv) (f : State → OpCtx → List Nat → OpRes) : State :=
  match s.job uid with
  | none => s
  | some j =>
    let x := f s (j.ctx (j.rcd k) (j.op k) (d.num 0x20 8) p env) (s.block d (j.rcd k))
    if !x.waits.isEmpty then
      let w := s.fetchAll x.waits
      if w.1 then w.2 else w.2.opEnd ⟨uid, k⟩ stKvNoFrame []
    else
      let s := s.settle ⟨uid, k⟩ p env x false false
      -- the pages that follow are fetched ahead (R159)
      match x.pages.head? with
      | some e =>
        match s.kvm.skeins.find? (fun q => ((s.kvm.pages q.1).map (fun y => s.kvm.owner 16 y.1)).contains e) with
        | some q => s.prefetch q.1 x.pages
        | none => s
      | none => s

/-- The JOB that a command's descriptor runs. -/
def State.jobAt (s : State) (r n i : Nat) : Option (Desc × Job) :=
  match (s.desc r n i).filter (fun d => d.started.isSome && d.acted && d.ty == 1) with
  | some d => (s.job d.uid).map (fun j => (d, j))
  | none => none

/-- A command of an operator: operator `k` of the JOB in slot `i` of ring pair `n` of realm `r` starts on a tile and runs; one that
waits for pages is run on by a later command (R50, R189). -/
def State.operator (s : State) (code : List Nat) (r n i k : Nat) (env : OpEnv) (f : State → OpCtx → List Nat → OpRes) : Res :=
  s.whenRunning (fun s =>
    match s.jobAt r n i with
    | none => s
    | some (d, j) =>
      let x := j.rcd k
      if !(s.active r && code.contains x.opcode) then s
      else if j.mayStart k then
        match s.pickTile j (d.byte 0x1C) x env with
        | .none => (s.updJob d.uid (fun j => j.setOp k { st := .running })).opEnd ⟨d.uid, k⟩ stDescAccess []
        | .busy => s
        | .tile lt =>
          let p := s.physTile lt
          ((s.disturb p env).opStart d.uid k p [p] lt).opRun d d.uid k p env f
      else if (j.op k).st == .running && k < j.nOps then
        match (j.op k).tiles.head? with
        | some p => (s.disturb p env).opRun d d.uid k p env f
        | none => s
      else s)

end Sys2Proof.Machine
end

