-- ==== Sys2Proof/Machine/OpsAttn.lean ====
section
/-! DEFINITION. The ATTN operator: parameter block, masks, work items, the online-softmax fold, score credits (R123-R139, R153). -/

namespace Sys2Proof.Machine

/-- The parameter block of ATTN (R124). -/
structure Att where
  version : Nat
  kvFmt : Nat
  qFmt : Nat
  outFmt : Nat
  d : Nat
  qHeads : Nat
  kvHeads : Nat
  layer : Nat
  mask : Nat
  flags : Nat
  scale : Nat
  window : Nat
  seqs : Nat
  qRows : Nat
  seqTable : Nat
  qBase : Nat
  outBase : Nat
  lseBase : Nat
  qSrc : Nat
  outSrc : Nat
  reserved : Bool
  deriving DecidableEq, Repr

def Att.parse (b : List Nat) : Att :=
  { version := fieldOf b 0 1, kvFmt := fieldOf b 1 1, qFmt := fieldOf b 2 1, outFmt := fieldOf b 3 1, d := fieldOf b 4 2,
    qHeads := fieldOf b 6 1, kvHeads := fieldOf b 7 1, layer := fieldOf b 8 2, mask := fieldOf b 0xA 1, flags := fieldOf b 0xB 1,
    scale := fieldOf b 0xC 4, window := fieldOf b 0x10 4, seqs := fieldOf b 0x14 2, qRows := fieldOf b 0x16 2,
    seqTable := fieldOf b 0x18 8, qBase := fieldOf b 0x20 8, outBase := fieldOf b 0x28 8, lseBase := fieldOf b 0x30 8,
    qSrc := fieldOf b 0x38 1, outSrc := fieldOf b 0x39 1, reserved := fieldOf b 0x3A 6 == 0 }

def Att.splitOk (a : Att) : Bool := bit a.flags 0
def Att.scoreEn (a : Att) : Bool := bit a.flags 1
def Att.lseOut (a : Att) : Bool := bit a.flags 2
/-- G, the query heads of one key-value head (R123). -/
def Att.g (a : Att) : Nat := a.qHeads / a.kvHeads
def Att.mx (a : Att) : Bool := a.kvFmt == 6

/-- Query formats that a key format allows (R125). -/
def Att.fmtOk (a : Att) : Bool :=
  match a.kvFmt with
  | 4 => a.qFmt == 4 || a.qFmt == 5
  | 5 => a.qFmt == 4 || a.qFmt == 5
  | 6 => a.qFmt == 6
  | 11 => a.qFmt == 11
  | 12 => a.qFmt == 12
  | _ => false

/-- The shape limits of R124 and R126 that the block alone decides. -/
def Att.shapeOk (a : Att) : Bool :=
  let r := fun (v lo hi : Nat) => decide (lo ≤ v) && decide (v ≤ hi)
  a.version == 1 && a.fmtOk && (a.outFmt == 4 || a.outFmt == 5 || a.outFmt == 11 || a.outFmt == 12 || a.outFmt == 13)
  && (a.d == 64 || a.d == 96 || a.d == 128 || a.d == 192 || a.d == 256)
  && r a.qHeads 1 128 && r a.kvHeads 1 128 && a.qHeads % a.kvHeads == 0 && r a.g 1 16 && decide (a.layer ≤ 127) && decide (a.mask ≤ 3)
  && decide (a.flags < 8) && (if a.mask = 2 then r a.window 1 524288 else a.window == 0)
  && r a.seqs 1 2048 && r a.qRows 1 (if a.mask = 3 then 64 else 2048) && (a.lseOut || a.lseBase == 0)
  && r a.qSrc 1 2 && r a.outSrc 1 2 && a.reserved

/-- Bytes of a row of `heads` heads: elements, then for MX the scales (R124, R125). -/
def Att.rowBytes (a : Att) (fmt heads : Nat) : Nat :=
  heads * a.d * elemBits fmt / 8 + (if elemIsMx fmt then heads * a.d / 32 else 0)

/-- Bytes from one query row to the next: with MX the next multiple of 64 (R124). -/
def Att.qStride (a : Att) : Nat := if a.mx then ceilDiv (a.rowBytes a.qFmt a.qHeads) 64 * 64 else a.rowBytes a.qFmt a.qHeads

/-- Query columns of one work item (R126). -/
def Att.rMax (a : Att) : Nat :=
  let w := if a.kvFmt = 11 ∨ a.kvFmt = 12 then 48 else 96
  (if a.mx then 128 else 512) / ceilDiv a.d w

/-- A sequence record with its skein and, under TREE, its parent array and bitmaps. -/
structure AttSeq where
  root : Nat
  pos0 : Nat
  skein : Skein
  parents : List Nat := []
  bitmaps : List Nat := []
  deriving DecidableEq, Repr

/-- Ancestor bitmaps and depths of a tree (R139); none when the parent array is not a tree of depth at most 16. -/
def treeBits : List Nat → List (Nat × Nat) → Option (List Nat)
  | [], acc => some (acc.map (·.1))
  | p :: t, acc =>
    let i := acc.length
    if i = 0 then (if p = 0xFF then treeBits t [(1, 0)] else none)
    else if i ≤ p then none
    else
      let q := acc.getD p (0, 0)
      if 16 ≤ q.2 then none else treeBits t (acc ++ [(q.1 + 2 ^ i, q.2 + 1)])

/-- What the checks at the start of an ATTN operator leave. -/
structure AttIn where
  bad : Nat := 0
  seqs : List AttSeq := []
  ue : List Nat := []
  deriving DecidableEq, Repr

/-- One sequence record (R124-R126, R139). -/
def State.attSeq (s : State) (x : OpCtx) (a : Att) (b : List Nat) : Nat × AttSeq × Option Nat :=
  let root := fieldOf b 0 4
  let tree := fieldOf b 8 8
  let dflt : AttSeq := ⟨0, 0, {}, [], []⟩
  if 2 ^ 20 ≤ root ∨ (a.mask ≠ 3 ∧ tree ≠ 0) then (stAttShape, dflt, none)
  else match s.kvm.skein root with
    | none => (stIdxAccess, dflt, none)
    | some k =>
      if k.realm ≠ x.realm then (stIdxAccess, dflt, none)
      else if s.profPlanes k.prof ≤ 2 * a.layer + 1 ∨ s.profRow k.prof < a.rowBytes a.kvFmt a.kvHeads then (stAttShape, dflt, none)
      else
        let q : AttSeq := { root := root, pos0 := fieldOf b 4 4, skein := k }
        if a.mask ≠ 3 then (0, q, none)
        else match s.local x tree 64 with
          | none => (stIdxAccess, dflt, none)
          | some t =>
            let ps := (s.bytes t 64).take a.qRows
            match treeBits ps [] with
            | none => (stTreeShape, dflt, s.ueIn t 64)
            | some bm => (if q.pos0 = k.len then 0 else stTreeShape, { q with parents := ps, bitmaps := bm }, s.ueIn t 64)

/-- The checks at the start (R124-R126, R139, R393). -/
def State.attIn (s : State) (x : OpCtx) (a : Att) : AttIn :=
  if !a.shapeOk then { bad := stAttShape }
  else match s.local x a.seqTable (16 * a.seqs) with
    | none => { bad := stIdxAccess }
    | some t =>
      let rs := (chunks 16 (s.bytes t (16 * a.seqs))).map (s.attSeq x a)
      let rows := a.seqs * a.qRows
      let st := firstBad ((rs.map (·.1)).filter (fun v => v != stTreeShape))
      let acc := (s.place x a.qSrc a.qBase (rows * a.qStride)).isSome
        && (s.place x a.outSrc a.outBase (rows * (a.qHeads * a.d * elemBits a.outFmt / 8))).isSome
        && (!a.lseOut || (s.place x a.outSrc a.lseBase (rows * a.qHeads * 8)).isSome)
      { bad := if st ≠ 0 then st else if !acc then stIdxAccess else firstBad (rs.map (·.1))
        seqs := rs.map (·.2.1), ue := (s.ueIn t (16 * a.seqs)).toList ++ rs.filterMap (·.2.2) }

/-- One head of a row of `heads` heads (R124, R125). -/
def Att.headOf (a : Att) (els : List El) (scales : List El) (g : Nat) : ORow :=
  ⟨(els.drop (g * a.d)).take a.d, ((scales.drop (g * (a.d / 32))).take (a.d / 32)).map some⟩

/-- A key or value row of one head at a position, and what the read met. -/
structure KvRow where
  row : ORow
  /-- In the skein and not evicted: the position can have a score (R127, R154). -/
  there : Bool := true
  /-- The skein's own entry of the page, for score credits (R153). -/
  own : Option Nat := none
  wait : Option Nat := none
  kvPoison : Option (Nat × Nat) := none
  page : Option Nat := none
  deriving DecidableEq, Repr

/-- The skein's own entry of the page that holds a committed position. -/
def State.ownEntry (s : State) (q : AttSeq) (pos : Nat) : Option Nat :=
  if q.skein.len ≤ pos then none
  else ((s.kvm.pages q.root).find? (fun y => decide (pos < y.2 + 16 * 2 ^ (s.kvm.ent y.1).sizeLog))).map (·.1)

/-- Read one head's row of a plane (R125, R141-R147, R154, R157, R169, R170). -/
def State.kvRow (s : State) (a : Att) (q : AttSeq) (plane pos g : Nat) : KvRow :=
  let zero := zeroRow a.d (if a.mx then a.d / 32 else 0)
  let own := s.ownEntry q pos
  match s.pageRead q.root q.skein plane pos with
  | .outOfRange => { row := zero, there := false }
  | .evicted => { row := zero, there := false }
  | .wait e => { row := zero, own := own, wait := some e }
  | .broken e => { row := zero, own := own, kvPoison := some (e, 0) }
  | .row ad e p =>
    let n := a.kvHeads * a.d
    let els := s.readEls ad (elemBits a.kvFmt) n
    let sc := if a.mx then s.readEls (ad + n) 8 (n / 32) else []
    let bad := p || s.mem.isBad ad (s.profRow q.skein.prof)
    { row := a.headOf els sc g, own := own, page := e, kvPoison := if bad then some (e.getD 0, s.badLine ad (s.profRow q.skein.prof)) else none }

/-- Does query row `r` see position `p` (R138, R139)? -/
def Att.sees (a : Att) (q : AttSeq) (r p : Nat) : Bool :=
  let qp := q.pos0 + r
  match a.mask with
  | 0 => true
  | 1 => decide (p ≤ qp)
  | 2 => decide (p ≤ qp) && decide (qp < p + a.window)
  | _ => if p < q.skein.len then true else bit (q.bitmaps.getD r 0) (p - q.skein.len)

/-- A query head with its poison mark. -/
def State.query (s : State) (x : OpCtx) (a : Att) (si r h : Nat) : ORow × Option Nat :=
  let bytes := a.rowBytes a.qFmt a.qHeads
  match s.place x a.qSrc (a.qBase + (si * a.qRows + r) * a.qStride) bytes with
  | none => (⟨[], []⟩, none)
  | some ad =>
    let n := a.qHeads * a.d
    (a.headOf (s.readEls ad (elemBits a.qFmt) n) (if a.mx then s.readEls (ad + n) 8 (n / 32) else []) h, s.ueIn ad bytes)

/-- A score (R130), with the saturation of its accumulator (R21). -/
def Att.score (a : Att) (q k : ORow) : Nat × Bool :=
  match pairKind a.qFmt a.kvFmt with
  | none => (f32Nan, false)
  | some kd =>
    let acc := ({} : Acc).entry kd (pairDepth a.qFmt a.kvFmt) ⟨a.qFmt, q⟩ ⟨a.kvFmt, k⟩
    (f32Keep ((acc.value kd).mul (f32V a.scale)), acc.sat)

/-- exp2(fp32(fp32(x − mn) · L2E)) (R131). -/
def expDiff (x mn : Nat) : Nat := f32Exp2 (f32Mul (f32Sub x mn) f32Log2e)

/-- The state of a column, and the block statistics that its credits need (R131, R153). -/
structure Fold where
  m : Nat := f32NegInf
  l : Nat := 0
  o : List Nat
  stats : List (Nat × Nat × Option Nat) := []
  deriving DecidableEq, Repr

/-- Values of the probabilities in the P format (R125, R131). -/
def Att.probs (a : Att) (ps : List Nat) : List XV :=
  if a.mx then
    ((chunks 32 ps).map (fun b =>
      let r := mxBlock 6 false (b.map (fun v => (f32V v, Rnd.rne)))
      r.1.map (fun c => if r.2.1 = 0xFF then XV.nan else (elemVal 6 c).scale ((r.2.1 : Int) - 127)))).flatten
  else match elemFmt (if a.kvFmt = 5 then 4 else a.kvFmt) with
    | some f => ps.map (fun v => f.decode (f.encode .rne false (f32V v)).1)
    | none => []

/-- The value of an element of a row, its MX scale applied. -/
def rowVal (e : Nat) (r : ORow) (i : Nat) : XV :=
  let v := elemVal e (r.els.getD i ⟨0, false⟩).code
  match r.scales.getD (i / 32) none with
  | some sc => if sc.code = 0xFF then .nan else v.scale ((sc.code : Int) - 127)
  | none => v

/-- One block into the state of a column (R131-R133): per key its score, whether it is seen, and its value row. -/
def Att.fold (a : Att) (st : Fold) (keys : List (Nat × Bool × Option Nat)) (vals : List (List XV)) : Fold :=
  let mb := treeReduce f32Max f32NegInf (keys.map (·.1))
  let mn := f32Max st.m mb
  if mn = f32NegInf then st
  else
    let corr := expDiff st.m mn
    let ph := a.probs (keys.map (fun k => if k.2.1 then expDiff k.1 mn else 0))
    let ls := f32Sum (ph.map f32Of)
    let ob := fun (d : Nat) => f32Of ((ph.zip vals).foldl (fun acc y => acc.add (y.1.mul (y.2.getD d (.num false 0 0)))) (.num false 0 0))
    let top := (keys.find? (fun k => k.1 == mb)).bind (fun k => k.2.2)
    { m := mn, l := f32Fma st.l corr ls, o := st.o.zipIdx.map (fun y => f32Fma y.1 corr (ob y.2)), stats := st.stats ++ [(ls, mn, top)] }

/-- Combine a partition into the state of a column (R137). -/
def Fold.combine (st p : Fold) : Fold :=
  let mn := f32Max st.m p.m
  if mn = f32NegInf then { st with stats := st.stats ++ p.stats }
  else
    let a := expDiff st.m mn
    let b := expDiff p.m mn
    { m := mn, l := f32Fma st.l a (f32Mul p.l b), o := (st.o.zip p.o).map (fun y => f32Fma y.1 a (f32Mul y.2 b)), stats := st.stats ++ p.stats }

/-- Score credits of a column (R153); a NaN weight gives a value the manual does not state. -/
def Fold.credits (st : Fold) (col : Nat) : List (Nat × Nat) :=
  st.stats.filterMap (fun y => y.2.2.map (fun e =>
    (e, match f32V (f32Div (f32Mul y.1 (expDiff y.2.1 st.m)) st.l) with
        | .num false m k => if 0 ≤ k + 6 then m * 2 ^ (k + 6).toNat else m / 2 ^ (-(k + 6)).toNat
        | .num true _ _ => 0
        | .inf _ => 0xFFFF
        | .nan => Config.nanCredit col)))

/-- What one key block holds for a work item. -/
structure AttBlock where
  keys : List KvRow
  vals : List KvRow
  first : Nat
  deriving DecidableEq, Repr

/-- The unskipped key blocks of a work item (R127). -/
def State.attBlocks (s : State) (a : Att) (q : AttSeq) (g : Nat) (rows : List Nat) : List AttBlock :=
  let cur := q.skein.len + q.skein.staged
  (List.range (ceilDiv cur 384)).filterMap (fun j =>
    let pos := (List.range 384).map (fun i => 384 * j + i)
    let seen := pos.any (fun p => rows.any (fun r => a.sees q r p) &&
      (match s.pageRead q.root q.skein 0 p with
       | .outOfRange => false
       | .evicted => false
       | _ => true))
    if seen then some { keys := pos.map (fun p => s.kvRow a q (2 * a.layer) p g), vals := pos.map (fun p => s.kvRow a q (2 * a.layer + 1) p g), first := 384 * j }
    else none)

/-- One column of a work item over a run of blocks: its state and whether an accumulator saturated. -/
def Att.column (a : Att) (q : AttSeq) (r : Nat) (qv : ORow) (bs : List (AttBlock × List (List XV))) : Fold × Bool :=
  bs.foldl (fun acc b =>
    let ks := b.1.keys.zipIdx.map (fun k =>
      let on := k.1.there && a.sees q r (b.1.first + k.2)
      let sc := if on then a.score qv k.1.row else (f32NegInf, false)
      ((sc.1, on, k.1.own), sc.2))
    (a.fold acc.1 (ks.map (·.1)) b.2, acc.2 || ks.any (·.2))) ({ o := List.replicate a.d 0 }, false)

/-- What one work item answers. -/
structure AttItem where
  cols : List ((Nat × Nat) × Fold × Bool × Option Nat)
  blocks : Nat
  waits : List Nat
  kvPoison : List (Nat × Nat)
  pages : List Nat
  deriving DecidableEq, Repr

/-- A work item (R123, R136, R137): its blocks in ascending order on one tile, or in partitions when the sequencer splits it. -/
def State.attItem (s : State) (x : OpCtx) (a : Att) (split : Bool) (si : Nat) (q : AttSeq) (g : Nat) (cols : List (Nat × Nat)) : AttItem :=
  let bs := s.attBlocks a q g (cols.map (·.1))
  let bv := bs.map (fun b => (b, b.vals.map (fun v => (List.range a.d).map (fun d => rowVal a.kvFmt v.row d))))
  let all := (bs.map (fun b => b.keys ++ b.vals)).flatten
  { cols := cols.map (fun c =>
      let qv := s.query x a si c.1 c.2
      let st :=
        if split then
          let ps := ((splitAtAll x.env.parts bv).filter (fun p => !p.isEmpty)).map (a.column q c.1 qv.1)
          let arr := (x.env.order.filterMap (fun j => if j < ps.length then some j else none)).eraseDups
          let seq := (arr ++ (List.range ps.length).filter (fun j => !arr.contains j)).map (fun j => ps.getD j ({ o := [] }, false))
          (seq.foldl (fun acc p => acc.combine p.1) { o := List.replicate a.d 0 }, seq.any (·.2))
        else a.column q c.1 qv.1 bv
      (c, st.1, st.2, qv.2))
    blocks := bs.length, waits := all.filterMap (·.wait), kvPoison := all.filterMap (·.kvPoison), pages := all.filterMap (·.page) }

/-- The work items of an operator: sequence, key-value head, query columns (R123). -/
def Att.items (a : Att) : List (Nat × Nat × List (Nat × Nat)) :=
  ((List.range a.seqs).map (fun si => ((List.range a.kvHeads).map (fun g =>
    let cols := ((List.range a.qRows).map (fun r => (List.range a.g).map (fun h => (r, g * a.g + h)))).flatten
    (chunks a.rMax cols).map (fun c => (si, g, c)))).flatten)).flatten

/-- ATTN (R123-R139, R153, R169, R170). -/
def opAttn (s : State) (x : OpCtx) (blk : List Nat) : OpRes :=
  let a := Att.parse blk
  let i := s.attIn x a
  if i.bad ≠ 0 then { OpRes.fail i.bad with ue := i.ue }
  else
    let split := !x.det && a.splitOk && s.flag .CLU_CTRL_SPLIT_EN x.clu
    let credit := a.scoreEn && s.flag .KVM_CTRL_SCORE_EN
    match elemFmt a.outFmt with
    | none => .fail stAttShape
    | some f =>
      let items := a.items.map (fun t => (t, s.attItem x a split t.1 (i.seqs.getD t.1 ⟨0, 0, {}, [], []⟩) t.2.1 t.2.2))
      let outRow := a.d * elemBits a.outFmt / 8
      let outBase := (s.place x a.outSrc a.outBase 0).getD 0
      let lseBase := if a.lseOut then (s.place x a.outSrc a.lseBase 0).getD 0 else 0
      let per := (items.map (fun t => t.2.cols.map (fun c =>
        let col := (t.1.1 * a.qRows + c.1.1) * a.qHeads + c.1.2
        let st := c.2.1
        let p := !t.2.kvPoison.isEmpty || c.2.2.2.isSome
        let empty := st.m == f32NegInf
        let codes := st.o.zipIdx.map (fun y =>
          f.encode (x.rnd (col * a.d + y.2)) x.ovfSat (if empty then .num false 0 0 else f32V (f32Div y.1 st.l)))
        (([rowWrite (outBase + col * outRow) (elemBits a.outFmt) (codes.map (fun y => ⟨y.1, p⟩))]
            ++ if a.lseOut then [rowWrite (lseBase + col * 8) 32 [⟨st.m, p⟩, ⟨st.l, p⟩]] else []),
         empty, codes, c.2.2.1, c.2.2.2,
         if credit && decide (8 * t.2.cols.length * t.2.blocks ≤ 262144) then st.credits col else [])))).flatten
      let kvp := (items.map (fun t => t.2.kvPoison)).flatten
      { status := writtenStatus (!kvp.isEmpty) false false false false
        writes := (per.map (·.1)).flatten
        accSat := per.any (fun y => y.2.2.2.1)
        nanOut := per.any (fun y => y.2.2.1.any (fun z => z.2.nan)), cvtOvf := per.any (fun y => y.2.2.1.any (fun z => z.2.ovf))
        counts := [0, (per.filter (fun y => y.2.1)).length,
          if credit then (items.filter (fun t => decide (262144 < 8 * t.2.cols.length * t.2.blocks))).length else 0, 0]
        ue := i.ue ++ per.filterMap (fun y => y.2.2.2.2.1), pages := (items.map (fun t => t.2.pages)).flatten
        waits := (items.map (fun t => t.2.waits)).flatten, kvPoison := kvp
        credits := (per.map (fun y => y.2.2.2.2.2)).flatten
        trees := if a.mask = 3 then i.seqs.map (fun q => (q.root, q.parents)) else [] }

end Sys2Proof.Machine
end

