-- ==== Sys2Proof/Machine/Jobs.lean ====
section
/-! DEFINITION. The operator commands, the paths of a convolution, fused groups, DMA, SCATTER_KV, and a JOB's time limit
(R42-R139, R148, R185, R187, R189, R399). -/

namespace Sys2Proof.Machine

/-! ### Operators with one shape of run -/

def execMatmul (r n i k : Nat) (env : OpEnv) (s : State) : Res := s.operator [0x01] r n i k env opMatmul
def execSegSum (r n i k : Nat) (env : OpEnv) (s : State) : Res := s.operator [0x02] r n i k env (opSegSum false)
def execSegMax (r n i k : Nat) (env : OpEnv) (s : State) : Res := s.operator [0x03] r n i k env (opSegPick true)
def execSegMin (r n i k : Nat) (env : OpEnv) (s : State) : Res := s.operator [0x04] r n i k env (opSegPick false)
def execSegMean (r n i k : Nat) (env : OpEnv) (s : State) : Res := s.operator [0x05] r n i k env (opSegSum true)
def execScatterAdd (r n i k : Nat) (env : OpEnv) (s : State) : Res := s.operator [0x06] r n i k env opScatterAdd
def execMsg (r n i k : Nat) (env : OpEnv) (s : State) : Res := s.operator [0x07] r n i k env opMsg
def execTopk (r n i k : Nat) (env : OpEnv) (s : State) : Res := s.operator [0x08] r n i k env opTopk
def execSort (r n i k : Nat) (env : OpEnv) (s : State) : Res := s.operator [0x09] r n i k env opSort
def execUnique (r n i k : Nat) (env : OpEnv) (s : State) : Res := s.operator [0x0A] r n i k env opUnique
def execGridBuild (r n i k : Nat) (env : OpEnv) (s : State) : Res := s.operator [0x0B] r n i k env opGridBuild
def execKnn (r n i k : Nat) (env : OpEnv) (s : State) : Res := s.operator [0x0C] r n i k env opKnn
def execMaxpool (r n i k : Nat) (env : OpEnv) (s : State) : Res := s.operator [0x11] r n i k env (opPool 0x11)
def execAvgpool (r n i k : Nat) (env : OpEnv) (s : State) : Res := s.operator [0x12] r n i k env (opPool 0x12)
def execGlobalAvg (r n i k : Nat) (env : OpEnv) (s : State) : Res := s.operator [0x13] r n i k env (opPool 0x13)
def execEltwise (r n i k : Nat) (env : OpEnv) (s : State) : Res := s.operator [0x20] r n i k env opEltwise
def execRandom (r n i k : Nat) (env : OpEnv) (s : State) : Res := s.operator [0x21] r n i k env opRandom
def execAttn (r n i k : Nat) (env : OpEnv) (s : State) : Res := s.operator [0x40] r n i k env opAttn

/-! ### Convolution (R100-R108) -/

/-- The engine or scratch region a convolution waits for takes it, or queues it (R103, R108); none when the queue is full. -/
def Cluster.takeTce (c : Cluster) (k : OpKey) : Option Cluster :=
  if c.tceRun.isNone then some { c with tceRun := some k }
  else if c.tceQueue.length < 15 then some { c with tceQueue := c.tceQueue ++ [k] } else none

def Cluster.takeS2d (c : Cluster) (k : OpKey) : Cluster :=
  if c.s2dRun.isNone then { c with s2dRun := some k } else { c with s2dQueue := c.s2dQueue ++ [k] }

/-- A convolution starts on the path that R105 chooses. -/
def State.convStart (s : State) (d : Desc) (j : Job) (k lt : Nat) (env : OpEnv) : State :=
  let p := s.physTile lt
  let x := j.rcd k
  let o : OpRun := { stoch := s.stochasticOn x p, ovfSat := s.flag .TIL_CVT_OVF_SAT p }
  let c := s.convIn (j.ctx x o (d.num 0x20 8) p env) (s.block d x)
  let key : OpKey := ⟨d.uid, k⟩
  let s0 := if c.bad = 0 then s.updJob d.uid (fun j => { j with path := match c.path with
      | 1 => 1
      | 2 => 2
      | _ => 0 }) else s
  if c.bad = 0 ∧ c.path = 1 then
    match (s.cluster (p / 17)).takeTce key with
    | none => s
    | some q => (s0.opStart d.uid k p [] lt).setCluster (p / 17) q
  else if c.bad = 0 ∧ c.path = 2 then
    let s1 := s0.opStart d.uid k p [p] lt
    s1.setCluster (p / 17) ((s1.cluster (p / 17)).takeS2d key)
  else
    let s1 := (s0.disturb p env).opStart d.uid k p [p] lt
    (if c.noSpace then s1.setSts .CLU_STS [4] (p / 17) else s1).opRun d d.uid k p env opConv

/-- CONV: it starts on its path; one whose repack is done runs (R105-R108). -/
def execConv (r n i k : Nat) (env : OpEnv) (s : State) : Res :=
  s.whenRunning (fun s =>
    match s.jobAt r n i with
    | none => s
    | some (d, j) =>
      if !(s.active r && (j.rcd k).opcode == 0x10) then s
      else if j.mayStart k then
        match s.pickTile j (d.byte 0x1C) (j.rcd k) env with
        | .none => (s.updJob d.uid (fun j => j.setOp k { st := .running })).opEnd ⟨d.uid, k⟩ stDescAccess []
        | .busy => s
        | .tile lt => s.convStart d j k lt env
      else if (j.op k).st == .running && (j.op k).repacked && k < j.nOps then
        ((s.disturb (j.op k).home env)).opRun d d.uid k (j.op k).home env opConv
      else s)

/-- The descriptor and JOB of an operator. -/
def State.opOwner (s : State) (k : OpKey) : Option (Desc × Job) :=
  match s.job k.desc with
  | none => none
  | some j => (s.descUid j.realm j.ring k.desc).map (fun d => (d, j))

/-- TCE_DISPATCH: the thin-channel engine of a cluster completes its operator and takes the next of its queue (R101-R104). An
uncorrectable word of the engine ends the operator as R52 gives. -/
def execTceDispatch (c : Nat) (env : OpEnv) (s : State) : Res :=
  s.whenRunning (fun s =>
    match (s.cluster c).tceRun with
    | none => s
    | some key =>
      let q := s.cluster c
      let s := s.setCluster c { q with tceRun := q.tceQueue.head?, tceQueue := q.tceQueue.drop 1 }
      match s.opOwner key with
      | none => s
      | some (d, j) =>
        let p := (j.op key.op).home
        let s := env.bad.foldl (fun s k => s.onMem (fun m => m.spoil k)) s
        let s := s.bumpWrap .CLU_PERF_TCE_BUSY_COUNT env.busy c
        let s := if env.ce.isEmpty then s else (s.setSts .CLU_STS [3] c).report 1 0x0005 1 c 1 (s.cluRealms c) env.ce.length
        let x := opConv s (j.ctx (j.rcd key.op) (j.op key.op) (d.num 0x20 8) p env) (s.block d (j.rcd key.op))
        if env.datapath then
          (((s.applyWrites (cutWrites env.cut x.writes)).setSts .CLU_STS [2] c).contain 0x0005 1 c 1 0).opEnd key stTileFault []
        else s.settle key p env x true false)

/-- The packed plane of the space-to-depth fall-back (R108): the codes of one packed pixel. -/
def State.packPixel (s : State) (x : OpCtx) (w : Wnd) (b py px : Nat) : List El :=
  ((List.range b).map (fun iy => ((List.range b).map (fun ix =>
    let y := b * py + iy
    let z := b * px + ix
    if w.inH + w.padT + w.padB ≤ y ∨ w.inW + w.padL + w.padR ≤ z then List.replicate w.cIn ⟨0, false⟩
    else (s.tapRow x { w with sh := 1, sw := 1, dh := 1, dw := 1 } 0 w.cIn y z 0 0).1.els)).flatten)).flatten

/-- Block sizes of R107. -/
def Wnd.s2dBlock (w : Wnd) : Nat := ([2, 4, 8].find? (fun b => w.sh % b == 0 && decide (512 ≤ b * b * w.cIn * elemBits w.elem))).getD 2

/-- S2D_REPACK: the padded input of the convolution that holds the scratch region is written into it (R108). -/
def execS2dRepack (c : Nat) (s : State) : Res :=
  s.whenRunning (fun s =>
    let q := s.cluster c
    let s := if q.s2dRun.isNone then s.setCluster c { q with s2dRun := q.s2dQueue.head?, s2dQueue := q.s2dQueue.drop 1 } else s
    match (s.cluster c).s2dRun with
    | none => s
    | some key =>
      match s.opOwner key with
      | none => s
      | some (d, j) =>
        if (j.op key.op).repacked then s
        else
          let x := j.ctx (j.rcd key.op) (j.op key.op) (d.num 0x20 8) (j.op key.op).home {}
          let w := Wnd.parse ((OpHdr.parse (s.block d (j.rcd key.op))).a.headD [])
          let b := w.s2dBlock
          let h := ceilDiv (w.inH + w.padT + w.padB) b
          let v := ceilDiv (w.inW + w.padL + w.padR) b
          let size := ceilDiv (b * b * w.cIn * elemBits w.elem) 512 * 64
          let base := clusterBase c + s.fld .CLU_S2D_SCRATCH_BASE c * 4096
          let ws := ((List.range h).map (fun py => (List.range v).map (fun px =>
            let y := rowWrite (base + (py * v + px) * size) (elemBits w.elem) (s.packPixel x w b py px)
            { y with bytes := y.bytes ++ List.replicate (size - y.bytes.length) 0 }))).flatten
          (s.applyWrites ws).updJob key.desc (fun j => j.setOp key.op { j.op key.op with repacked := true }))

/-! ### Fused groups (R109-R119) -/

/-- The first place of `n` lines among those in use, tried from the lowest. -/
def fitLines (used : List (Nat × Nat)) (size n : Nat) : Option Nat :=
  ((0 :: used.map (fun u => u.1 + u.2)).filter (fun a =>
      decide (a + n ≤ size) && used.all (fun u => decide (u.1 + u.2 ≤ a) || decide (a + n ≤ u.1)))).foldl
    (fun m a => match m with
      | none => some a
      | some b => some (min a b)) none

/-- Line buffers of a plan placed in a cluster's region; none while it does not fit beside those in use (R115). -/
def placeBufs (size : Nat) (own : OpKey) : List BufPlan → Tab LineBuf → Option (Tab LineBuf)
  | [], t => some t
  | b :: l, t =>
    match fitLines (t.map (fun e => (e.2.slotBase, e.2.rowLines * e.2.depth))) size (b.lines * b.depth), Tab.freeKey t 256 0 with
    | some a, some k => placeBufs size own l (Tab.put k { owner := own, dir := b.dir, layer := b.layer, prod := b.prod, cons := b.cons, cols := b.cols,
                                                          depth := b.depth, rowLines := b.lines, slotBase := a, rows := b.rows } t)
    | _, _ => none

/-- The clusters and tiles of a group: the first clusters, in ascending order, that hold enough usable tiles (R109). -/
def State.groupTiles (s : State) (j : Job) (mask : Nat) (x : OpRecord) (clusters stripes : Nat) : Option (List (List Nat)) :=
  let us := s.usableTiles j.realm mask x
  let cs := ((x.clusters mask).map (fun c => us.filter (fun lt => lt / 16 == c))).filter (fun l => decide (stripes ≤ l.length))
  if cs.length < clusters then none else some ((cs.take clusters).map (·.take stripes))

/-- Columns that the last stripe of each cluster but the rightmost, and the first of each but the leftmost, compute at a layer beyond what
their cluster owns, for every layer, times its rows (R116). -/
def GroupIn.recomputed (g : GroupIn) : Nat :=
  let ls := g.layers
  let own := (ownAll ((g.widths.reverse.drop 1)) ((ls.map Layer.wnd).reverse.take (ls.length - 1)) g.stripes).reverse
  let edge := fun (q : Nat) (right : Bool) =>
    -- from the last layer back: the columns computed, and those beyond the owned ones
    ((List.range (ls.length - 1)).reverse.foldl (fun (a : (Nat × Nat) × Nat) k =>
      let o := (own.getD k []).getD q (0, 0)
      let need := readCols (g.widths.getD k 1) a.1 ((ls.getD (k + 1) ⟨0, Wnd.parse [], Cvt.parse [], 1, [], 0, []⟩).wnd)
      let extra := if right then need.2 - o.2 else o.1 - need.1
      ((min o.1 need.1, max o.2 need.2), a.2 + extra * g.heights.getD k 0)) (g.stripes.getD q (0, 0), 0)).2
  ((List.range (g.hdr.clusters - 1)).map (fun c => edge ((c + 1) * g.hdr.stripes - 1) true + edge ((c + 1) * g.hdr.stripes) false)).sum

def State.groupCtx (s : State) (key : OpKey) : Option (Desc × Job × OpCtx) :=
  (s.opOwner key).map (fun y => (y.1, y.2, y.2.ctx (y.2.rcd key.op) (y.2.op key.op) (y.1.num 0x20 8) (y.2.op key.op).home {}))

/-- A group whose tiles have all finished writes its output and ends. -/
def State.groupDone (s : State) (key : OpKey) (env : OpEnv) : State :=
  match s.groupCtx key with
  | none => s
  | some (d, j, x) =>
    let p := (j.op key.op).home
    let b := s.block d (j.rcd key.op)
    let g := s.groupIn x b
    (s.bumpWrap .CLU_PERF_RECOMP_COUNT g.recomputed (p / 17)).settle key p env (opGroup s x b) false true

/-- Where the line buffers of a group go in each of its clusters; none while they do not fit (R115). -/
def State.groupPlaces (s : State) (g : GroupIn) (key : OpKey) (stripes : Nat) (cls : List Nat) : List (Nat × Option (Tab LineBuf)) :=
  cls.zipIdx.map (fun c => (c.1, placeBufs (s.fld .CLU_LB_SIZE_SIZE c.1 * 64) key (g.plan (c.2 * stripes) stripes) (s.cluster c.1).bufs))

/-- The clusters of a group hold its line buffers and list it. -/
def State.groupHold (s : State) (key : OpKey) (placed : List (Nat × Option (Tab LineBuf))) : State :=
  placed.foldl (fun s y => s.setCluster y.1 { s.cluster y.1 with bufs := y.2.getD [], groups := (s.cluster y.1).groups ++ [key] }) s

/-- GROUP: every tile of the group starts at once when all are IDLE and its line buffers have room (R109-R115). -/
def State.groupStart (s : State) (d : Desc) (j : Job) (k : Nat) (env : OpEnv) : State :=
  let x := j.rcd k
  let key : OpKey := ⟨d.uid, k⟩
  let fail := fun (st : Nat) (access : Bool) =>
    let s := s.updJob d.uid (fun j => j.setOp k { st := .running })
    let s := if access then s.draw.2.reportMod 2 (s.draw.1 % 2 ^ 16) [j.realm] 0 (some 14) else s
    s.opEnd key st []
  let hdr := GroupHdr.parse (s.block d x)
  match s.groupTiles j (d.byte 0x1C) x hdr.clusters hdr.stripes with
  | none => fail stDescAccess false
  | some tls =>
    let ps := tls.map (fun l => l.map s.physTile)
    let p := (ps.headD []).headD 0
    let o : OpRun := { stoch := s.stochasticOn x p, ovfSat := s.flag .TIL_CVT_OVF_SAT p }
    let cx := j.ctx x o (d.num 0x20 8) p env
    let g := s.groupIn cx (s.block d x)
    if g.bad ≠ 0 then fail g.bad (g.bad == stIdxAccess)
    else if !ps.flatten.all s.tileFree then s
    else
      let cls := ps.map (fun l => l.headD 0 / 17)
      let placed := s.groupPlaces g key hdr.stripes cls
      if placed.any (fun y => y.2.isNone) then s
      else
        let s := ((s.disturb p env).opStart d.uid k p ps.flatten ((tls.headD []).headD 0)).groupHold key placed
        let noBufs := (List.range cls.length).all (fun c => (g.plan (c * hdr.stripes) hdr.stripes).isEmpty)
        let run := opGroup s cx (s.block d x)
        if noBufs || env.datapath || !(run.ue ++ s.partWrites run.writes).isEmpty then s.groupDone key env else s

def execGroup (r n i k : Nat) (env : OpEnv) (s : State) : Res :=
  s.whenRunning (fun s =>
    match s.jobAt r n i with
    | none => s
    | some (d, j) => if s.active r && (j.rcd k).opcode == 0x41 && j.mayStart k then s.groupStart d j k env else s)

def State.setBuf (s : State) (c b : Nat) (l : LineBuf) : State := s.setCluster c { s.cluster c with bufs := Tab.put b l (s.cluster c).bufs }

/-- Cycles since a stall or a wait began. -/
def LineBuf.waited (l : LineBuf) (now : Nat) : Nat := match l.waitSince with
  | some t => now - t
  | none => 0

/-- HALO_ROW_WRITE: the producer writes its next halo row into slot n mod DEPTH, or stalls (R112). -/
def execHaloRowWrite (c b : Nat) (s : State) : Res :=
  s.whenRunning (fun s =>
    match Tab.find b (s.cluster c).bufs with
    | none => s
    | some l =>
      if l.rows ≤ l.prodCnt then s
      else if l.depth ≤ l.prodCnt - l.consCnt then s.setBuf c b { l with waitSince := l.waitSince.or (some s.gauge) }
      else
        match s.groupCtx l.owner with
        | none => s
        | some (d, j, x) =>
          let g := s.groupIn x (s.block d (j.rcd l.owner.op))
          let rs := groupRun x g.img g.layers
          let lay := g.layers.getD l.layer ⟨0, Wnd.parse [], Cvt.parse [], 1, [], 0, []⟩
          let img := ((rs.getD l.layer (g.img, ⟨[], [], false, false⟩, false))).1
          let bytes := ((List.range (l.cols.2 + 1 - l.cols.1)).map (fun t =>
            let y := packCodes (elemBits lay.cvt.outFmt) ((img.at l.prodCnt (l.cols.1 + t)).els.map El.code)
            y ++ List.replicate (lay.pixOut - y.length) 0)).flatten
          let a := clusterBase c + s.fld .CLU_LB_BASE_BASE c * 4096 + (l.slotBase + l.prodCnt % l.depth * l.rowLines) * 64
          let w := l.waited s.gauge
          ((s.store a bytes).bumpWrap .CLU_PERF_LB_STALL_COUNT w c).setBuf c b
            { l with prodCnt := l.prodCnt + 1, stall := (l.stall + w) % 2 ^ 32, waitSince := none })

/-- Rows of a layer that band `k` of its consumer reads up to, and the first row that the band after it needs (R112). -/
def bandRows (w : Wnd) (band rows outRows k : Nat) : Nat × Nat :=
  let last := min ((k + 1) * band) outRows
  (min rows ((last - 1) * w.sh + (w.kh - 1) * w.dh + 1 - w.padT), if outRows ≤ (k + 1) * band then rows else min rows ((k + 1) * band * w.sh - w.padT))

/-- The rows that the next band of a buffer's consumer reads up to, and the first row that the band after it needs. -/
def GroupIn.need (g : GroupIn) (l : LineBuf) : Nat × Nat :=
  let nxt := g.layers.getD (l.layer + 1) ⟨0, Wnd.parse [], Cvt.parse [], 1, [], 0, []⟩
  bandRows nxt.wnd g.hdr.band l.rows (nxt.wnd.hOut (nxt.op != 0x10)) l.band

/-- Have all rows of every line buffer of a group been read? -/
def State.groupRead (s : State) (k : OpKey) : Bool := (List.range 9).all (fun q => (s.cluster q).bufs.all (fun e => e.2.owner != k || e.2.done))

/-- HALO_ROW_READ: the consumer reads the halo rows of its next band, or waits; after the band it raises CONS_CNT. The group ends when
every buffer's rows have been read (R112). -/
def execHaloRowRead (c b : Nat) (s : State) : Res :=
  s.whenRunning (fun s =>
    match Tab.find b (s.cluster c).bufs with
    | none => s
    | some l =>
      match s.groupCtx l.owner with
      | none => s
      | some (d, j, x) =>
        let need := (s.groupIn x (s.block d (j.rcd l.owner.op))).need l
        if l.done then s
        else if l.prodCnt < need.1 then s.setBuf c b { l with waitSince := l.waitSince.or (some s.gauge) }
        else
          let s := (s.bumpWrap .CLU_PERF_LB_WAIT_COUNT (l.waited s.gauge) c).setBuf c b
            { l with consCnt := need.2, band := l.band + 1, waitSince := none, done := decide (l.rows ≤ need.2) }
          if s.groupRead l.owner then s.groupDone l.owner {} else s)

/-- LB_TIMEOUT: a stall or wait of a line buffer lasts longer than CLU_LB_TIMEOUT (R118). -/
def execLbTimeout (c b : Nat) (s : State) : Res :=
  s.whenRunning (fun s =>
    match Tab.find b (s.cluster c).bufs with
    | none => s
    | some l =>
      match l.waitSince with
      | none => s
      | some t =>
        let lim := 256 * s.fld .CLU_LB_TIMEOUT_LIMIT c
        if lim = 0 then s
        else
          let s := { s with gauge := max s.gauge (t + lim + 1) }
          ((s.setSts .CLU_STS [0] c).contain 0x0004 1 c 1 b).opEnd l.owner stLbTimeout [])

/-- Every running group of a cluster ends with LB_ABORT and its line buffers are empty (R117, R119). -/
def State.lbFlush (s : State) (c : Nat) : State :=
  let ks := (s.cluster c).groups
  let s := ks.foldl (fun s k => s.opEnd k stLbAbort []) s
  let s := s.setCluster c { s.cluster c with bufs := [], groups := [] }
  if ks.isEmpty then s else s.setSts .CLU_STS [1] c

def execLbFlush (w : Win) (c : Nat) (s : State) : Res := s.fwCommand w .CLU_CMD c 1 (fun s => s.lbFlush c)

/-- CLU_LB_STALL of every buffer and the four performance counters clear (R120). -/
def State.cluCntClr (s : State) (c : Nat) : State :=
  let s := s.setCluster c { s.cluster c with bufs := (s.cluster c).bufs.map (fun e => (e.1, { e.2 with stall := 0 })) }
  [Reg.CLU_PERF_TCE_BUSY, .CLU_PERF_LB_STALL, .CLU_PERF_LB_WAIT, .CLU_PERF_RECOMP].foldl (fun s r => s.setWord r c 0 0) s

def execCluCntClr (w : Win) (c : Nat) (s : State) : Res := s.fwCommand w .CLU_CMD c 2 (fun s => s.cluCntClr c)

/-- A write of CLU_CTRL is applied to every physical cluster (R121). -/
def State.cluCtrlAll (s : State) (v : Nat) : State :=
  (List.range 9).foldl (fun s c => s.setWord .CLU_CTRL c 0 (BitVec.ofNat 32 (v % 8))) s

def execCluCtrlWrite (w : Win) (c v : Nat) (s : State) : Res := s.fwCommand w .CLU_CTRL c v (fun s => s.cluCtrlAll v)

/-! ### Other descriptors of work -/

/-- JOB_TIMEOUT: the time of a JOB reaches MAX_GT (R187). -/
def execJobTimeout (r n i : Nat) (s : State) : Res :=
  s.whenReady (fun s =>
    match s.jobAt r n i with
    | none => s
    | some (d, j) =>
      if j.maxGt = 0 ∨ j.finished ∨ s.det.snaps.any (fun x => x.target == d.uid && x.image.isSome) then s
      else ({ s with gauge := max s.gauge (j.start + j.maxGt) }).endJob d.uid stTimeout)

/-- Bytes moved with the poison of the words they came from (R46). -/
def State.moveBytes (s : State) (src dst n : Nat) : State := s.onMem (fun m => m.copy src dst n)

/-- The receive window of R399: is a counter accepted, and the slot after it. -/
def KeySlot.accepts (k : KeySlot) (n : Nat) : Bool :=
  n != 0 && decide (k.inHigh < n + 64) && (decide (k.inHigh < n) || !bit k.window (k.inHigh - n))

def KeySlot.accept (k : KeySlot) (n : Nat) : KeySlot :=
  if k.inHigh < n then { k with inHigh := n, window := (k.window * 2 ^ (n - k.inHigh) + 1) % 2 ^ 64 }
  else { k with window := if bit k.window (k.inHigh - n) then k.window else k.window + 2 ^ (k.inHigh - n) }

/-- Nonce and additional data of a sealed transfer (R399): a 4-byte direction word and an 8-byte counter, both big-endian. -/
def sealNonce (dir n : Nat) : List Nat := beBytes 4 dir ++ beBytes 8 n
def sealAad (r slot size dir : Nat) : List Nat := leBytes 1 r ++ leBytes 2 slot ++ leBytes 4 size ++ leBytes 4 dir

/-- A sealed DMA (R399): the status and the state. -/
def State.sealedDma (s : State) (r slot : Nat) (k : KeySlot) (toModule : Bool) (src dst n : Nat) : Nat × State :=
  if toModule then
    let ct := s.bytes src n
    let tag := s.bytes (src + n) 16
    let cnt := s.num (src + n + 16) 8
    if !k.accepts cnt then (stKeyReplay, (s.setSts .SEC_STS [2]).emit 0 0x70 0x0004 r (slot + stKeyReplay * 2 ^ 8 + cnt % 2 ^ 64 * 2 ^ 16))
    else
      match gcmOpen k.key (sealNonce 1 cnt) (sealAad r slot n 1) ct tag with
      | some pt => (stOk, (s.store dst pt).setKeySlot r slot (k.accept cnt))
      | none => (stKeySeal, ((s.store dst (List.replicate n 0)).setSts .SEC_STS [2]).emit 0 0x70 0x0004 r (slot + stKeySeal * 2 ^ 8 + cnt % 2 ^ 64 * 2 ^ 16))
  else
    let c := gcmSeal k.key (sealNonce 2 k.outNext) (sealAad r slot n 2) (s.bytes src n)
    (stOk, ((((s.store dst c.1).store (dst + n) c.2).store (dst + n + 16) (leBytes 8 k.outNext))).setKeySlot r slot { k with outNext := (k.outNext + 1) % 2 ^ 64 })

/-- DMA (R185, R391, R399): it moves BYTES between its spaces; RESULT holds the bytes moved. -/
def execDma (r n i : Nat) (s : State) : Res :=
  s.whenRunning (fun s => s.onDesc r n i 2 (fun d s =>
    let size := d.num 0x18 4
    let sp := bits (d.byte 0x1C) 0 4
    let dp := bits (d.byte 0x1C) 4 4
    match s.dmaPlace r sp (d.byte 0x1D) (d.num 8 8) size, s.dmaPlace r dp (d.byte 0x1D) (d.num 0x10 8) size with
    | some a, some b =>
      let slot := d.num 0x1E 2
      if slot = noKey then (s.moveBytes a b size).finish r n d.uid { status := stOk, result := size }
      else match s.keySlot r slot with
        | none => s.done r n d.uid stKeySlot
        | some k =>
          let x := s.sealedDma r slot k (sp == 0) a b size
          x.2.finish r n d.uid { status := x.1, result := if x.1 = stOk then size else 0 }
    | _, _ => s.done r n d.uid stDescAccess))

/-- SCATTER_KV (R148-R153). -/
def execScatterKv (r n i : Nat) (s : State) : Res :=
  s.whenReady (fun s => s.onDesc r n i 3 (fun d s =>
    let x := s.scatterKv (d.num 8 4) (d.byte 0x0C == 1) (d.num 0x0E 2) ((List.range (d.byte 0x0D)).map (fun k => d.byte (0x10 + k)))
    x.2.done r n d.uid x.1))

end Sys2Proof.Machine
end

