-- ==== Sys2Proof/Machine/Swatch.lean ====
section
/-! DEFINITION. Swatch units, the match table and verdicts (R349-R353). -/

namespace Sys2Proof.Machine

def State.onDet (s : State) (f : Det → Det) : State := { s with det := f s.det }
def State.setSwatch (s : State) (w : Option Swatch) : State := s.onDet (fun d => { d with swatch := w })

/-! Verdicts (R353). -/

def vRunning : Nat := 0
def vPass : Nat := 1
def vMismatch : Nat := 2
def vIncomplete : Nat := 3
def vUnmatched : Nat := 4
def vPeer : Nat := 5

def stSwatchPeer : Nat := 0x78
def stSwatchConfig : Nat := 0x79
def stSwatchFail : Nat := 0x7A
def stSwatchBusy : Nat := 0x7B

/-- DET_STATE's swatch fields follow the swatch. -/
def State.swatchShow (s : State) : State :=
  match s.det.swatch with
  | some w =>
    let on := w.phase != .ended
    (((s.setFld .DET_STATE_SWATCH (b2n on)).setFld .DET_STATE_ROLE w.role).setFld .DET_STATE_VERDICT w.verdict).setFld .DET_SWATCH_INFO_PEER w.peer
  | none => s.setFld .DET_STATE_SWATCH 0

/-- A verdict is reached; DET_STS tells a pass from a failure (R352). -/
def State.verdict (s : State) (w : Swatch) (v : Nat) : State :=
  ((s.setSwatch (some { w with verdict := v })).swatchShow).setSts .DET_STS [if v = vPass then 4 else 5]

/-! SWATCH messages: their payloads (log entry 20). -/

def swHello : Nat := 0
def swUnit : Nat := 1
def swVerdict : Nat := 2
def swEnd : Nat := 3

def Swatch.hello (s : State) (w : Swatch) (reply : Bool) : List Nat :=
  [swHello, w.realm, w.role, b2n reply] ++ leBytes 4 w.id ++ leBytes 4 (s.word .GLB_FW_VER).toNat ++ leBytes 4 s.modeNow

def SwUnit.message (w : Swatch) (u : SwUnit) : List Nat := [swUnit, u.kind, u.ring, 0] ++ leBytes 4 w.id ++ leBytes 4 u.tag ++ u.digest

def Swatch.verdictMsg (s : State) (w : Swatch) : List Nat :=
  [swVerdict, w.verdict, 0, 0] ++ leBytes 4 w.id ++ leBytes 4 (s.word .DET_SWATCH_CNT).toNat ++ leBytes 4 (s.fld .DET_SWATCH_ERR_UNMATCHED)

def Swatch.endMsg (w : Swatch) : List Nat := [swEnd, 0, 0, 0] ++ leBytes 4 w.id

def State.swatchSend (s : State) (w : Swatch) (payload : List Nat) : State := s.stvSend w.peer 2 8 payload

/-! ### The match table (R351, R352) -/

def sameKey (a b : SwUnit) : Bool := a.kind == b.kind && a.ring == b.ring && a.tag == b.tag

/-- A unit that found no place or no partner. -/
def State.unmatched (s : State) : State := s.bumpSat .DET_SWATCH_ERR_UNMATCHED 1

/-- A unit arrives at the shadow, its own or the reference's. -/
def State.swatchMatch (s : State) (w : Swatch) (u : SwUnit) (peer : Bool) : State :=
  match w.table.find? (fun e => e.peer != peer && sameKey e.item u) with
  | some e =>
    let w := { w with table := w.table.erase e }
    if e.item.digest = u.digest then
      let s := s.setWord .DET_SWATCH_CNT 0 0 ((s.word .DET_SWATCH_CNT) + 1)
      let w := w
      if w.steps ≤ (s.word .DET_SWATCH_CNT).toNat ∧ s.fld .DET_SWATCH_ERR_UNMATCHED ≤ w.unmatchedMax then s.verdict w vPass
      else s.setSwatch (some w)
    else
      let s := (s.setWord .DET_SWATCH_TAG 0 0 (BitVec.ofNat 32 u.tag)).setFld .DET_SWATCH_INFO_RING u.ring
      ((s.setFld .DET_SWATCH_INFO_KIND u.kind).setFld .DET_SWATCH_INFO_VALID 1).verdict w vMismatch
  | none =>
    if 1024 ≤ w.table.length then s.unmatched
    else s.setSwatch (some { w with table := w.table ++ [⟨u, peer, s.gauge⟩] })

/-- A unit completes on this module (R350, R351): the shadow keeps it, the reference queues it for the shadow. -/
def State.swatchUnit (s : State) (r : Nat) (u : SwUnit) : State :=
  match s.det.swatch with
  | none => s
  | some w =>
    if w.phase ≠ .running ∨ w.realm ≠ r ∨ w.verdict ≠ vRunning then s
    else if w.role = 0 then s.swatchMatch w u false
    else if 256 ≤ w.queue.length then s.bumpSat .DET_SWATCH_ERR_DROPPED 1
    else s.setSwatch (some { w with queue := w.queue ++ [u] })

/-- The digest of a serving request as a unit (R350). -/
def requestUnit (ring tag model : Nat) (tokens : List Nat) : SwUnit :=
  ⟨1, ring, tag, sha256 (leBytes 2 model ++ leBytes 4 tokens.length ++ (tokens.map (leBytes 4)).flatten)⟩

end Sys2Proof.Machine
end

