-- ==== Sys2Proof/Machine/Det.lean ====
section
/-! DEFINITION. Digests and signatures, snapshots and restores, the generator registers, swatch runs (R327-R357). -/

namespace Sys2Proof.Machine

/-! ### Statuses (R354) -/

def stSnapshotted : Nat := 0x70
def stSnapMissed : Nat := 0x71
def stSnapLimit : Nat := 0x72
def stSnapFormat : Nat := 0x73
def stSnapSeal : Nat := 0x74
def stSnapVersion : Nat := 0x75
def stSnapRealm : Nat := 0x76
def stSnapRing : Nat := 0x77

/-! ### The generator registers (R333, R335) -/

/-- The realm whose set a window reaches. -/
def State.genSet (s : State) (w : Win) : Nat := match w with
  | .realm r => r
  | _ => s.fld .DET_RLM_SEL_REALM

def State.genOf (s : State) (r : Nat) : GenSet := Tab.get (fun _ => {}) s.det.gens r
def State.setGen (s : State) (r : Nat) (g : GenSet) : State := s.onDet (fun d => { d with gens := Tab.set (fun _ => {}) r g d.gens })

/-- GEN_RUN samples the five input registers of its set; while the set is busy it is ignored. -/
def State.genRun (s : State) (r : Nat) : State :=
  if (s.genOf r).busy then s
  else s.setGen r { busy := true,
                    seed := (s.word .DET_GEN_SEED_LO 0 r).toNat + (s.word .DET_GEN_SEED_HI 0 r).toNat * 2 ^ 32,
                    stream := s.fld .DET_GEN_STREAM_STREAM 0 r,
                    pos := (s.word .DET_GEN_POS_LO 0 r).toNat + (s.word .DET_GEN_POS_HI 0 r).toNat * 2 ^ 32 }

/-- GEN_RUN: realm software runs its own set; firmware and the management window the set of DET_RLM_SEL's realm (R355). -/
def execGenRun (w : Win) (s : State) : Res :=
  match w with
  | .realm r => .next (if s.pageUp 11 && s.windowOpen r then s.genRun r else s)
  | _ => s.fwCommand w .DET_CMD 0 1 (fun s => s.genRun (s.genSet w))

/-- GEN_DONE: DET_GEN_OUT of a set becomes valid. -/
def execGenDone (r : Nat) (s : State) : Res :=
  s.whenUp (fun s =>
    let g := s.genOf r
    if g.busy then (s.setGen r {}).setWord .DET_GEN_OUT 0 r (BitVec.ofNat 32 (gen g.seed g.stream g.pos)) else s)

/-- DET_CNT_CLR: the three performance counters clear (R356). -/
def State.detCntClr (s : State) : State :=
  (((s.setWord .DET_PERF_HASH 0 0 0).setWord .DET_PERF_SIGN 0 0 0).setWord .DET_PERF_SNAP 0 0 0).onDet (fun d => { d with hashed := 0 })

def execDetCntClr (w : Win) (s : State) : Res := s.fwCommand w .DET_CMD 0 2 State.detCntClr

/-! ### Result digests and signatures (R338-R342) -/

/-- Bytes that the digest engine hashed for a JOB. -/
def DTable.hashed (t : DTable) : Nat :=
  t.progBytes + ((t.regions.filter (fun x => t.model == 0xFFFF || x.cls != 1)).map DRegion.size).sum

def State.countHash (s : State) (n : Nat) : State :=
  let h := s.det.hashed + n
  (s.onDet (fun d => { d with hashed := h })).setWord .DET_PERF_HASH 0 0 (BitVec.ofNat 32 (h / 2 ^ 20))

/-- The result digest: SHA-256 over the 144 bytes of R339. -/
def Job.resultDigest (j : Job) (d : Desc) (outputs : List Nat) : List Nat :=
  sha256 (j.inputs.flatten ++ outputs ++ leBytes 8 (d.num 0x20 8) ++ leBytes 4 j.mode ++ leBytes 4 j.fw)

/-- The record of a JOB with a digest is written; an OK one is a swatch unit (R350). -/
def State.digestRecord (s : State) (d : Desc) (j : Job) (signed : Bool) : State :=
  let s := ((s.dropJob d.uid)).finish j.realm j.ring d.uid { j.record with signed := signed }
  match j.digest with
  | some h => if j.outcome.1 = stOk then s.swatchUnit j.realm ⟨0, j.ring, d.tag, h⟩ else s
  | none => s

/-- Room in the root of trust's queue of 64 signatures (R342). -/
def signQueue : Nat := 64

/-- DIGEST_DONE: the output regions are hashed and the result digest is formed; `err` when a region could not be read (R341). With SIGN
the JOB enters the signature queue, or waits for room in it (R342). -/
def execDigestDone (r n i : Nat) (err : Bool) (s : State) : Res :=
  s.whenReady (fun s =>
    match s.jobAt r n i with
    | none => s
    | some (d, j) =>
      if !j.finished || j.digest.isSome then s
      else if err then
        let s := s.setSts .DET_STS [0]
        (s.dropJob d.uid).finish r n d.uid { j.record with status := stDigestTable, opIndex := 0xFFFFFFFF }
      else
        let t := s.digestTable (d.num 0x10 8)
        let j := { j with digest := some (j.resultDigest d (s.classDigest t 3)) }
        let s := s.countHash t.hashed
        if bit d.flags 2 then
          let s := if signQueue ≤ s.det.signs.length then s.setSts .DET_STS [6] else s
          let s := (s.setJob d.uid j).onDet (fun x => { x with signs := x.signs ++ [(r, n, d.uid)] })
          s.setFld .DET_STATE_SIGN_PEND (min signQueue s.det.signs.length)
        else s.digestRecord d j false)

/-- The attestation key of the running image (R406). -/
def State.attestKey (s : State) : Nat := Config.attestKey (s.word .GLB_FW_VER).toNat % (p256n - 1) + 1

def State.serial (s : State) : Nat := (s.word .GLB_SERIAL_LO).toNat + (s.word .GLB_SERIAL_HI).toNat * 2 ^ 32

/-- The message M that the root of trust signs (R342). -/
def State.signMessage (s : State) (digest : List Nat) : List Nat := digest ++ leBytes 8 s.serial ++ leBytes 8 (s.gauge / 32 * 32)

/-- SIGNATURE_DONE: the oldest signature of the queue is written to SIG_ADDR, and its JOB's record after it; `fail` when the root of
trust could not sign (R342). -/
def execSignatureDone (r n i : Nat) (fail : Bool) (s : State) : Res :=
  s.whenReady (fun s =>
    match s.jobAt r n i with
    | none => s
    | some (d, j) =>
      if s.det.signs.head? ≠ some (r, n, d.uid) then s
      else match j.digest with
        | none => s
        | some h =>
          let s := s.onDet (fun x => { x with signs := x.signs.drop 1 })
          let s := s.setFld .DET_STATE_SIGN_PEND (min signQueue s.det.signs.length)
          if fail then (s.setSts .DET_STS [1]).digestRecord d j false
          else
            let s := s.store (hostBase + d.num 0x30 8) (ecdsaSign s.attestKey (s.signMessage h))
            let s := s.setWord .DET_PERF_SIGN 0 0 (s.word .DET_PERF_SIGN + 1)
            s.digestRecord d j true)

/-! ### Snapshots (R343-R345, R400) -/

/-- Ranges of 4 KiB units of the realm part of a physical cluster's store, in ascending offset (R391). -/
def realmRanges (reserved : List (Nat × Nat)) : Nat → Nat → List (Nat × Nat) → List (Nat × Nat)
  | 0, _, acc => acc
  | k + 1, u, acc =>
    let free := reserved.all (fun x => decide (x.2 = 0) || decide (4096 * (u + 1) ≤ x.1) || decide (x.1 + x.2 ≤ 4096 * u))
    realmRanges reserved k (u + 1) (if !free then acc else match acc.getLast? with
      | some (a, n) => if a + n = u then acc.dropLast ++ [(a, n + 1)] else acc ++ [(u, 1)]
      | none => [(u, 1)])

def State.realmPart (s : State) (r l : Nat) : List (Nat × Nat) :=
  if s.clusterRealm l = some r then realmRanges (s.cluReserved (s.physCluster l)) 4096 0 [] else []

/-- Logical tiles of a cluster that the realm owns. -/
def State.ownTiles (s : State) (r l : Nat) : List Nat := ((List.range 16).map (16 * l + ·)).filter (fun lt => s.tileRealm lt == some r)

/-- A section of an image: its cluster, tiles, ranges and bytes (R344). -/
structure Section where
  clu : Nat
  mask : Nat
  pieces : List (Nat × Nat)
  deriving DecidableEq, Repr

def Section.tiles (x : Section) : List Nat := ((List.range 16).filter (bit x.mask)).map (16 * x.clu + ·)
def Section.units (x : Section) : Nat := (x.pieces.map (·.2)).sum
def Section.size (x : Section) : Nat := 4096 * x.units + 2 ^ 21 * x.tiles.length

def State.sectionsOf (s : State) (r mask : Nat) : List Section :=
  ((List.range 8).filter (bit mask)).map (fun l => ⟨l, ((s.ownTiles r l).map (fun lt => 2 ^ (lt % 16))).sum, s.realmPart r l⟩)

def State.sectionBytes (s : State) (x : Section) : List Nat :=
  (x.pieces.map (fun p => s.bytes (clusterBase (s.physCluster x.clu) + 4096 * p.1) (4096 * p.2))).flatten
    ++ (x.tiles.map (fun lt => s.bytes (tileBase (s.physTile lt)) (2 ^ 21))).flatten

/-- The SECTIONS records and the PIECES records, each of 128 bytes (log entry 21 for the widths of their fields). -/
def sectionRecords : Nat → List Section → List Nat
  | _, [] => []
  | off, x :: t =>
    leBytes 2 x.clu ++ leBytes 2 x.mask ++ leBytes 2 ((x.pieces.head?.map (·.1)).getD 0) ++ leBytes 2 x.units ++ leBytes 8 off
      ++ sectionRecords (off + x.size) t

def pieceRecords (l : List Section) : List Nat :=
  (l.map (fun x => ((List.range 4).map (fun i => leBytes 2 (x.pieces.getD i (0, 0)).1 ++ leBytes 2 (x.pieces.getD i (0, 0)).2)).flatten)).flatten

def padTo (n : Nat) (l : List Nat) : List Nat := l ++ List.replicate (n - l.length) 0

/-- Header bytes 0x000-0x0CF (R344). -/
def State.imageHead (s : State) (d : Desc) (j : Job) (next left : Nat) (sealed_ det : Bool) (secs : List Section) : List Nat :=
  [1, 1 + 2 * b2n sealed_ + 4 * b2n det, j.realm, d.byte 0x1C] ++ leBytes 4 d.tag ++ [j.ring, d.flags] ++ leBytes 2 (d.num 0x1E 2)
    ++ leBytes 4 next ++ leBytes 8 (d.num 0x20 8) ++ leBytes 8 (d.num 8 8) ++ leBytes 8 (d.num 0x10 8) ++ leBytes 4 (d.num 0x18 4)
    ++ leBytes 4 j.mode ++ leBytes 8 left ++ leBytes 8 (d.num 0x30 8) ++ leBytes 4 (s.word .GLB_FW_VER).toNat ++ leBytes 4 0
    ++ leBytes 8 (4096 + (secs.map Section.size).sum) ++ padTo 128 (sectionRecords 4096 secs)

/-- The sealing key of one image (R400). -/
def snapKey (slotKey head imageId : List Nat) : List Nat := hkdf (sha256 (head ++ imageId)) slotKey ("GYVIS-SNAP-1".toList.map Char.toNat) 32

/-- The whole image: header, digest or tag, and its sections, sealed when the target has a key. -/
def State.image (s : State) (d : Desc) (j : Job) (next left : Nat) (key : Option (List Nat)) (det : Bool) (secs : List Section) (imageId : List Nat) : List Nat :=
  let head := s.imageHead d j next left key.isSome det secs
  let body := (secs.map s.sectionBytes).flatten
  let x := match key with
    | some k => gcmSeal (snapKey k head imageId) (List.replicate 12 0) [] body
    | none => (body, List.replicate 16 0)
  padTo 4096 (head ++ (if key.isSome then List.replicate 32 0 else sha256 body) ++ x.2 ++ imageId ++ padTo 128 (pieceRecords secs)) ++ x.1

/-- The JOB that a SNAPSHOT names: the outstanding one of its realm fetched first (R183, R343). -/
def State.snapTarget (s : State) (r : Nat) (d : Desc) : Option Desc :=
  (s.ring r (d.byte 0x18)).descs.find? (fun e => e.ty == 1 && e.tag == d.num 0x1C 4)

def State.dropSnap (s : State) (uid : Nat) : State := s.onDet (fun x => { x with snaps := x.snaps.filter (fun y => y.uid != uid) })

/-- SNAPSHOT: it acts when it is fetched; from then on its target starts no further operator (R343, R345). -/
def execSnapshot (r n i : Nat) (s : State) : Res :=
  s.whenReady (fun s =>
    match (s.desc r n i).filter (fun d => d.ty == 0x0D && !d.acted && s.active r) with
    | none => s
    | some d =>
      let s := s.updDesc r n d.uid (fun d => { d with acted := true })
      let st := s.descCheck r n d
      if st ≠ stOk then s.done r n d.uid st
      else match s.snapTarget r d with
        | none => s.done r n d.uid stNotFound
        | some t =>
          if t.result.isSome || s.det.snaps.any (fun x => x.target == t.uid) || ((s.job t.uid).map (fun j => j.finished || j.ending.isSome)).getD false
            || (t.acted && (s.job t.uid).isNone) then s.done r n d.uid stSnapMissed
          else
            (s.updJob t.uid (fun j => { j with held := true })).onDet (fun x =>
              { x with snaps := x.snaps ++ [{ realm := r, ring := n, uid := d.uid, targetRing := d.byte 0x18, target := t.uid }] }))

/-- The first operator of a JOB that has not run. -/
def Job.nextOp (j : Job) : Nat := ((List.range j.nOps).find? (fun k => decide (j.first ≤ k) && (j.op k).st == .waiting)).getD j.nOps

/-- The JOB of a target, or what stands for one that has not started (R345). -/
def State.targetJob (s : State) (r n : Nat) (t : Desc) : Job :=
  match s.job t.uid with
  | some j => j
  | none => { realm := r, ring := n, mode := s.modeWord (s.flag .GLB_CFG_DET_MODE) (t.byte 0x1C), maxGt := t.num 0x28 8, start := s.gauge,
              det := s.flag .GLB_CFG_DET_MODE }

/-- The image of a target whose SNAPSHOT can be taken: its header goes out with the version byte not yet valid, and the image waits for its write (R343-R345, R400). -/
def State.snapImage (s : State) (r : Nat) (d t : Desc) (j : Job) (started : Bool) (secs : List Section) : State :=
  let q := s.drawRandom
  let left := if j.maxGt = 0 then 0 else max 1 (j.maxGt - (s.gauge - j.start))
  let key := if t.num 0x1E 2 = noKey then none else (s.keySlot r (t.num 0x1E 2)).map KeySlot.key
  let det := j.det && j.imageDet.getD true
  let next := if started then j.nextOp else 0
  let img := s.image t j next left key det secs (leBytes 16 q.1)
  let head := img.take 4096
  let s := q.2.store (hostBase + d.num 8 8) ([head.getD 0 0, head.getD 1 0 - 1] ++ head.drop 2)
  s.onDet (fun z => { z with snaps := z.snaps.map (fun y => if y.uid = d.uid then { y with image := some img, next := next } else y) })

/-- A SNAPSHOT at the boundary of its target. -/
def State.snapBoundary (s : State) (r n : Nat) (d : Desc) (x : Snap) : State :=
  match s.descUid r x.targetRing x.target with
  | none => (s.dropSnap d.uid).done r n d.uid stSnapMissed
  | some t =>
    let job := s.job x.target
    let j := s.targetJob r x.targetRing t
    if t.result.isSome || (t.acted && job.isNone) || j.finished || j.ending.isSome then (s.dropSnap d.uid).done r n d.uid stSnapMissed
    else if (List.range j.nOps).any (fun k => (j.op k).st == .running) then s
    else if job.isSome && j.nextOp == j.nOps then (s.dropSnap d.uid).done r n d.uid stSnapMissed
    else
      let secs := if job.isSome then s.sectionsOf r (t.byte 0x1C) else []
      if d.num 0x10 8 < 4096 + (secs.map Section.size).sum then
        (((s.updJob x.target (fun j => { j with held := false })).dropSnap d.uid)).done r n d.uid stSnapLimit
      else if t.num 0x1E 2 ≠ noKey ∧ !s.keyOk r 0 (t.num 0x1E 2) then
        (((if job.isSome then s.endJob x.target stKeySlot else s.finish r x.targetRing t.uid { status := stKeySlot })).dropSnap d.uid).done r n d.uid stSnapMissed
      else s.snapImage r d t j job.isSome secs

/-- The SNAPSHOT of a descriptor that still waits for its target's boundary. -/
def State.snapAt (s : State) (r n i : Nat) : Option (Desc × Snap) :=
  (s.desc r n i).bind (fun d => (s.det.snaps.find? (fun x => x.uid == d.uid && x.image.isNone)).map (fun x => (d, x)))

/-- SNAPSHOT_BOUNDARY: the target's running operators have all ended. The image write starts, or the SNAPSHOT fails: the target has
ended, its image would exceed LIMIT, or its key slot is gone (R343-R345, R396). -/
def execSnapshotBoundary (r n i : Nat) (s : State) : Res :=
  s.whenReady (fun s =>
    match s.snapAt r n i with
    | none => s
    | some (d, x) => s.snapBoundary r n d x)

/-- The image of a SNAPSHOT stands in host memory: its target completes with SNAPSHOTTED, then the SNAPSHOT with OK (R343). -/
def State.snapWritten (s : State) (r n : Nat) (d : Desc) (x : Snap) (img : List Nat) : State :=
  let s := (s.store (hostBase + d.num 8 8) img).dropSnap d.uid
  let s := match s.job x.target with
    | some j => ((s.jobEpoch j).dropJob x.target).finish r x.targetRing x.target { j.record with status := stSnapshotted, opIndex := x.next, digest := none }
    | none => s.finish r x.targetRing x.target { status := stSnapshotted, opIndex := x.next }
  let s := (s.setSts .DET_STS [2]).setWord .DET_PERF_SNAP 0 0 (s.word .DET_PERF_SNAP + 1)
  s.finish r n d.uid { status := stOk, result := img.length, digest := if bit d.flags 1 then some (sha256 img) else none, modeWord := s.modeNow }

/-- SNAPSHOT_IMAGE_WRITTEN. -/
def execSnapshotImageWritten (r n i : Nat) (s : State) : Res :=
  s.whenReady (fun s =>
    match (s.desc r n i).bind (fun d => (s.det.snaps.find? (fun x => x.uid == d.uid)).bind (fun x => x.image.map (fun m => (d, x, m)))) with
    | none => s
    | some (d, x, img) => s.snapWritten r n d x img)

/-! ### RESTORE (R346, R347) -/

/-- The sections that an image header records. -/
def parseSections (h : List Nat) : List (Section × Nat) :=
  ((List.range 8).map (fun i =>
    let b := (h.drop (0x50 + 16 * i)).take 16
    let p := (h.drop (0x110 + 16 * i)).take 16
    ((⟨fieldOf b 0 2, fieldOf b 2 2, ((List.range 4).map (fun k => (fieldOf p (4 * k) 2, fieldOf p (4 * k + 2) 2))).filter (fun x => x.2 != 0)⟩ : Section),
      fieldOf b 8 8))).filter (fun x => x.2 != 0)

/-- The checks of R346 in their order: OK with the plaintext of the sections, or the status of the first that fails. -/
def State.restoreCheck (s : State) (r : Nat) (d : Desc) : Nat × List Nat :=
  let n := d.num 0x10 8
  let img := s.bytes (hostBase + d.num 8 8) n
  let h := img.take 4096
  let fl := fieldOf h 1 1
  let slot := fieldOf h 0x0A 2
  let secs := parseSections h
  let tring := d.byte 0x18
  if n < 4096 ∨ fieldOf h 0 1 ≠ 1 ∨ !bit fl 0 ∨ 8 ≤ fl ∨ fieldOf h 0x44 4 ≠ 0 ∨ !(h.drop 0x190).all (· == 0) ∨ fieldOf h 0x48 8 ≠ n then (stSnapFormat, [])
  else
    let body := if bit fl 1 then
        ((s.keySlot r slot).filter (fun k => k.use == 0)).bind (fun k =>
          gcmOpen (snapKey k.key (h.take 0xD0) ((h.drop 0x100).take 16)) (List.replicate 12 0) [] (img.drop 4096) ((h.drop 0xF0).take 16))
      else if sha256 (img.drop 4096) = (h.drop 0xD0).take 32 ∧ s.keyOk r 0 slot then some (img.drop 4096)
      else none
    match body with
    | none => (stSnapSeal, [])
    | some b =>
      if fieldOf h 0x40 4 ≠ (s.word .GLB_FW_VER).toNat then (stSnapVersion, [])
      else if fieldOf h 2 1 ≠ r then (stSnapRealm, [])
      else if !secs.all (fun x => decide (x.1.clu < 8) && x.1.tiles.all (fun lt => s.tileRealm lt == some r) && (x.1.pieces == s.realmPart r x.1.clu || x.1.pieces.isEmpty)
          && decide (4096 ≤ x.2) && decide (x.2 + x.1.size ≤ n)) then (stDescAccess, [])
      else if !s.flag .RING_SIZE_ENABLE r tring || (s.recBytes r tring == 64 && bit (fieldOf h 9 1) 1) then (stSnapRing, [])
      else (stOk, b)

/-- Load the ranges of a cluster store from a section. -/
def State.loadPieces (s : State) (base : Nat) : List (Nat × Nat) → List Nat → State
  | [], _ => s
  | (a, n) :: t, b => (s.store (base + 4096 * a) (b.take (4096 * n))).loadPieces base t (b.drop (4096 * n))

def State.loadTiles (s : State) : List Nat → List Nat → State
  | [], _ => s
  | lt :: t, b => (s.store (tileBase (s.physTile lt)) (b.take (2 ^ 21))).loadTiles t (b.drop (2 ^ 21))

def State.loadSection (s : State) (x : Section) (b : List Nat) : State :=
  (s.loadPieces (clusterBase (s.physCluster x.clu)) x.pieces b).loadTiles x.tiles (b.drop (4096 * x.units))

/-- The JOB descriptor that an image stands for. -/
def imageJob (h : List Nat) : List Nat :=
  [1, fieldOf h 9 1, 0, 0] ++ (h.drop 4).take 4 ++ (h.drop 0x18).take 8 ++ (h.drop 0x20).take 8 ++ (h.drop 0x28).take 4 ++ [fieldOf h 3 1, 0]
    ++ (h.drop 0x0A).take 2 ++ (h.drop 0x10).take 8 ++ (h.drop 0x30).take 8 ++ (h.drop 0x38).take 8 ++ List.replicate 8 0

/-- Slots of JOBs that a RESTORE put on a ring: they take no submission slot. -/
def extraSlot (uid : Nat) : Nat := 2 ^ 15 + uid

/-- The descriptor of a restored JOB: it stands started and acted on the target ring, with a completion slot (R346). -/
def State.restoredDesc (s : State) (d : Desc) (h : List Nat) : Desc :=
  { uid := s.nextUid, slot := extraSlot s.nextUid, raw := imageJob h, started := some s.gauge, reserved := true, acted := true,
    det := s.flag .GLB_CFG_DET_MODE, ctl := d.ctl, fetchedAt := s.gauge, extra := true }

/-- The image is loaded: its sections go to their stores, its JOB joins the target ring, and the RESTORE completes (R346). -/
def State.restoreLoad (s : State) (r n : Nat) (d : Desc) (h body : List Nat) : State :=
  let m := d.byte 0x18
  let s := (parseSections h).foldl (fun s x => s.loadSection x.1 (body.drop (x.2 - 4096))) s
  let t := s.restoredDesc d h
  let s := { s with nextUid := s.nextUid + 1 }
  let s := s.setRing r m { s.ring r m with descs := (s.ring r m).descs ++ [t] }
  (s.setSts .DET_STS [3]).finish r n d.uid { status := stOk, result := fieldOf h 0x0C 4, digest := if bit d.flags 1 then some (sha256 (s.bytes (hostBase + d.num 8 8) (d.num 0x10 8))) else none, modeWord := s.modeNow }

/-- The restored JOB runs on at NEXT_OP, or completes with the check of a JOB that fails (R346, R347). -/
def State.restoreRun (s : State) (r m : Nat) (t : Desc) (h : List Nat) : State :=
  let x := s.jobCheck r t
  if x.1 ≠ stOk then s.done r m t.uid x.1
  else
    let imgDet := bit (fieldOf h 1 1) 2
    let s := s.beginJob r m t x.2 (fieldOf h 0x0C 4) (fieldOf h 0x30 8) (some imgDet)
    (s.updDesc r m t.uid (fun e => { e with det := t.det && imgDet })).jobOver t.uid

/-- RESTORE: the image is checked and loaded, and its JOB runs on at NEXT_OP on TARGET_RING once a completion slot is free there (R346). -/
def execRestore (r n i : Nat) (s : State) : Res :=
  s.whenReady (fun s =>
    match s.starting r n i 0x0E with
    | none => s
    | some d =>
      let c := s.restoreCheck r d
      if c.1 ≠ stOk then (s.updDesc r n d.uid (fun d => { d with acted := true })).done r n d.uid c.1
      else if s.cqFree r (d.byte 0x18) = 0 then s
      else
        let h := s.bytes (hostBase + d.num 8 8) 4096
        ((s.updDesc r n d.uid (fun d => { d with acted := true })).restoreLoad r n d h c.2).restoreRun r (d.byte 0x18) (s.restoredDesc d h) h)

/-! ### Swatch runs (R349-R353) -/

/-- DET_SWATCH_CFG as a SWATCH_BEGIN samples it: limits in gt; 0 reads as 1 (R349, R357). -/
def State.swWait (s : State) : Nat := max 1 (s.fld .DET_SWATCH_CFG_WAIT) * 32000000
def State.swAge (s : State) : Nat := max 1 (s.fld .DET_SWATCH_CFG_AGE) * 320000000

/-- What a SWATCH_BEGIN does when it starts: a swatch begins its handshake with the peer; a second one is refused (R349). -/
def State.swatchBegin (s : State) (r n : Nat) (d : Desc) : State :=
  if ((s.det.swatch).map (fun w => w.phase != .ended)).getD false then s.done r n d.uid stSwatchBusy
  else
    let w : Swatch := { realm := r, id := d.num 0x0C 4, peer := d.byte 8, role := d.byte 9, steps := d.num 0x10 4, desc := some (n, d.uid),
                        wait := s.swWait, age := s.swAge, unmatchedMax := s.fld .DET_SWATCH_CFG_UNMATCHED_MAX, lastMsg := s.gauge }
    let s := ((((s.setWord .DET_SWATCH_CNT 0 0 0).setWord .DET_SWATCH_ERR 0 0 0).setWord .DET_SWATCH_TAG 0 0 0).setWord .DET_SWATCH_INFO 0 0 0)
    ((s.setSwatch (some w)).swatchShow).swatchSend w (w.hello s false)

/-- SWATCH_BEGIN. -/
def execSwatchBegin (r n i : Nat) (s : State) : Res := s.whenReady (fun s => s.onDesc r n i 0x0F (fun d s => s.swatchBegin r n d))

/-- RESULT of a SWATCH_END (R353). -/
def State.swatchResult (s : State) (v : Nat) : Nat :=
  (s.word .DET_SWATCH_CNT).toNat + v % 16 * 2 ^ 32 + s.fld .DET_SWATCH_ERR_UNMATCHED * 2 ^ 40

/-- The SWATCH_END that waits completes with the verdict. -/
def State.swatchFinish (s : State) (w : Swatch) (v : Nat) : State :=
  let s := (s.setSwatch (some { w with phase := .ended, verdict := v, desc := none, queue := [], table := [] })).swatchShow
  match w.desc with
  | some (n, uid) => s.finish w.realm n uid { status := if v = vPass then stOk else stSwatchFail, result := s.swatchResult v }
  | none => s

/-- The verdict of a shadow at the end (R353). -/
def State.finalVerdict (s : State) (w : Swatch) : Nat :=
  if w.verdict ≠ vRunning then w.verdict
  else if w.unmatchedMax < s.fld .DET_SWATCH_ERR_UNMATCHED then vUnmatched else vIncomplete

/-- The end of a swatch on this module: the shadow settles the verdict and sends it; the reference asks for it (R353). -/
def State.swatchEnd (s : State) (w : Swatch) : State :=
  if w.role = 0 then
    let v := s.finalVerdict w
    let s := if w.verdict = vRunning then s.verdict w v else s
    let w := { w with verdict := v }
    (s.swatchSend w (w.verdictMsg s)).swatchFinish w v
  else (s.setSwatch (some { w with lastMsg := s.gauge })).swatchSend w w.endMsg

/-- SWATCH_END: it ends the swatch with the matching SWATCH_ID; one that matches none completes with NOT_FOUND (R353). -/
def execSwatchEnd (r n i : Nat) (s : State) : Res :=
  s.whenReady (fun s => s.onDesc r n i 0x10 (fun d s =>
    match s.det.swatch.filter (fun w => w.id == d.num 0x0C 4 && w.realm == r && w.phase != .handshake && w.desc.isNone) with
    | none => s.done r n d.uid stNotFound
    | some w =>
      if w.phase = .ended then s.swatchFinish { w with desc := some (n, d.uid) } w.verdict
      else s.swatchEnd { w with desc := some (n, d.uid) }))

/-- SWATCH_ABORT: a running swatch ends as by SWATCH_END; firmware only (R353). -/
def State.swatchAbort (s : State) : State :=
  match s.det.swatch.filter (fun w => w.phase != .ended) with
  | none => s
  | some w =>
    if w.phase = .handshake then
      match w.desc with
      | some (n, uid) => ((s.setSwatch none).swatchShow).done w.realm n uid stSwatchPeer
      | none => s
    else s.swatchEnd w

def execSwatchAbort (w : Win) (s : State) : Res := s.fwCommand w .DET_CMD 0 4 State.swatchAbort

/-- A message taken from the Stave chain: the first received of a kind. -/
def State.takeMsg (s : State) (kind : Nat) : Option (StvMsg × State) :=
  (s.stave.rx.find? (fun m => m.kind == kind)).map (fun m => (m, s.onStave (fun v => { v with rx := v.rx.erase m })))

/-- A handshake message (R349): it matches when it comes from the peer, names the same swatch and realm, and holds the other role. -/
def State.swatchHello (s : State) (w : Swatch) (p : List Nat) : State :=
  if w.phase ≠ .handshake ∨ fieldOf p 1 1 ≠ w.realm ∨ fieldOf p 2 1 = w.role then s
  else
    let s := if fieldOf p 3 1 = 0 then s.swatchSend w (w.hello s true) else s
    let ok := fieldOf p 8 4 == (s.word .GLB_FW_VER).toNat && fieldOf p 12 4 == s.modeNow && bit s.modeNow 0
    match w.desc with
    | none => s
    | some (n, uid) =>
      if ok then
        ((s.setSwatch (some { w with phase := .running, desc := none, lastMsg := s.gauge })).swatchShow).done w.realm n uid stOk
      else ((s.setSwatch none).swatchShow).done w.realm n uid stSwatchConfig

/-- SWATCH: a message of handshake, unit, verdict or end arrives from the peer (R349-R353). -/
def execSwatch (s : State) : Res :=
  s.whenReady (fun s =>
    match s.takeMsg 2 with
    | none => s
    | some (m, s) =>
      let p := m.payload
      match s.det.swatch.filter (fun w => w.peer == m.src && w.id == fieldOf p 4 4 && w.phase != .ended) with
      | none => s
      | some w =>
        let w := { w with lastMsg := s.gauge }
        let s := s.setSwatch (some w)
        match fieldOf p 0 1 with
        | 0 => s.swatchHello w p
        | 1 => if w.phase = .running ∧ w.role = 0 ∧ w.verdict = vRunning then
            s.swatchMatch w ⟨fieldOf p 1 1, fieldOf p 2 1, fieldOf p 8 4, (p.drop 12).take 32⟩ true else s
        | 2 => if w.phase = .running ∧ w.role = 1 then
            let s := (s.setWord .DET_SWATCH_CNT 0 0 (BitVec.ofNat 32 (fieldOf p 8 4))).setFld .DET_SWATCH_ERR_UNMATCHED (fieldOf p 12 4)
            let v := fieldOf p 1 1
            (s.verdict w v).swatchFinish { w with verdict := v } v else s
        | 3 => if w.phase = .running ∧ w.role = 0 then s.swatchEnd w else s
        | _ => s)

/-- SWATCH_UNIT_AGE: the oldest unit of the match table has stood alone for AGE (R351). -/
def execSwatchUnitAge (s : State) : Res :=
  s.whenReady (fun s =>
    match s.det.swatch with
    | none => s
    | some w =>
      match w.table with
      | [] => s
      | e :: t =>
        if w.phase ≠ .running ∨ w.verdict ≠ vRunning then s
        else (({ s with gauge := max s.gauge (e.since + w.age) }).setSwatch (some { w with table := t })).unmatched)

/-- The peer of a swatch is taken as silent (R349, R352, R353, R436). -/
def State.peerSilent (s : State) (w : Swatch) : State :=
  match w.phase with
  | .handshake =>
    match w.desc with
    | some (n, uid) => ((s.setSwatch none).swatchShow).done w.realm n uid stSwatchPeer
    | none => s
  | .running =>
    if w.role = 0 then (if w.verdict = vRunning then s.verdict w vPeer else s)
    else if w.desc.isSome then (s.verdict w vPeer).swatchFinish { w with verdict := vPeer } vPeer else s
  | .ended => s

/-- SWATCH_PEER_SILENCE: no swatch message has come from the peer for WAIT. -/
def execSwatchPeerSilence (s : State) : Res :=
  s.whenReady (fun s =>
    match s.det.swatch with
    | none => s
    | some w => if w.phase = .ended then s else ({ s with gauge := max s.gauge (w.lastMsg + w.wait) } : State).peerSilent w)

end Sys2Proof.Machine
end

