-- ==== Sys2Proof/Machine/Serve.lean ====
section
/-! DEFINITION. The serving engine: requests, admission, steps, sampling, accounts, prefixes, models (R220-R263). -/

namespace Sys2Proof.Machine

/-! ### Statuses (R260) -/

def stSrvNoSlot : Nat := 0x40
def stSrvNoPool : Nat := 0x41
def stSrvClosed : Nat := 0x42
def stSrvAccount : Nat := 0x43
def stSeqLimit : Nat := 0x44
def stModelAbsent : Nat := 0x45
def stModelEvicting : Nat := 0x46
def stModelBusy : Nat := 0x47
def stModelNoSpace : Nat := 0x48
def stModelSeal : Nat := 0x49
def stPrefixUnknown : Nat := 0x4A
def stPrefixExists : Nat := 0x4B
def stDeadlineDrop : Nat := 0x4C
def stSrvFault : Nat := 0x4D
def stSrvReclaim : Nat := 0x4E

/-! ### Tables -/

def State.req (s : State) (slot : Nat) : Option SrvReq := Tab.find slot s.srv.reqs
def State.setReq (s : State) (slot : Nat) (q : SrvReq) : State := s.onSrv (fun v => { v with reqs := Tab.put slot q v.reqs })
def State.updReq (s : State) (slot : Nat) (f : SrvReq → SrvReq) : State := s.onSrv (fun v => { v with reqs := Tab.upd slot f v.reqs })
def State.setModel (s : State) (m : Nat) (x : Model) : State := s.onSrv (fun v => { v with models := Tab.set (fun _ => {}) m x v.models })
def State.level (s : State) (a : Nat) : Int := Tab.get (fun _ => 0) s.srv.levels a
def State.setLevel (s : State) (a : Nat) (l : Int) : State := s.onSrv (fun v => { v with levels := Tab.set (fun _ => 0) a l v.levels })
def SrvReq.live (q : SrvReq) : Bool := q.st != .ended
def SrvReq.spec (q : SrvReq) : Bool := bit q.rqFlags 0

/-- Slots a realm holds: those that are not FREE (R247). -/
def State.slotsHeld (s : State) (r : Nat) : Nat := (s.srv.reqs.filter (fun e => e.2.realm == r)).length

/-- Live requests of a model. -/
def State.modelLive (s : State) (m : Nat) : Nat := (s.srv.reqs.filter (fun e => e.2.model == m && e.2.live)).length

def State.srvSts (s : State) (b : Nat) : State := s.setSts .SRV_STS [b]

/-- A SERVING event (R261). -/
def State.srvEvent (s : State) (code r payload : Nat) : State := s.emit 13 0x30 code r payload

def SrvReq.flags (q : SrvReq) : Nat := b2n (q.st == .ended) + 2 * b2n q.late + 4 * b2n q.cancelLate

/-! ### Delivery (R225, R233) -/

def floor32 (n : Nat) : Nat := n / 32 * 32

/-- The end record of a request. -/
def SrvReq.endRecord (q : SrvReq) (slot : Nat) : List Nat :=
  leBytes 4 (q.flags + q.status % 256 * 2 ^ 8 + q.reason % 256 * 2 ^ 16) ++ leBytes 4 q.tokens.length ++ leBytes 4 q.tag
  ++ leBytes 4 (slot % 2 ^ 16 + q.gen % 2 ^ 16 * 2 ^ 16) ++ leBytes 8 (floor32 q.tAdmit) ++ leBytes 8 (floor32 q.tFirst) ++ leBytes 8 (floor32 q.tEnd)
  ++ leBytes 4 (satAt 0xFFFFFFFF q.tbtMax) ++ leBytes 4 (satAt 0xFFFFFFFF q.tbtMiss) ++ leBytes 4 (satAt 0xFFFFFFFF q.pauses)
  ++ leBytes 4 q.prefixN ++ leBytes 4 (satAt 0xFFFFFFFF q.steps) ++ leBytes 4 0

/-- DELIVER for one request: new tokens, then its end record; the REQUEST_END event once it has ended (R225, R261). -/
def State.deliver (s : State) (slot : Nat) : State :=
  match s.req slot with
  | none => s
  | some q =>
    if q.endWritten then s
    else
      let s := s.store (hostBase + q.out + 0x40 + 4 * q.written) (((q.tokens.drop q.written).map (leBytes 4)).flatten)
      let s := s.store (hostBase + q.out) (q.endRecord slot)
      let s := s.setReq slot { q with written := q.tokens.length, endWritten := q.st == .ended }
      if q.st = .ended ∧ bit q.rqFlags 1 then
        s.srvEvent 1 q.realm (q.tag + q.ring % 64 * 2 ^ 32 + q.status % 256 * 2 ^ 40 + q.flags * 2 ^ 48 + slot % 2 ^ 16 * 2 ^ 64 + q.tokens.length % 2 ^ 32 * 2 ^ 80)
      else s

/-- Descriptors of PREFIX_REGISTER that wait for a request that has ended (R251). -/
def State.dropWaits (s : State) (slot : Nat) : State :=
  let ws := s.srv.waits.filter (fun w => w.slot == slot)
  let s := s.onSrv (fun v => { v with waits := v.waits.filter (fun w => w.slot != slot) })
  ws.foldl (fun s w => s.done w.realm w.ring w.uid stNotFound) s

/-- A request becomes ENDED: its skein is freed at once (R243, R246). -/
def State.markEnded (s : State) (slot status reason : Nat) : State :=
  match s.req slot with
  | none => s
  | some q =>
    if q.st = .ended then s
    else
      let s := s.freeSkein q.root
      let s := if status = stOk ∧ reason ≤ 1 then s.swatchUnit q.realm (requestUnit q.ring q.tag q.model q.tokens) else s
      (s.setReq slot { q with st := .ended, status := status, reason := reason, tEnd := s.gauge, verdict := none }).dropWaits slot

/-- A request ends out of a commit point: its end record is written at once. -/
def State.endRequest (s : State) (slot status reason : Nat) : State := (s.markEnded slot status reason).deliver slot

/-- A deadline that has passed (R244). -/
def SrvReq.isLate (q : SrvReq) (now : Nat) : Bool := q.deadline != 0 && decide (q.deadline ≤ now)

/-! ### Pools (R248, R249) -/

/-- Granules of the private frames that a skein adds to reach a length: its further pages, and the copy of a SHARED page it writes. -/
def State.needGran (s : State) (prof : Nat) (have_ want : Nat) : Nat :=
  ((List.range (want - have_)).map (fun i => s.frameGran prof (s.pageTokens prof (have_ + i)))).sum

/-- The page of a prefix of `n` tokens that its last rows fill in part, as granules of its private copy. -/
def State.copyGran (s : State) (prof n : Nat) : Nat :=
  let c := s.pageCount prof n
  let full := ((List.range c).map (s.pageTokens prof)).sum
  if n = 0 ∨ full = n then 0 else s.frameGran prof (s.pageTokens prof (c - 1))

/-- What a live request's skein still needs (R248). -/
def State.remainNeed (s : State) (q : SrvReq) : Nat :=
  match s.kvm.skein q.root with
  | none => 0
  | some k =>
    let ps := s.kvm.pages q.root
    let shared := (ps.getLast?.map (fun y => (s.kvm.ent y.1).shared && decide (k.len < y.2 + 16 * 2 ^ (s.kvm.ent y.1).sizeLog))).getD false
    s.needGran k.prof ps.length (s.pageCount k.prof (q.prefixN + q.prompt.length + q.maxNew))
      + (if shared then s.frameGran k.prof (s.pageTokens k.prof (ps.length - 1)) else 0)

/-- The oldest of some requests. -/
def oldest (l : List (Nat × SrvReq)) : Option (Nat × SrvReq) :=
  l.foldl (fun m e => match m with
    | none => some e
    | some f => if e.2.order < f.2.order then some e else some f) none

/-- The anchor of a realm: its oldest live request (R248). -/
def State.anchor (s : State) (r : Nat) : Option (Nat × SrvReq) := oldest (s.srv.reqs.filter (fun e => e.2.realm == r && e.2.live))

def State.anchorNeed (s : State) (r : Nat) : Nat := match s.anchor r with
  | some e => s.remainNeed e.2
  | none => 0

/-! ### Admission (R221-R224, R247, R248) -/

/-- A parsed request block (R222). -/
structure ReqBlock where
  ok : Bool
  sample : Nat
  topK : Nat
  temp : Nat
  topP : Nat
  ttft : Nat
  tbt : Nat
  stops : List Nat
  deriving DecidableEq, Repr

def parseReqBlock (b : List Nat) : ReqBlock :=
  let n := fieldOf b 0x14 1
  let temp := fieldOf b 4 4
  let topP := fieldOf b 8 4
  let stops := (List.range 8).map (fun k => fieldOf b (0x18 + 4 * k) 4)
  { ok := fieldOf b 0 1 == 1 && decide (fieldOf b 1 1 ≤ 1) && decide (fieldOf b 2 2 ≤ 2048)
      && (temp == 0 || (decide (2 ^ 23 ≤ temp) && decide (temp < f32Inf)))
      && decide (1 ≤ topP) && decide (topP ≤ f32One)
      && decide (n ≤ 8) && fieldOf b 0x15 3 == 0 && (stops.drop n).all (· == 0) && fieldOf b 0x38 8 == 0
    sample := fieldOf b 1 1, topK := if fieldOf b 2 2 = 0 then 2048 else fieldOf b 2 2, temp := temp, topP := topP,
    ttft := fieldOf b 0x0C 4, tbt := fieldOf b 0x10 4, stops := stops.take n }

/-- The slot rule (R247). -/
def State.slotGranted (s : State) (r : Nat) : Bool :=
  let held := s.slotsHeld r
  let free := 65536 - s.srv.reqs.length
  let short := (((List.range 4).filter (· != r)).map (fun q => s.fld .SRV_RLM_SLOTS_MIN 0 q - s.slotsHeld q)).sum
  decide (1 ≤ free) && (decide (held < s.fld .SRV_RLM_SLOTS_MIN 0 r) || (decide (held < s.fld .SRV_RLM_SLOTS_MAX 0 r) && decide (short ≤ free - 1)))

/-- The pool rules (R248), for a request with a prefix of `pn` tokens and `own` entries, a prompt and MAX_NEW. -/
def State.poolGranted (s : State) (r prof pn own prompt maxNew : Nat) : Bool :=
  let gs := s.frameGran prof (s.profStage prof)
  let create := gs + (if pn = 0 then s.frameGran prof (s.pageTokens prof 0) else 0)
  let have_ := if pn = 0 then 1 else own
  let more := fun (len : Nat) => s.needGran prof have_ (s.pageCount prof len) + (if pn < len then s.copyGran prof pn else 0)
  let total := pn + prompt + maxNew
  decide (create + more total ≤ s.poolSize r - s.reserve r)
  && decide (create + more (pn + prompt) + s.anchorNeed r + s.reserve r ≤ s.freeGran r)
  && s.grants r (max have_ (s.pageCount prof total)) && decide (s.kvm.skeins.length < 65536)

/-- The checks of R224 from 2 on, in order; OK admits. -/
def State.admitCheck (s : State) (r : Nat) (d : Desc) (b : ReqBlock) : Nat :=
  let acc := d.num 0x0A 2
  let m := s.srv.model (d.num 8 2)
  let handle := d.num 0x10 8
  let pre := s.kvm.prefixOf r handle
  let pn := (pre.map (fun p => p.2.n)).getD 0
  if !s.flag .SRV_CTRL_ADMIT_EN then stSrvClosed
  else if !s.flag .SRV_ACC_CFG_ENABLE 0 acc || !s.flag .SRV_ACC_RATE_ASSIGNED 0 acc || s.fld .SRV_ACC_CFG_REALM 0 acc != r then stSrvAccount
  else if m.st = .absent ∨ m.realm ≠ r then stModelAbsent
  else if m.st = .evicting then stModelEvicting
  else if !b.ok || (bit (d.byte 0x0D) 0 && !m.draft) then stDescFormat
  else if handle ≠ 0 ∧ pre.isNone then stPrefixUnknown
  else if (match pre with
    | some p => handle != 0 && (Tab.find p.1 s.srv.prefixModel != some (d.num 8 2) || p.2.prof != m.profile)
    | none => false) then stPrefixProfile
  else if 524288 < pn + d.num 0x20 4 + d.num 0x24 4 then stSeqLimit
  else if !s.slotGranted r then stSrvNoSlot
  else if !s.poolGranted r m.profile pn ((pre.map (fun p => (s.kvm.pages p.2.first).length)).getD 0) (d.num 0x20 4) (d.num 0x24 4) then stSrvNoPool
  else stOk

/-- A refusal is counted, and a refused slot or pool sets its status bit. -/
def State.refuseReq (s : State) (r n uid st : Nat) : State :=
  let s := s.bumpWrap .SRV_PERF_REFUSE_COUNT 1
  let s := if st = stSrvNoSlot then s.srvSts 0 else if st = stSrvNoPool then s.srvSts 1 else s
  s.done r n uid st

/-- A request block's request, as it is when it is admitted with its skein (R223, R246). -/
def SrvReq.admitted (s : State) (r n : Nat) (d : Desc) (b : ReqBlock) (root pre gen : Nat) : SrvReq :=
  { st := if (s.srv.model (d.num 8 2)).st = .loading then .waitModel else .ready, realm := r, ring := n, tag := d.tag, order := d.uid, gen := gen,
    account := d.num 0x0A 2, model := d.num 8 2, prio := d.byte 0x0C, rqFlags := d.byte 0x0D, prefixN := pre,
    prompt := unpack 32 (d.num 0x20 4) (s.bytes (hostBase + d.num 0x18 8 + 0x40) (4 * d.num 0x20 4)), maxNew := d.num 0x24 4, deadline := d.num 0x28 8,
    out := d.num 0x30 8, seed := d.num 0x38 8, sample := b.sample, topK := b.topK, temp := b.temp, topP := b.topP, ttft := b.ttft, tbt := b.tbt,
    stops := b.stops, root := root, tAdmit := s.gauge }

/-- The skein of a request that is admitted: on its prefix, or empty (R223). -/
def State.requestSkein (s : State) (r : Nat) (d : Desc) : Nat × Nat × State :=
  match if d.num 0x10 8 = 0 then none else s.kvm.prefixOf r (d.num 0x10 8) with
  | some p => s.newSkeinOn r (s.srv.model (d.num 8 2)).profile p.2
  | none => s.newSkein r (s.srv.model (d.num 8 2)).profile

/-- A request with its skein takes its slot, promises its pages, and its descriptor completes with the slot. -/
def State.admitReq (s : State) (r n : Nat) (d : Desc) (b : ReqBlock) (root : Nat) (s1 : State) : State :=
  let slot := (Tab.freeKey s1.srv.reqs 65536 0).getD 0
  let gen := Tab.get (fun _ => 0) s1.srv.gens slot
  let pre := ((s1.kvm.skein root).map (fun k => k.len)).getD 0
  let total := s1.pageCount (s.srv.model (d.num 8 2)).profile (pre + d.num 0x20 4 + d.num 0x24 4)
  let s2 := s1.onKvm (fun k => match k.skein root with
    | some q => k.setSkein root { q with promise := total }
    | none => k)
  (s2.setReq slot (SrvReq.admitted s r n d b root pre gen)).finish r n d.uid { status := stOk, result := slot + gen * 2 ^ 16 }

/-- What a SERVE_REQUEST does when it starts: `err` when the read of its block returns an error (R223, R224). -/
def State.serveRequest (s : State) (r n : Nat) (d : Desc) (err : Bool) : State :=
  let b := parseReqBlock (s.bytes (hostBase + d.num 0x18 8) 64)
  let st := if err then stDescAccess else s.admitCheck r d b
  if st ≠ stOk then s.refuseReq r n d.uid st
  else
    let k := s.requestSkein r d
    if k.2.1 = 0 then s.admitReq r n d b k.1 k.2.2 else k.2.2.refuseReq r n d.uid stSrvNoPool

/-- SERVE_REQUEST: the request is admitted or refused. -/
def execServeRequest (r n i : Nat) (err : Bool) (s : State) : Res :=
  s.whenReady (fun s => if s.gated gServing then s else s.onDesc r n i 4 (fun d s => s.serveRequest r n d err))

/-! ### SELECT and PLACE (R226-R230, R236-R240, R249) -/

def State.maxSeqs (s : State) : Nat :=
  let v := s.fld .SRV_STEP_MAX_SEQS
  if v = 0 ∨ 2048 < v then 2048 else v

def State.maxTokens (s : State) : Nat :=
  let v := s.fld .SRV_STEP_MAX_TOKENS
  if v = 0 ∨ 16384 < v then 16384 else v

def State.maxChunk (s : State) : Nat :=
  let v := s.fld .SRV_STEP_CHUNK_MAX_CHUNK
  if v = 0 ∨ 2048 < v then 2048 else v

/-- Tokens a request would process in this step (R230, R252). -/
def State.stepTokens (s : State) (q : SrvReq) : Nat :=
  if q.done < q.prompt.length then
    min (q.prompt.length - q.done) (min (((s.kvm.skein q.root).map (fun k => s.profStage k.prof)).getD 1) s.maxChunk)
  else if q.spec then max 1 q.tree.length else 1

/-- Granules that a request's step adds to its skein (R249). -/
def State.growth (s : State) (q : SrvReq) (n : Nat) : Nat :=
  match s.kvm.skein q.root with
  | none => 0
  | some k =>
    let ps := s.kvm.pages q.root
    let cow := (ps.filter (fun y => decide (k.len < y.2 + 16 * 2 ^ (s.kvm.ent y.1).sizeLog) && (s.kvm.ent y.1).shared)).map
      (fun y => s.frameGran k.prof (16 * 2 ^ (s.kvm.ent y.1).sizeLog))
    s.needGran k.prof ps.length (s.pageCount k.prof (k.len + n)) + cow.sum

def State.pausedMark (s : State) (root : Nat) (b : Bool) : State :=
  s.onKvm (fun k => match k.skein root with
    | some q => k.setSkein root { q with paused := b }
    | none => k)

/-- A request that SELECT does not place is PAUSED (R237, R238). -/
def State.pause (s : State) (slot : Nat) (q : SrvReq) (reason : Nat) : State :=
  ((s.setReq slot { q with st := .paused reason, pauses := q.pauses + 1 }).pausedMark q.root true).bumpWrap .SRV_PERF_PAUSE_COUNT 1

/-- Microseconds of a number of gt. -/
def usOf (gt : Nat) : Nat := gt / 320

/-- A TTFT miss is reported once (R240). -/
def State.ttftTest (s : State) (slot : Nat) : State :=
  match s.req slot with
  | none => s
  | some q =>
    let t := (if q.tFirst = 0 then s.gauge else q.tFirst) - q.tAdmit
    if q.live && q.ttft != 0 && !q.ttftSent && decide (q.ttft * 320 < t) then
      let s := s.setReq slot { q with ttftSent := true }
      if s.flag .SRV_CTRL_TRACK_EVT && bit q.rqFlags 2 then
        s.srvEvent 2 q.realm (q.tag + q.ring % 64 * 2 ^ 32 + slot % 2 ^ 16 * 2 ^ 64 + usOf t % 2 ^ 32 * 2 ^ 80)
      else s
    else s

/-- PLACE: STAGED is set and the skein hinted for prefetch (R146, R159, R226). -/
def State.placeReq (s : State) (slot : Nat) (q : SrvReq) (n : Nat) : State :=
  let s := s.setReq slot { q with st := .inStep, stepN := n, chosen := [], verdict := none, accCfg := (s.word .SRV_ACC_CFG 0 q.account).toNat }
  let s := s.onKvm (fun k => match k.skein q.root with
    | some x => k.setSkein q.root { x with staged := n, paused := false }
    | none => k)
  s.prefetch q.root []

/-- The loop of R229 over the requests in order: sequences, tokens, granules the placed ones will add, and the slots placed. -/
def State.selectLoop (s : State) (r : Nat) : List Nat → Nat → Nat → Nat → List Nat → List Nat × State
  | [], _, _, _, acc => (acc, s)
  | slot :: t, seqs, toks, grown, acc =>
    match s.req slot with
    | none => s.selectLoop r t seqs toks grown acc
    | some q =>
      let n := s.stepTokens q
      if !s.flag .SRV_ACC_CFG_ENABLE 0 q.account || s.level q.account ≤ 0 then (s.pause slot q 1).selectLoop r t seqs toks grown acc
      else if seqs = s.maxSeqs ∨ s.maxTokens < toks + n then (s.pause slot q 0).selectLoop r t seqs toks grown acc
      else
        let g := s.growth q n
        let isAnchor := (s.anchor r).map (·.1) == some slot
        if !isAnchor && decide (s.freeGran r < grown + g + s.anchorNeed r) then (s.pause slot q 2).selectLoop r t seqs toks grown acc
        else (s.placeReq slot q n).selectLoop r t (seqs + 1) (toks + n) (grown + g) (acc ++ [slot])

/-- Order of R229: class, then admission. -/
def reqBefore (a b : Nat × SrvReq) : Bool :=
  if a.2.prio != b.2.prio then decide (a.2.prio < b.2.prio) else decide (a.2.order ≤ b.2.order)

def SrvReq.waiting (q : SrvReq) : Bool := match q.st with
  | .ready => true
  | .paused _ => true
  | _ => false

/-- Can spilling free granules of a realm's pool (R155, R249): is there a tier with room for a frame? -/
def State.spillOpen (s : State) (r : Nat) : Bool := s.flag .KVM_CTRL_SPILL_EN && (s.spillTo r 1).isSome

/-- RECLAIM: NOPAGE-paused requests end, youngest first, until the free granules reach the anchor's need (R249). -/
def State.reclaimReqs (s : State) (r : Nat) : Nat → State
  | 0 => s
  | n + 1 =>
    if s.spillOpen r || decide (s.anchorNeed r ≤ s.freeGran r) then s
    else
      let anchor := (s.anchor r).map (·.1)
      match (s.srv.reqs.filter (fun e => e.2.realm == r && e.2.st == .paused 2 && some e.1 != anchor)).foldl (fun (m : Option (Nat × SrvReq)) e => match m with
        | none => some e
        | some f => if f.2.order < e.2.order then some e else some f) none with
      | none => s
      | some e =>
        let s := (s.endRequest e.1 stSrvReclaim 5).onKvm (fun k => (k.ents.map (·.1)).foldl Kvm.reclaim k)
        ((s.srvSts 4).srvEvent 6 r (e.2.tag + e.2.ring % 64 * 2 ^ 32 + e.1 % 2 ^ 16 * 2 ^ 64)).reclaimReqs r n

/-- May a step of a realm start (R226, R227)? -/
def State.stepOpen (s : State) (r : Nat) : Bool :=
  s.active r && s.flag .SRV_CTRL_ENABLE && (Tab.find r s.srv.steps).isNone && !s.gated gServing && !s.flt.failed

/-- A realm's requests that a step may take. -/
def State.waitingReqs (s : State) (r : Nat) : List (Nat × SrvReq) := s.srv.reqs.filter (fun e => e.2.realm == r && e.2.waiting)

/-- The slots of one model among requests in order. -/
def slotsOf (l : List (Nat × SrvReq)) (m : Nat) : List Nat := (l.filter (fun e => e.2.model == m)).map (·.1)

/-- The step starts with the slots that were placed, and samples DET_MODE and SRV_CTRL. -/
def State.startStep (s : State) (r m : Nat) (slots : List Nat) : State :=
  if slots.isEmpty then s
  else s.onSrv (fun v => { v with steps := Tab.put r { model := m, slots := slots, det := s.flag .GLB_CFG_DET_MODE, ctl := (s.word .SRV_CTRL).toNat } v.steps })

/-- SELECT: a step of a realm chooses the model of its first request and places that model's requests (R227-R230, R236-R240, R249). -/
def execSelect (r : Nat) (s : State) : Res :=
  s.whenRunning (fun s =>
    if !s.stepOpen r then s
    else
      let mine := stableSort reqBefore (s.waitingReqs r)
      let s := (s.waitingReqs r).foldl (fun s e => s.ttftTest e.1) s
      match mine.head? with
      | none => s
      | some h =>
        let x := s.selectLoop r (slotsOf mine h.2.model) 0 0 0 []
        (x.2.reclaimReqs r x.2.srv.reqs.length).startStep r h.2.model x.1)

/-! ### SAMPLE and COMMIT (R226, R232-R234, R244, R252-R254) -/

/-- Ranks of the largest logits by R78. -/
def rankLogits (l : List Nat) : List (El × Nat) := stableSort (topkBefore 0x0D false) ((l.map (fun c => (⟨c, false⟩ : El))).zipIdx)

/-- Running FP32 sums in rank order. -/
def runningSums : Nat → List Nat → List Nat
  | _, [] => []
  | acc, w :: t => f32Add acc w :: runningSums (f32Add acc w) t

/-- The token chosen for a position (R232): `g` the generator output. -/
def SrvReq.choose (q : SrvReq) (l : List Nat) (pos : Nat) : Nat :=
  let ranks := rankLogits l
  let top := (ranks.headD (⟨0, false⟩, 0)).2
  if q.sample = 0 ∨ q.temp = 0 then top
  else
    let ks := ranks.take q.topK
    let zmax := (ks.headD (⟨0, false⟩, 0)).1.code
    let ws := ks.map (fun y => f32Exp2 (f32Mul (f32Div (f32Sub y.1.code zmax) q.temp) f32Log2e))
    let lim := f32Mul q.topP (f32Sum ws)
    let run := runningSums 0 ws
    -- the shortest run of ranks that reaches the cut
    let kept := match run.findIdx? (fun v => !f32Lt v lim) with
      | some k => k + 1
      | none => run.length
    let u := f32Of (.num false (Sys2Proof.Machine.gen q.seed 0xFFFF pos / 256) (-24))
    let cut := f32Mul u (run.getD (kept - 1) 0)
    let k := (((run.take kept).findIdx? (fun v => f32Lt cut v)).getD (kept - 1))
    (ks.getD k (⟨0, false⟩, top)).2

/-- Does a token end the request, as its `k`-th generated one (R233)? -/
def SrvReq.ends (q : SrvReq) (tok k : Nat) : Bool := q.stops.contains tok || decide (q.maxNew ≤ k)

/-- The acceptance walk of R253: the tokens chosen and the path. -/
def SrvReq.acceptWalk (q : SrvReq) (logits : List (List Nat)) (parents : List Nat) (len : Nat) : Nat → Nat → Nat → List Nat → List Nat → List Nat × List Nat
  | 0, _, _, path, out => (out, path)
  | fuel + 1, v, depth, path, out =>
    let t := q.choose (logits.getD v []) (len + depth + 1)
    let out := out ++ [t]
    if q.ends t (q.tokens.length + out.length) || path.length == 16 then (out, path)
    else match (List.range q.tree.length).find? (fun c => c != 0 && parents.getD c 0xFF == v && q.tree.getD c 0 == t) with
      | none => (out, path)
      | some c => q.acceptWalk logits parents len fuel c (depth + 1) (path ++ [c]) out

/-- COMMIT for one sequence (R226, R234, R244): lateness, then its SCATTER_KV. -/
def State.commitSeq (s : State) (o : SeqOut) : State :=
  match s.req o.slot with
  | none => s
  | some q =>
    if q.st ≠ .inStep then s
    else match s.kvm.skein q.root with
      | none => s
      | some k =>
        -- rows that the step program staged
        let s := s.store (s.frameAddr k.realm k.stageFrame) (o.rows.take (k.stageGran * 4096))
        let prefill := q.done < q.prompt.length
        let spec := q.spec && !prefill && !q.tree.isEmpty
        let treeBad := spec && (treeBits k.parents []).isNone
        let gives := !prefill || q.done + q.stepN == q.prompt.length
        let x := if !gives then ([], [])
          else if spec then q.acceptWalk o.logits k.parents k.len 16 0 0 [0] []
          else ([q.choose (o.logits.headD []) (k.len + q.stepN)], [])
        if o.poison then s.setReq o.slot { q with verdict := some (stKvPoison, 4) }
        else if treeBad then s.setReq o.slot { q with verdict := some (stTreeShape, 4) }
        else
          let late := gives && q.isLate s.gauge
          if late && bit q.accCfg 3 then s.setReq o.slot { q with verdict := some (stDeadlineDrop, 3), late := true }
          else
            let y := s.scatterKv q.root spec (if spec then 0 else q.stepN) x.2
            let s := y.2
            if y.1 = stOk then
              let tree := if gives && q.spec then (x.1.getLastD 0) :: o.tokens else []
              let s := s.setReq o.slot { q with chosen := x.1, late := q.late || late, tree := tree }
              s.onKvm (fun m => match m.skein q.root with
                | some z => m.setSkein q.root { z with parents := if tree.isEmpty then [] else 0xFF :: o.parents }
                | none => m)
            else s.setReq o.slot { q with verdict := some (y.1, if y.1 = stKvNoPage then 0 else 4) }

/-- The sequences of a step, in slot order, each with what the step program gave it. -/
def State.commitSeqs (s : State) (slots : List Nat) (outs : List SeqOut) : State :=
  (stableSort (fun a b => decide (a ≤ b)) slots).foldl (fun s slot => s.commitSeq ((outs.find? (fun o => o.slot == slot)).getD { slot := slot })) s

/-- SAMPLE: the step program has run; tokens are chosen, late requests judged, and each sequence's SCATTER_KV issued in slot order. -/
def execSample (r : Nat) (outs : List SeqOut) (s : State) : Res :=
  s.whenRunning (fun s =>
    match Tab.find r s.srv.steps with
    | none => s
    | some st =>
      if st.phase ≠ .run then s
      else (s.commitSeqs st.slots outs).onSrv (fun v => { v with steps := Tab.put r { st with phase := .commit } v.steps }))

/-- STEP_RETRY: a CONTAINED error ended an operator of a step before its commit point (R234). -/
def execStepRetry (r : Nat) (s : State) : Res :=
  s.whenReady (fun s =>
    match Tab.find r s.srv.steps with
    | none => s
    | some st =>
      if st.phase ≠ .run then s
      else if st.retry < bits st.ctl 2 2 then
        let s := s.onSrv (fun v => { v with steps := Tab.put r { st with retry := st.retry + 1 } v.steps })
        (s.srvSts 2).srvEvent 4 r (s.fld .SRV_STEP_CNT_COUNT + (st.retry + 1) * 2 ^ 32)
      else
        let s := st.slots.foldl (fun s slot => s.endRequest slot stSrvFault 4) s
        (s.onSrv (fun v => { v with steps := Tab.del r v.steps })).srvSts 3)

/-! ### The commit point (R225, R233, R235, R239, R240) -/

/-- What a served request is charged (R235). -/
def State.charge (s : State) (q : SrvReq) (gen prompt : Nat) : State :=
  s.setLevel q.account (s.level q.account - ((256 * gen + 16 * bits q.accCfg 4 8 * prompt : Nat) : Int))

/-- The interval between commit points that give a request tokens (R239, R240). -/
def State.tbtTest (s : State) (slot : Nat) (q : SrvReq) : SrvReq × State :=
  if q.tFirst = 0 then ({ q with tFirst := s.gauge, lastCommit := s.gauge }, s)
  else
    let t := s.gauge - q.lastCommit
    let miss := q.tbt != 0 && decide (q.tbt * 320 < t)
    let q' := { q with tbtMax := max q.tbtMax (usOf t), tbtMiss := q.tbtMiss + b2n miss, lastCommit := s.gauge }
    (q', if miss && q.tbtMiss == 0 && s.flag .SRV_CTRL_TRACK_EVT && bit q.rqFlags 2 then
        s.srvEvent 3 q.realm (q.tag + q.ring % 64 * 2 ^ 32 + slot % 2 ^ 16 * 2 ^ 64 + usOf t % 2 ^ 32 * 2 ^ 80) else s)

/-- The commit point for one sequence of a step. -/
def State.commitReq (s : State) (slot : Nat) : State :=
  match s.req slot with
  | none => s
  | some q =>
    if q.st ≠ .inStep then s
    else match q.verdict with
      | some (st, reason) =>
        if st = stKvNoPage then
          let s := s.onKvm (fun k => match k.skein q.root with
            | some z => k.setSkein q.root { z with staged := 0 }
            | none => k)
          s.pause slot { q with verdict := none, chosen := [] } 2
        else s.markEnded slot st reason
      | none =>
        let prompt := if q.done < q.prompt.length then q.stepN else 0
        let s := s.charge q q.chosen.length prompt
        let s := s.bumpWrap .SRV_PERF_TOKENS_COUNT q.chosen.length
        let q := { q with done := q.done + prompt, tokens := q.tokens ++ q.chosen, steps := q.steps + 1, chosen := [], stepN := 0 }
        let x := if q.tokens.length = 0 ∨ prompt ≠ 0 ∧ q.done < q.prompt.length then (q, s) else s.tbtTest slot q
        let last := x.1.tokens.getLast?
        let s := (x.2.setReq slot { x.1 with st := .ready }).ttftTest slot
        match last with
        | some t =>
          if x.1.done = x.1.prompt.length ∧ x.1.stops.contains t then s.markEnded slot stOk 0
          else if x.1.maxNew ≤ x.1.tokens.length then s.markEnded slot stOk 1 else s
        | none => s

/-- Register a prefix of a request or root, bound to a model (R162, R250). -/
def State.registerPrefix (s : State) (r n uid root tokens handle model : Nat) : State :=
  let x := s.prefixRegister root tokens handle
  let s := x.2
  let s := if x.1 = stOk then
      match s.kvm.prefixOf r handle with
      | some p => s.onSrv (fun v => { v with prefixModel := Tab.put p.1 model v.prefixModel })
      | none => s
    else s
  s.finish r n uid { status := x.1, result := if x.1 = stOk then tokens else 0 }

/-- PREFIX_REGISTERs whose request is now outside a step and long enough (R251). -/
def State.applyWaits (s : State) (slot : Nat) : State :=
  match s.req slot with
  | none => s
  | some q =>
    let len := ((s.kvm.skein q.root).map (fun k => k.len)).getD 0
    let go := s.srv.waits.filter (fun w => w.slot == slot && q.live && q.st != .inStep && decide (w.n ≤ len))
    let s := s.onSrv (fun v => { v with waits := v.waits.filter (fun w => !go.contains w) })
    go.foldl (fun s w => if (s.kvm.prefixOf w.realm w.handle).isSome then s.done w.realm w.ring w.uid stPrefixExists
      else s.registerPrefix w.realm w.ring w.uid q.root w.n w.handle q.model) s

/-- The commit point of a realm's step, before DELIVER. -/
def State.commitStep (s : State) (r : Nat) (st : Step) : State :=
  let s := s.epochRise
  let s := s.bumpWrap .SRV_STEP_CNT_COUNT 1
  let s := st.slots.foldl (fun s slot => s.commitReq slot) s
  st.slots.foldl (fun s slot => s.applyWaits slot) (s.onSrv (fun v => { v with steps := Tab.del r v.steps }))

/-- SLOT_FREE: an ended request's slot is FREE again once no running step names it; its generation count rises (R243, R246). -/
def execSlotFree (slot : Nat) (s : State) : Res :=
  s.whenReady (fun s =>
    match s.req slot with
    | none => s
    | some q =>
      if q.endWritten && (s.srv.steps.all (fun e => !e.2.slots.contains slot)) then
        s.onSrv (fun v => { v with reqs := Tab.del slot v.reqs, gens := Tab.put slot ((q.gen + 1) % 2 ^ 16) v.gens })
      else s)

/-- DEADLINE_PASS: the deadline of a waiting request passes (R244). -/
def execDeadlinePass (slot : Nat) (s : State) : Res :=
  s.whenReady (fun s =>
    match s.req slot with
    | none => s
    | some q =>
      if q.deadline = 0 ∨ !(q.waiting || q.st == .waitModel) || q.late then s
      else
        let s := { s with gauge := max s.gauge q.deadline }
        let s := s.setReq slot { q with late := true }
        if s.flag .SRV_ACC_CFG_DROP_LATE 0 q.account then s.endRequest slot stDeadlineDrop 3 else s)

/-! ### Accounts (R235) -/

/-- ACCOUNT_LEVEL_REFILL: at every 65,536th gt each account's LEVEL rises by RATE, to at most 256 · BURST. -/
def execAccountLevelRefill (s : State) : Res :=
  s.whenReady (fun s =>
    let due := 65536 * (s.srv.refills + 1)
    let s := { s with gauge := max s.gauge due }
    let s := s.onSrv (fun v => { v with refills := v.refills + 1 })
    (List.range 1024).foldl (fun s a =>
      let rate := s.fld .SRV_ACC_RATE_RATE 0 a
      if rate = 0 then s
      else
        let cap : Int := (256 * s.fld .SRV_ACC_CFG_BURST 0 a : Nat)
        s.setLevel a (max (min (s.level a) cap) (min cap (s.level a + (rate : Nat))))) s)

/-- ACC_REFILL: LEVEL of the selected account becomes 256 · BURST. -/
def State.accRefill (s : State) : State :=
  let a := s.fld .SRV_ACC_SEL_ACC
  s.setLevel a ((256 * s.fld .SRV_ACC_CFG_BURST 0 a : Nat) : Int)

def execAccRefill (w : Win) (s : State) : Res := s.fwCommand w .SRV_CMD 0 2 State.accRefill

/-- SRV_CNT_CLR: the three performance counters clear (R263). -/
def State.srvCntClr (s : State) : State :=
  [Reg.SRV_PERF_TOKENS, .SRV_PERF_PAUSE, .SRV_PERF_REFUSE].foldl (fun s r => s.setWord r 0 0 0) s

def execSrvCntClr (w : Win) (s : State) : Res := s.fwCommand w .SRV_CMD 0 1 State.srvCntClr

/-! ### Prefix handles (R250, R251) -/

/-- PREFIX_REGISTER: by request it may wait until the request is long enough; by root it applies at once. -/
def execPrefixRegister (r n i : Nat) (s : State) : Res :=
  s.whenReady (fun s => s.onDesc r n i 6 (fun d s =>
    let handle := d.num 8 8
    let tokens := d.num 0x10 4
    if (s.kvm.prefixOf r handle).isSome then s.done r n d.uid stPrefixExists
    else if d.byte 0x14 = 1 then
      let root := d.num 0x18 4
      match s.kvm.skein root with
      | none => s.done r n d.uid stNotFound
      | some k =>
        if k.realm ≠ r then s.done r n d.uid stNotFound
        else
          let model := ((s.srv.reqs.find? (fun e => e.2.root == root && e.2.live)).map (fun e => e.2.model)).getD 0xFFFF
          s.registerPrefix r n d.uid root tokens handle model
    else
      match oldest (s.srv.reqs.filter (fun e => e.2.realm == r && e.2.live && e.2.ring == d.byte 0x15 && e.2.tag == d.num 0x18 4)) with
      | none => s.done r n d.uid stNotFound
      | some e =>
        (s.onSrv (fun v => { v with waits := v.waits ++ [⟨r, n, d.uid, e.1, tokens, handle⟩] })).applyWaits e.1))

/-- PREFIX_RELEASE: the handle's hold is dropped (R165, R250). -/
def execPrefixRelease (r n i : Nat) (s : State) : Res :=
  s.whenReady (fun s => s.onDesc r n i 7 (fun d s =>
    match s.kvm.prefixOf r (d.num 8 8) with
    | none => s.done r n d.uid stNotFound
    | some p => ((s.prefixDrop p.1 p.2).onSrv (fun v => { v with prefixModel := Tab.del p.1 v.prefixModel })).done r n d.uid stOk))

/-! ### Models (R256-R258, R401) -/

def State.modelEvent (s : State) (m r st status : Nat) : State := s.srvEvent 5 r (m + st * 2 ^ 8 + status % 256 * 2 ^ 16)

/-- Where a package lies. -/
def pkgBase (source : Nat) : Nat := if source = 0 then drawerBase else hostBase

/-- A model area's place for `n` granules (R256, R257). -/
def State.modelPlace (s : State) (r n : Nat) : Option Nat :=
  let base := s.fld .SRV_RLM_MDL_BASE_BASE 0 r
  let used := ((s.srv.models.filter (fun e => e.2.realm == r && e.2.st != .absent)).map (fun e => (e.2.base - base, e.2.size)))
  fitLines used (s.fld .SRV_RLM_MDL_SIZE_SIZE 0 r) n

/-- MODEL_LOAD of an ABSENT model enters LOADING; firmware writes the key-value profile of the package (R142, R257): its number, its three
profile words, and whether the package has a draft stage are what the model description says. -/
def State.modelLoad (s : State) (r n : Nat) (d : Desc) (prof geom policy keep : Nat) (draft : Bool) : State :=
  let m := d.num 8 2
  if (s.srv.model m).st ≠ .absent then s.done r n d.uid stModelBusy
  else
    let src := d.byte 0x0A
    let size := ceilDiv (s.num (pkgBase src + d.num 0x10 8 + 8) 8) 4096
    match s.modelPlace r size with
    | none => (s.srvSts 6).done r n d.uid stModelNoSpace
    | some a =>
      let s := ((s.setWord .KVM_PROF_POLICY 0 (prof % 64) (BitVec.ofNat 32 policy)).setWord .KVM_PROF_KEEP 0 (prof % 64) (BitVec.ofNat 32 keep)).setWord
        .KVM_PROF_GEOM 0 (prof % 64) (BitVec.ofNat 32 geom)
      let s := s.setModel m { st := .loading, realm := r, profile := prof % 64, base := s.fld .SRV_RLM_MDL_BASE_BASE 0 r + a, size := size, draft := draft,
                              desc := some (r, n, d.uid), source := src, package := d.num 0x10 8, bytes := d.num 0x18 8, pkgKey := d.num 0x0C 2 }
      s.modelEvent m r 1 0

def execModelLoad (r n i prof geom policy keep : Nat) (draft : Bool) (s : State) : Res :=
  s.whenRunning (fun s => if s.gated gServing then s else s.onDesc r n i 8 (fun d s => s.modelLoad r n d prof geom policy keep draft))

/-- The plaintext of a package under its key (R401); none when its form or a tag fails. -/
def openPackage (key : List Nat) (pkg : List Nat) (kind : Nat) : Option (List Nat) :=
  let hdr := pkg.take 4096
  let size := fieldOf hdr 8 8
  let n := ceilDiv size (2 ^ 20)
  if !(fieldOf hdr 0 1 == 1 && fieldOf hdr 1 1 == kind && fieldOf hdr 2 6 == 0 && pkg.length == 4096 + size + 16 * n) then none
  else
    (List.range n).foldl (fun acc i => acc.bind (fun l =>
      let off := 4096 + i * (2 ^ 20 + 16)
      let len := min (2 ^ 20) (size - i * 2 ^ 20)
      (gcmOpen key (sealNonce 3 i) hdr ((pkg.drop off).take len) ((pkg.drop (off + len)).take 16)).map (l ++ ·))) (some [])

/-- Requests that wait for a model become READY, or end when its load failed (R246). -/
def State.wakeModel (s : State) (m : Nat) (ok : Bool) : State :=
  (s.srv.reqs.filter (fun e => e.2.model == m && e.2.st == .waitModel)).foldl (fun s e =>
    if ok then s.updReq e.1 (fun q => { q with st := .ready }) else s.endRequest e.1 stModelAbsent 4) s

def State.finishDesc (s : State) (d : Option (Nat × Nat × Nat)) (st : Nat) : State := match d with
  | some (r, n, uid) => s.done r n uid st
  | none => s

/-- A load is over without a resident model: its requests end, its state event carries `ev` and its descriptor ends with `st`. -/
def State.loadOver (s : State) (m st ev : Nat) : State :=
  let x := s.srv.model m
  let s := (s.setModel m {}).wakeModel m false
  (s.modelEvent m x.realm 0 ev).finishDesc x.desc st

/-- A load that fails. -/
def State.loadFail (s : State) (m st : Nat) : State := s.loadOver m st st

/-- The end of a load: the package is in place and authenticated, or fails (R256, R257, R338, R401). -/
def State.modelLoadDone (s : State) (m : Nat) : State :=
  let x := s.srv.model m
  if x.st ≠ .loading then s
  else match s.keySlot x.realm x.pkgKey with
    | none => if x.pkgKey = noKey then (s.loadFail m stModelSeal).srvSts 6 else s.loadFail m stKeySlot
    | some k =>
      match openPackage k.key (s.bytes (pkgBase x.source + x.package) x.bytes) 0 with
      | none => ((s.loadFail m stModelSeal).emit 0 0x70 0x0004 x.realm (x.pkgKey + stModelSeal * 2 ^ 8)).srvSts 6
      | some p =>
        let s := (s.store (lpddrBase + x.base * 4096) p).setModel m { x with st := .resident, digest := chunkDigest p, desc := none }
        let s := (s.wakeModel m true).srvSts 5
        (s.modelEvent m x.realm 2 0).finishDesc x.desc stOk

/-- MODEL_LOAD_DONE. -/
def execModelLoadDone (m : Nat) (s : State) : Res := s.whenRunning (fun s => s.modelLoadDone m)

/-- What a MODEL_EVICT does when it starts (R258). -/
def State.modelEvict (s : State) (r n : Nat) (d : Desc) : State :=
  let m := d.num 8 2
  let x := s.srv.model m
  if x.st = .absent ∨ x.realm ≠ r then s.done r n d.uid stModelAbsent
  else if x.st = .evicting then s.done r n d.uid stModelBusy
  else if d.byte 0x0A = 1 ∧ s.modelLive m ≠ 0 then s.done r n d.uid stModelBusy
  else if x.st = .loading then ((s.modelEvent m r 3 0).loadOver m stModelAbsent stOk).done r n d.uid stOk
  else if d.byte 0x0A = 1 then ((s.setModel m {}).modelEvent m r 0 0).done r n d.uid stOk
  else (s.setModel m { x with st := .evicting, desc := some (r, n, d.uid) }).modelEvent m r 3 0

/-- MODEL_EVICT. -/
def execModelEvict (r n i : Nat) (s : State) : Res := s.whenReady (fun s => s.onDesc r n i 9 (fun d s => s.modelEvict r n d))

/-- MODEL_EVICT_DONE: the last live request of an EVICTING model has ended and its region is freed (R258). -/
def execModelEvictDone (m : Nat) (s : State) : Res :=
  s.whenReady (fun s =>
    let x := s.srv.model m
    if x.st = .evicting ∧ s.modelLive m = 0 then ((s.setModel m {}).modelEvent m x.realm 0 0).finishDesc x.desc stOk else s)

end Sys2Proof.Machine
end

