-- ==== Sys2Proof/Machine/Video.lean ====
section
/-! DEFINITION. The video engine: streams, reservation, dispatch of parts, pools, rate control, statistics (R296-R326). -/

namespace Sys2Proof.Machine

/-! ### Statuses (R322) -/

def stVidParam : Nat := 0x60
def stVidCapacity : Nat := 0x61
def stVidStreams : Nat := 0x62
def stVidOrder : Nat := 0x63
def stVidState : Nat := 0x64
def stVidPool : Nat := 0x65
def stVidUnsupported : Nat := 0x66
def stVidConcealed : Nat := 0x67
def stVidOutFull : Nat := 0x68
def stVidCoreFault : Nat := 0x69

/-! ### Streams -/

def vidKey (r stream : Nat) : Nat := 256 * r + stream
def State.onVid (s : State) (f : Vid → Vid) : State := { s with vid := f s.vid }
def State.strm (s : State) (k : Nat) : VidStrm := Tab.get (fun _ => {}) s.vid.strms k
def State.setStrm (s : State) (k : Nat) (x : VidStrm) : State := s.onVid (fun v => { v with strms := Tab.set (fun _ => {}) k x v.strms })

def State.vidEvent (s : State) (code k payload : Nat) : State := s.emit 12 0x50 code (k / 256) (k % 256 + payload * 2 ^ 8)

def align16 (n : Nat) : Nat := (n + 15) / 16 * 16
def VidRec.tenBit (x : VidRec) : Bool := bit x.sflags 0
def VidRec.lowDelay (x : VidRec) : Bool := bit x.sflags 1
def VidRec.statsEn (x : VidRec) : Bool := bit x.sflags 2

/-- Bytes of a picture (R297), and of a pool buffer (R306). -/
def VidRec.pictureBytes (x : VidRec) : Nat := x.pitch * align16 x.height * 3 / 2
def VidRec.frameBytes (x : VidRec) : Nat :=
  ceilDiv (x.pictureBytes + 16 * ceilDiv x.width 16 * ceilDiv x.height 16) 4096 * 4096

/-- Weighted luma samples per second as a fraction (R302). -/
def VidRec.rate (x : VidRec) : Nat × Nat := ((if x.op = 1 then 2 else 1) * x.width * x.height * x.fpsNum, x.fpsDen)

def addFrac (a b : Nat × Nat) : Nat × Nat := (a.1 * b.2 + b.1 * a.2, a.2 * b.2)

/-- The rate that open streams of classes 0 and 1 reserve, of one realm or of all (R303). -/
def State.reserved (s : State) (r : Option Nat) : Nat × Nat :=
  (s.vid.strms.filter (fun e => e.2.st != .closed && decide (e.2.cls ≤ 1) && (match r with
    | some q => e.1 / 256 == q
    | none => true))).foldl (fun a e => addFrac a e.2.params.rate) (0, 1)

/-- Capacity of the enabled cores (R302). -/
def State.vidCapacity (s : State) : Nat := popCount 4 (s.fld .VID_CTRL_CORE_EN) * 1990656000

def State.openCount (s : State) : Nat := (s.vid.strms.filter (fun e => e.2.st != .closed)).length

/-- A rate in 10^6 samples per second, rounded up. -/
def upM (x : Nat × Nat) : Nat := ceilDiv x.1 (x.2 * 1000000)

/-- VID_CAPACITY, VID_RLM_CAP.USED and VID_STATE follow the streams and the cores. -/
def State.vidShow (s : State) : State :=
  let s := (s.setFld .VID_CAPACITY_CAP (s.vidCapacity / 1000000)).setFld .VID_CAPACITY_RESERVED (upM (s.reserved none))
  let s := (List.range 4).foldl (fun s r => s.setFld .VID_RLM_CAP_USED (upM (s.reserved (some r))) 0 r) s
  (s.setFld .VID_STATE_OPEN s.openCount).setFld .VID_STATE_CORE_BUSY ((s.vid.cores.map (fun e => 2 ^ e.1)).sum)

/-- Bitrate limits of the levels in kbit/s (the codecs' standards; log entry 23), none for a level code the engine does not take. -/
def levelKbps (codec level : Nat) : Option Nat :=
  (match codec with
   | 0 => [(10, 80), (11, 240), (12, 480), (13, 960), (20, 2500), (21, 5000), (22, 5000), (30, 12500), (31, 17500), (32, 25000), (40, 25000),
           (41, 62500), (42, 62500), (50, 168750), (51, 300000)]
   | 1 => [(30, 128), (60, 1500), (63, 3000), (90, 6000), (93, 10000), (120, 12000), (123, 20000), (150, 25000), (153, 40000)]
   | _ => [(0, 1500), (1, 3000), (4, 6000), (5, 10000), (8, 12000), (9, 20000), (12, 30000), (13, 40000)]).findSome?
    (fun (x : Nat × Nat) => if x.1 = level then some x.2 else none)

/-- A stream record (R298). -/
def parseVid (b : List Nat) : VidRec :=
  { codec := fieldOf b 1 1, op := fieldOf b 2 1, sflags := fieldOf b 3 1, width := fieldOf b 4 2, height := fieldOf b 6 2, fpsNum := fieldOf b 8 2,
    fpsDen := fieldOf b 0x0A 2, pitch := fieldOf b 0x0C 4, pool := fieldOf b 0x10 8, frames := fieldOf b 0x18 1, split := fieldOf b 0x19 1,
    gop := fieldOf b 0x1A 2, cq := fieldOf b 0x1C 1, qpMax := fieldOf b 0x1D 1, search := fieldOf b 0x1E 1, level := fieldOf b 0x1F 1,
    cap := fieldOf b 0x20 4, window := fieldOf b 0x24 2, hint := fieldOf b 0x28 8 }

/-- The first check of R299: Reserved fields, ranges, the pool and the cap. -/
def State.vidParamOk (s : State) (r cls op : Nat) (b : List Nat) (x : VidRec) : Bool :=
  let enc := x.op == 1
  fieldOf b 0 1 == 1 && decide (x.codec ≤ 2) && x.op == op && decide (x.sflags < 16) && (enc || !bit x.sflags 3)
  && decide (64 ≤ x.width) && decide (x.width ≤ 4096) && decide (64 ≤ x.height) && decide (x.height ≤ 2304) && x.width % 2 == 0 && x.height % 2 == 0
  && decide (1 ≤ x.fpsNum) && decide (1 ≤ x.fpsDen) && decide (x.fpsDen ≤ x.fpsNum) && decide (x.fpsNum ≤ 120 * x.fpsDen)
  && x.pitch % 64 == 0 && decide (x.width * (if x.tenBit then 2 else 1) ≤ x.pitch) && x.pool % 4096 == 0
  && decide (2 ≤ x.frames) && decide (x.frames ≤ 32) && s.inRegions r x.pool (x.frames * x.frameBytes)
  && (levelKbps x.codec x.level).isSome
  && (if enc then decide (x.split < 16) && (bits x.split 0 2 != 3 || x.codec == 1) && decide (x.cq ≤ 51) && decide (x.cq ≤ x.qpMax) && decide (x.qpMax ≤ 51)
        && decide (8 ≤ x.search) && decide (x.search ≤ 64) && x.search % 8 == 0 && (x.cap == 0 || (decide (1 ≤ x.window) && decide (x.window ≤ 300)))
        && (x.codec != 0 || !x.tenBit)
        && !(decide (cls ≤ 1) && decide ((levelKbps x.codec x.level).getD 0 < x.cap))
      else (b.drop 0x19).take 6 == [0, 0, 0, 0, 0, 0] && x.cap == 0 && x.window == 0)
  && fieldOf b 0x26 2 == 0 && (bit x.sflags 3 || x.hint == 0) && (b.drop 0x30).all (· == 0)

/-- A stream goes to CLOSED: references, pending outputs and reservation are dropped; queued frames keep their turn. -/
def State.closeStrm (s : State) (k : Nat) : State := (s.setStrm k { queue := (s.strm k).queue, lastNo := (s.strm k).lastNo }).vidShow

/-- The open of frame 0: OK, or the status that refuses it (R299, R303). -/
def State.openStrm (s : State) (r k : Nat) (d : Desc) : Nat × State :=
  let s := s.closeStrm k
  let b := s.bytes (lpddrBase + s.fld .VID_RLM_STRM_BASE 0 r * 4096 + 64 * (d.num 8 2)) 64
  let x := parseVid b
  let cls := d.byte 0x0B
  if !s.inRegions r (s.fld .VID_RLM_STRM_BASE 0 r * 4096 + 64 * (d.num 8 2)) 64 || !s.vidParamOk r cls (d.byte 0x0A) b x then (stVidParam, s)
  else if 256 ≤ s.openCount then (stVidStreams, s)
  else
    let mine := addFrac (s.reserved (some r)) x.rate
    let all := addFrac (s.reserved none) x.rate
    let past := !s.flag .VID_CTRL_OPEN_EN || (decide (cls ≤ 1)
      && (decide (s.fld .VID_RLM_CAP_SHARE 0 r * s.vidCapacity * mine.2 < mine.1 * 256) || decide (s.vidCapacity * all.2 < all.1)))
    if past then (stVidCapacity, s.setSts .VID_STS [1])
    else (stOk, (s.setStrm k { st := .opened, cls := cls, params := x, queue := (s.strm k).queue }).vidShow)

/-! ### Ends of frames -/

/-- A frame ends with a status and a RESULT. -/
def State.vidDone (s : State) (k ring uid status result : Nat) : State := s.finish (k / 256) ring uid { status := status, result := result }

/-- A stream enters ERROR (R301): VID_STS and the STREAM_ERROR event. -/
def State.vidError (s : State) (k status no : Nat) : State :=
  let x := s.strm k
  if x.st = .error ∨ x.st = .closed then s
  else ((s.setStrm k { x with st := .error, cur := none }).setSts .VID_STS [0]).vidEvent 1 k (status % 256 + no % 2 ^ 32 * 2 ^ 8)

def VidStrm.mark (x : VidStrm) (b : Nat) : Nat := Tab.get (fun _ => 0) x.marks b
def VidStrm.setMark (x : VidStrm) (b m : Nat) : VidStrm := { x with marks := Tab.set (fun _ => 0) b m x.marks }

/-- The lowest-numbered free buffer (R306). -/
def VidStrm.freeBuf (x : VidStrm) : Option Nat := (List.range x.params.frames).find? (fun b => bits (x.mark b) 0 4 == 0)

/-- The picture of a buffer is copied to OUT. -/
def State.moveRows (s : State) (x : VidStrm) (b out : Nat) : State :=
  s.onMem (fun m => m.copy (lpddrBase + x.params.pool + b * x.params.frameBytes) (lpddrBase + out) x.params.pictureBytes)

/-- Output of the next released picture to a descriptor's OUT (R307): its buffer and FRAME_NO, and the state after it. -/
def State.outputNext (s : State) (k : Nat) (out : Nat) : Option (Nat × Nat × State) :=
  let x := s.strm k
  match x.pending with
  | [] => none
  | b :: t =>
    let m := x.mark b
    let s := s.moveRows x b out
    some (b, Tab.get (fun _ => 0) x.nos b, s.setStrm k ({ x with pending := t }.setMark b (if bit m 2 then m - 4 else m)))

/-- RESULT of a picture output (R321). -/
def vidOutResult (o : Option (Nat × Nat)) : Nat := match o with
  | some (b, no) => no % 2 ^ 32 + b % 64 * 2 ^ 32 + 2 ^ 48
  | none => 0

/-- A close (R301). -/
def State.vidClose (s : State) (k : Nat) (e : VidEntry) (out : Nat) : State :=
  let x := s.strm k
  match x.st with
  | .closed => s.vidDone k e.ring e.uid stOk 0
  | .error => (s.closeStrm k).vidDone k e.ring e.uid stOk 0
  | _ =>
    if x.params.op = 1 then (s.closeStrm k).vidDone k e.ring e.uid stOk 0
    else match s.outputNext k out with
      | some (b, no, s) => (s.setStrm k { s.strm k with st := .draining }).vidDone k e.ring e.uid stOk (vidOutResult (some (b, no)))
      | none => (s.closeStrm k).vidDone k e.ring e.uid stOk 0

/-- Parts that a frame is cut into: those of SPLIT for an encode, those of its bitstream's units for a decode (R314). -/
def VidRec.parts (x : VidRec) (units : Nat) : Nat :=
  if x.op = 1 then
    (match bits x.split 0 2 with
     | 0 => 1
     | 3 => ceilDiv x.height 64
     | _ => bits x.split 2 2 + 1)
  else max 1 units

/-- The next FRAME_NO of a stream (R300). -/
def VidStrm.nextNo (x : VidStrm) : Nat := if x.lastNo = 0xFFFFFFFE then 1 else x.lastNo + 1

/-- Does a started frame of the stream stand before one that has not acted yet? -/
def State.vidWaits (s : State) (k : Nat) (e : VidEntry) : Bool :=
  (s.ring (k / 256) e.ring).descs.any (fun d => d.ty == 0x0A && d.num 8 2 == k % 256 && decide (d.uid < e.uid) && !d.acted && d.result.isNone)

/-- An open stream takes a frame: it becomes ready for the cores, or ends at once (R300, R306, R307). -/
def State.vidTake (s : State) (k : Nat) (e : VidEntry) (d : Desc) : State :=
  let x := s.strm k
  let x := { x with lastNo := e.no, n := if e.no = 0 then 0 else x.n + 1 }
  if d.byte 0x0A ≠ x.params.op ∨ d.byte 0x0B ≠ x.cls then s.vidDone k e.ring e.uid stVidParam 0
  else
    let s := s.setStrm k x
    if x.params.statsEn ∧ !(d.num 0x30 8 % 64 == 0 && s.inRegions (k / 256) (d.num 0x30 8) (64 + ceilDiv x.params.height 16 *
        (2 * ceilDiv (4 * ceilDiv x.params.width 16) 64 * 64 + ceilDiv (ceilDiv x.params.width 16) 64 * 64))) then s.vidDone k e.ring e.uid stDescAccess 0
    else if x.params.op = 0 ∧ d.num 0x28 4 < x.params.pictureBytes then s.vidDone k e.ring e.uid stVidOutFull 0
    else match x.freeBuf with
      | none => (s.vidDone k e.ring e.uid stVidPool 0).vidError k stVidPool e.no
      | some b =>
        let p := x.params.parts e.parts
        s.setStrm k { x.setMark b 8 with cur := some { ring := e.ring, uid := e.uid, no := e.no, parts := p, waiting := List.range p, readyAt := s.gauge,
                                                        buffer := b, n := x.n } }

/-- Frames whose turn has come, in order: a stream runs its frames one at a time (R300, R301, R318). -/
def State.vidTurn (s : State) (k : Nat) : Nat → State
  | 0 => s
  | fuel + 1 =>
    let x := s.strm k
    match x.queue with
    | [] => s
    | e :: t =>
      if x.cur.isSome || s.vidWaits k e then s
      else
        let s := s.setStrm k { x with queue := t }
        let s := match s.descUid (k / 256) e.ring e.uid with
          | none => if e.cancelled ∧ x.st = VidSt.opened ∧ e.no = x.nextNo then s.setStrm k { s.strm k with lastNo := e.no, n := x.n + 1 } else s
          | some d =>
            if e.cancelled then (if x.st = VidSt.opened ∧ e.no = x.nextNo then s.setStrm k { s.strm k with lastNo := e.no, n := x.n + 1 } else s)
            else if e.no = 0xFFFFFFFF ∧ d.num 0x18 4 = 0 then s.vidClose k e (d.num 0x20 8)
            else if e.no = 0 then
              let o := s.openStrm (k / 256) k d
              if o.1 = stOk then o.2.vidTake k e d else o.2.vidDone k e.ring e.uid o.1 0
            else if x.st ≠ VidSt.opened then s.vidDone k e.ring e.uid stVidState 0
            else if e.no ≠ x.nextNo ∨ e.no = 0xFFFFFFFF then s.vidDone k e.ring e.uid stVidOrder 0
            else s.vidTake k e d
        s.vidTurn k fuel

/-- Entries stand in the order in which their descriptors were fetched. -/
def insertEntry (e : VidEntry) : List VidEntry → List VidEntry
  | [] => [e]
  | y :: t => if e.uid < y.uid then e :: y :: t else y :: insertEntry e t

def State.vidPut (s : State) (k : Nat) (e : VidEntry) : State :=
  let s := s.setStrm k { s.strm k with queue := insertEntry e (s.strm k).queue }
  s.vidTurn k ((s.strm k).queue.length)

/-- VIDEO_FRAME: a started frame joins its stream, which holds up to 8; `parts` is how many parts its bitstream can be cut into (R300, R314). -/
def execVideoFrame (r n i parts : Nat) (s : State) : Res :=
  s.whenReady (fun s =>
    match s.starting r n i 0x0A with
    | none => s
    | some d =>
      let k := vidKey r (d.num 8 2)
      let e : VidEntry := { ring := n, uid := d.uid, no := d.num 0x0C 4, parts := parts }
      if s.gated gVideo || s.vidWaits k e || decide (8 ≤ (s.strm k).queue.length + b2n (s.strm k).cur.isSome) then s
      else (s.updDesc r n d.uid (fun d => { d with acted := true })).vidPut k e)

/-! ### Parts (R305, R314, R320) -/

/-- Of two streams with ready parts, the one that a free core takes: lower CLASS, then earlier ready, then lower realm and stream (R305). -/
def partBefore (a b : Nat × VidStrm) : Bool :=
  let ra := (a.2.cur.map VidRun.readyAt).getD 0
  let rb := (b.2.cur.map VidRun.readyAt).getD 0
  decide (a.2.cls < b.2.cls) || (a.2.cls == b.2.cls && (decide (ra < rb) || (ra == rb && decide (a.1 < b.1))))

/-- Streams with a part that a core may take; a re-run goes to another core than the one that failed. -/
def State.readyParts (s : State) (core : Nat) : List (Nat × VidStrm) :=
  s.vid.strms.filter (fun e => match e.2.cur with
    | some c => !c.killed && c.waiting.any (fun p => !c.rerun.contains (p, core))
    | none => false)

def firstPart : List (Nat × VidStrm) → Option (Nat × VidStrm)
  | [] => none
  | x :: t => some (t.foldl (fun m y => if partBefore y m then y else m) x)

def State.coreOpen (s : State) (core : Nat) : Bool := decide (core < 4) && bit (s.fld .VID_CTRL_CORE_EN) core && !bit (s.fld .FLT_SPARES_VID_RETIRED) core

/-- PART_DISPATCH: a free core takes the first ready part (R305). A live part that takes over from recorded work is counted. -/
def execPartDispatch (core : Nat) (s : State) : Res :=
  s.whenRunning (fun s =>
    if !(s.coreOpen core && s.flag .VID_CTRL_ENABLE && !s.gated gVideo && (Tab.find core s.vid.cores).isNone) then s
    else
      let rs := s.readyParts core
      match firstPart rs with
      | none => s
      | some (k, x) =>
        match x.cur with
        | none => s
        | some c =>
          match c.waiting.find? (fun p => !c.rerun.contains (p, core)) with
          | none => s
          | some p =>
            let c := { c with waiting := c.waiting.erase p, running := c.running ++ [p], cores := insertKey core c.cores }
            let past := x.cls == 0 && decide (2 ≤ Tab.get (fun _ => 0) s.vid.lastClass core) && rs.any (fun e => decide (2 ≤ e.2.cls))
            let s := (s.setStrm k { x with cur := some c }).onVid (fun v =>
              { v with cores := Tab.put core (k, c.uid, p) v.cores, lastClass := Tab.set (fun _ => 0) core x.cls v.lastClass })
            let s := if past then s.bumpWrap .VID_PERF_PREEMPT_COUNT 1 else s
            s.vidShow)

/-! ### Rate control (R311) -/

/-- The largest number whose sixth power is at most `n`. -/
def root6 : Nat → Nat → Nat → Nat
  | 0, acc, _ => acc
  | b + 1, acc, n => root6 b (if (acc + 2 ^ b) ^ 6 ≤ n then acc + 2 ^ b else acc) n

/-- 2^(-d/6) and 2^(d/6) in 1/65536, rounded down. -/
def downPow (d : Nat) : Nat := root6 17 0 (2 ^ (96 - d))
def upPow (d : Nat) : Nat := root6 26 0 (2 ^ (96 + d))

/-- The quality level that the loop of R311 chooses; `budget` in 1/65536 bit. -/
def chooseQ (k cost cq qpMax : Nat) (budget : Int) : Nat → Nat → Nat
  | 0, q => q
  | fuel + 1, q => if q < qpMax ∧ budget < ((k * cost * downPow (q - cq) / 65536 : Nat) : Int) then chooseQ k cost cq qpMax budget fuel (q + 1) else q

/-- B of R311 in 1/65536 bit, rounded down. -/
def VidStrm.budget (x : VidStrm) : Int :=
  let p := x.params
  ((p.cap * 1000 * p.window * p.fpsDen * 65536 / p.fpsNum : Nat) : Int) - (((x.hist.take (p.window - 1)).sum * 65536 : Nat) : Int)

/-- Is frame n a key frame (R310)? -/
def VidRec.isKey (x : VidRec) (n : Nat) : Bool := n == 0 || (x.gop != 0 && n % x.gop == 0)

/-- What an encode ends as: quality level, re-encoded, cap missed, the bitstream, and the bits over the budget. -/
structure EncRes where
  q : Nat
  again : Bool
  miss : Bool
  out : List Nat
  excess : Nat
  deriving DecidableEq, Repr

def VidStrm.encode (x : VidStrm) (key : Bool) (o : VidOut) : EncRes :=
  let p := x.params
  let cost := o.satd.sum
  if p.cap = 0 then ⟨p.cq, false, false, o.stream, 0⟩
  else
    let budget := x.budget
    let q := chooseQ (if key then x.kI else x.kP) cost p.cq p.qpMax budget 52 p.cq
    let b : Int := (8 * o.stream.length * 65536 : Nat)
    let again := decide (budget < b) && decide (q < p.qpMax)
    let out := if again then o.stream2 else o.stream
    let b2 : Int := (8 * out.length * 65536 : Nat)
    ⟨if again then p.qpMax else q, again, decide (budget < b2), out, ((b2 - budget) / 65536).toNat⟩

/-- k_I or k_P after a frame of `b` bits at quality level q (R311); a frame of cost 0 leaves it a free value. -/
def State.nextK (s : State) (x : VidStrm) (key : Bool) (b q cost : Nat) : VidStrm × State :=
  let d := if cost = 0 then s.draw else (b * upPow (q - x.params.cq) / cost, s)
  ((if key then { x with kI := d.1 } else { x with kP := d.1 }), d.2)

/-! ### Statistics (R316) -/

/-- Rows of a plane, each padded to a multiple of 64 bytes. -/
def planeRows (cols : Nat) : Nat → List (List Nat) → List Nat
  | 0, _ => []
  | k + 1, l =>
    let row := (l.take cols).flatten
    row ++ List.replicate ((64 - row.length % 64) % 64) 0 ++ planeRows cols k (l.drop cols)

def fillTo {α : Type} (n : Nat) (d : α) (l : List α) : List α := l.take n ++ List.replicate (n - l.length) d

def statsArea (x : VidRec) (no : Nat) (o : VidOut) : List Nat :=
  let c := ceilDiv x.width 16
  let rows := ceilDiv x.height 16
  let mv := planeRows c rows ((fillTo (c * rows) (0, 0) o.mv).map (fun v => leBytes 2 v.1 ++ leBytes 2 v.2))
  let satd := planeRows c rows ((fillTo (c * rows) 0 o.satd).map (leBytes 4))
  let kind := planeRows c rows ((fillTo (c * rows) 0 o.kind).map (leBytes 1))
  let head := leBytes 2 c ++ leBytes 2 rows ++ leBytes 2 no ++ [o.ftype % 256, 0] ++ leBytes 4 64 ++ leBytes 4 (64 + mv.length) ++ leBytes 4 (64 + mv.length + satd.length)
  head ++ List.replicate (64 - head.length) 0 ++ mv ++ satd ++ kind

/-! ### Completion of a frame -/

/-- The frame's marks and counters, and the next frame's turn. -/
def State.vidAfter (s : State) (k : Nat) : State :=
  let s := s.bumpWrap .VID_PERF_FRAMES_COUNT 1
  s.vidTurn k ((s.strm k).queue.length)

/-- A decoded frame completes (R307-R309, R321). -/
def State.decodeEnd (s : State) (k : Nat) (x : VidStrm) (c : VidRun) (d : Desc) (o : VidOut) : State :=
  if o.unsupported then
    (((s.setStrm k ({ x with cur := none }.setMark c.buffer 0))).vidDone k c.ring c.uid stVidUnsupported 0).vidError k stVidUnsupported c.no
  else
    let s := s.store (lpddrBase + x.params.pool + c.buffer * x.params.frameBytes) (o.picture.take x.params.frameBytes)
    let x := o.marks.foldl (fun x m => x.setMark m.1 (m.2 % 2 ^ 32 / 16 * 16 + m.2 % 8)) { x with cur := none }
    let x := { x with nos := Tab.set (fun _ => 0) c.buffer c.no x.nos, pending := x.pending ++ (if x.params.lowDelay then [c.buffer] else o.released) }
    let s := s.setStrm k x
    let y := s.outputNext k (d.num 0x20 8)
    let res := vidOutResult (y.map (fun v => (v.1, v.2.1)))
    let s := (y.map (fun v => v.2.2)).getD s
    let s := if x.params.statsEn then s.store (lpddrBase + d.num 0x30 8) (statsArea x.params c.no o) else s
    let bad := o.concealed != 0
    let s := if bad then (s.setSts .VID_STS [2]).vidEvent 3 k (c.no % 2 ^ 32 + min 65535 o.concealed * 2 ^ 32) else s
    s.vidDone k c.ring c.uid (if bad then stVidConcealed else stOk)
      (res + b2n bad * 2 ^ 49 + b2n (o.ftype == 0) * 2 ^ 51 + b2n x.params.statsEn * 2 ^ 53 + (c.cores.length - 1) % 4 * 2 ^ 54)

/-- An encoded frame completes (R310, R311, R321). -/
def State.encodeEnd (s : State) (k : Nat) (x : VidStrm) (c : VidRun) (d : Desc) (o : VidOut) : State :=
  let key := x.params.isKey c.n
  let e := x.encode key o
  let s := if e.again then s.bumpWrap .VID_PERF_REENC_COUNT 1 else s
  if d.num 0x28 4 < e.out.length then
    let y := s.nextK ({ x with cur := none, hist := 0 :: x.hist.take 299, lastQp := x.params.qpMax }.setMark c.buffer 0) key 0 x.params.qpMax (o.satd.sum)
    (y.2.setStrm k y.1).vidDone k c.ring c.uid stVidOutFull 0
  else
    let s := s.store (lpddrBase + x.params.pool + c.buffer * x.params.frameBytes) (o.picture.take x.params.frameBytes)
    let s := s.store (lpddrBase + d.num 0x20 8) e.out
    let x := o.marks.foldl (fun x m => x.setMark m.1 (m.2 % 2 ^ 32 / 16 * 16 + m.2 % 8)) { x with cur := none }
    let x := { x with hist := (8 * e.out.length) :: x.hist.take 299, lastQp := e.q, nos := Tab.set (fun _ => 0) c.buffer c.no x.nos }
    let y := s.nextK x key (8 * e.out.length) e.q o.satd.sum
    let s := y.2.setStrm k y.1
    let s := if x.params.statsEn then s.store (lpddrBase + d.num 0x30 8) (statsArea x.params c.no o) else s
    let s := if e.miss then (s.setSts .VID_STS [3]).vidEvent 2 k (c.no % 2 ^ 32 + e.excess % 2 ^ 32 * 2 ^ 32) else s
    s.vidDone k c.ring c.uid stOk (e.out.length % 2 ^ 32 + c.buffer % 64 * 2 ^ 32 + e.q % 64 * 2 ^ 40 + b2n true * 2 ^ 48 + b2n e.miss * 2 ^ 50
      + b2n key * 2 ^ 51 + b2n e.again * 2 ^ 52 + b2n x.params.statsEn * 2 ^ 53 + (c.cores.length - 1) % 4 * 2 ^ 54)

/-- An uncorrectable error of a core: the part runs again on another core, or the frame fails (R320). -/
def State.coreUe (s : State) (k core part : Nat) (x : VidStrm) (c : VidRun) : State :=
  let s := (s.setSts .VID_STS [5]).report 2 0x000B 3 core 3 [k / 256] 0
  let s := s.onFlt (fun f => { f with queue := f.queue ++ [{ sev := 2, cause := 0x000B, kind := 3, index := core, scope := 3 }] })
  if c.rerun.any (fun y => y.1 == part) || !(List.range 4).any (fun n => n != core && s.coreOpen n) then
    (((s.setStrm k ({ x with cur := none }.setMark c.buffer 0)).vidDone k c.ring c.uid stVidCoreFault 0).vidError k stVidCoreFault c.no).vidAfter k
  else s.setStrm k { x with cur := some { c with running := c.running.erase part, waiting := part :: c.waiting, rerun := (part, core) :: c.rerun } }

/-- PART_DONE: a core's part ends; with its last part the frame completes (R305, R314, R320). -/
def execPartDone (core : Nat) (o : VidOut) (s : State) : Res :=
  s.whenUp (fun s =>
    match Tab.find core s.vid.cores with
    | none => s
    | some (k, uid, part) =>
      let s := s.onVid (fun v => { v with cores := Tab.del core v.cores })
      let s := s.bumpWrap .VID_PERF_BUSY_COUNT o.cycles
      let s := if o.ce then (s.setSts .VID_STS [4]).report 1 0x000B 3 core 3 [k / 256] 1 else s
      let x := s.strm k
      let s := match x.cur.filter (fun c => c.uid == uid && c.running.contains part) with
        | none => s
        | some c =>
          if o.ue then s.coreUe k core part x c
          else
            let c := { c with running := c.running.erase part, ended := c.ended + 1 }
            if c.killed then
              (if c.running.isEmpty then (((s.setStrm k ({ x with cur := none }.setMark c.buffer 0)).vidDone k c.ring c.uid stVidState 0).vidError k stVidState c.no).vidAfter k
               else s.setStrm k { x with cur := some c })
            else if c.ended < c.parts then s.setStrm k { x with cur := some c }
            else match s.descUid (k / 256) c.ring c.uid with
              | none => (s.setStrm k ({ x with cur := none }.setMark c.buffer 0)).vidAfter k
              | some d => (if x.params.op = 1 then s.encodeEnd k x c d o else s.decodeEnd k x c d o).vidAfter k
      s.vidShow)

/-! ### Commands of VID_CMD -/

/-- STRM_KILL: the selected stream enters ERROR after its running part (R301). -/
def State.strmKill (s : State) : State :=
  let k := vidKey (s.fld .VID_STRM_SEL_REALM) (s.fld .VID_STRM_SEL_STREAM)
  let x := s.strm k
  match x.cur with
  | some c =>
    if c.running.isEmpty then (((s.setStrm k ({ x with cur := none }.setMark c.buffer 0)).vidDone k c.ring c.uid stVidState 0).vidError k stVidState c.no).vidTurn k x.queue.length
    else s.setStrm k { x with cur := some { c with killed := true } }
  | none => (s.vidError k stVidState x.lastNo).vidTurn k x.queue.length

def execStrmKill (w : Win) (s : State) : Res := s.fwCommand w .VID_CMD 0 2 State.strmKill

/-- VID_CNT_CLR: the four performance counters clear. -/
def State.vidCntClr (s : State) : State :=
  (((s.setWord .VID_PERF_BUSY 0 0 0).setWord .VID_PERF_PREEMPT 0 0 0).setWord .VID_PERF_REENC 0 0 0).setWord .VID_PERF_FRAMES 0 0 0

def execVidCntClr (w : Win) (s : State) : Res := s.fwCommand w .VID_CMD 0 1 State.vidCntClr

end Sys2Proof.Machine
end

