-- ==== Sys2Proof/Machine/Cancel.lean ====
section
/-! DEFINITION. CANCEL, the commit point with the CANCELs that follow it, and ring resets (R198, R210, R241-R245, R318, R319, R345). -/

namespace Sys2Proof.Machine

/-! ### Ending one descriptor -/

/-- A frame of a stream is given up with its ring, or its running part is killed when it stands on another ring (R301, R319). -/
def State.vidReset (s : State) (k n no : Nat) : State :=
  let x := s.strm k
  match x.cur with
  | some c =>
    if c.ring = n then (s.vidError k stCancelled no).vidTurn k x.queue.length
    else if c.running.isEmpty then
      (((s.setStrm k ({ x with cur := none }.setMark c.buffer 0)).vidDone k c.ring c.uid stVidState 0).vidError k stCancelled no).vidTurn k x.queue.length
    else s.setStrm k { x with cur := some { c with killed := true } }
  | none => (s.vidError k stCancelled no).vidTurn k x.queue.length

/-- The image write of a SNAPSHOT stops: its target may run on (R343). -/
def State.snapStop (s : State) (x : Snap) : State := (s.updJob x.target (fun j => { j with held := false })).dropSnap x.uid

/-- A JOB that has begun, or that has not, ends with CANCELLED. -/
def State.cancelJob (s : State) (r n uid : Nat) : State :=
  if (s.job uid).isSome then s.endJob uid stCancelled else s.done r n uid stCancelled

/-- A SNAPSHOT whose image is being written ends with its target (R345). -/
def State.cancelImage (s : State) (x : Snap) : State := (s.dropSnap x.uid).done x.realm x.ring x.uid stCancelled

/-- An outstanding descriptor ends with CANCELLED (R187, R198, R242, R345); `reset` when its ring is reset (R210, R319). -/
def State.cancelDesc (s : State) (r n : Nat) (d : Desc) (reset : Bool) : State :=
  match d.ty with
  | 0x01 =>
    let s := (s.det.snaps.filter (fun x => x.target == d.uid && x.image.isSome)).foldl (fun s x => s.cancelImage x) s
    s.cancelJob r n d.uid
  | 0x06 => (s.onSrv (fun v => { v with waits := v.waits.filter (fun w => w.uid != d.uid) })).done r n d.uid stCancelled
  | 0x08 =>
    if (s.srv.model (d.num 8 2)).desc = some (r, n, d.uid) then s.loadFail (d.num 8 2) stCancelled else s.done r n d.uid stCancelled
  | 0x09 =>
    let m := d.num 8 2
    let s := if (s.srv.model m).desc = some (r, n, d.uid) then s.setModel m { s.srv.model m with desc := none } else s
    s.done r n d.uid stCancelled
  | 0x0A =>
    let k := vidKey r (d.num 8 2)
    let s := s.done r n d.uid stCancelled
    if reset then s.vidReset k n (d.num 0x0C 4)
    else s.vidPut k { ring := n, uid := d.uid, no := d.num 0x0C 4, cancelled := true }
  | 0x0D =>
    match s.det.snaps.find? (fun x => x.uid == d.uid) with
    | none => s.done r n d.uid stCancelled
    | some x =>
      let s := s.snapStop x
      let s := if reset && x.image.isSome then s.cancelJob r x.targetRing x.target else s
      s.done r n d.uid stCancelled
  | 0x0F =>
    match s.det.swatch.filter (fun w => w.desc == some (n, d.uid)) with
    | some _ => ((s.setSwatch none).swatchShow).done r n d.uid stCancelled
    | none => s.done r n d.uid stCancelled
  | 0x10 =>
    match s.det.swatch.filter (fun w => w.desc == some (n, d.uid)) with
    | some w => (s.setSwatch (some { w with desc := none })).done r n d.uid stCancelled
    | none => s.done r n d.uid stCancelled
  | _ => s.done r n d.uid stCancelled

/-! ### CANCEL (R198, R241-R245, R318) -/

/-- The request that a CANCEL matches: the one admitted first among those whose end record is not yet written. -/
def State.cancelReq (s : State) (r ring tag : Nat) : Option (Nat × SrvReq) :=
  oldest (s.srv.reqs.filter (fun e => e.2.realm == r && e.2.ring == ring && e.2.tag == tag && !e.2.endWritten))

/-- The outstanding descriptor that a CANCEL matches: the one fetched first. -/
def State.cancelTarget (s : State) (r ring tag uid : Nat) : Option Desc :=
  (s.ring r ring).descs.find? (fun e => e.tag == tag && e.uid != uid && e.result.isNone && e.ty != 5)

/-- A CANCEL is told what its target is, and completes. -/
def State.cancelOk (s : State) (r n uid tokens : Nat) (late cancelLate : Bool) : State :=
  (s.updDesc r n uid (fun d => { d with late := late, cancelLate := cancelLate })).finish r n uid { status := stOk, result := tokens }

/-- The effect of a CANCEL on a request (R242, R245). -/
def State.cancelRequest (s : State) (r n uid slot : Nat) (q : SrvReq) : State :=
  if q.st = .ended then (s.setReq slot { q with cancelLate := true }).cancelOk r n uid q.tokens.length q.late true
  else
    let late := q.late || q.isLate s.gauge
    -- between a commit point and DELIVER the tokens of that commit are written with the end record
    ((s.setReq slot { q with late := late }).endRequest slot stCancelled 2).cancelOk r n uid q.tokens.length late false

/-- A CANCEL acts when it is fetched. -/
def State.cancelAct (s : State) (r n i : Nat) : State :=
  match (s.desc r n i).filter (fun d => d.ty == 5 && !d.acted && s.active r) with
  | none => s
  | some d =>
    let s := s.updDesc r n d.uid (fun d => { d with acted := true })
    let st := s.descCheck r n d
    if st ≠ stOk then s.done r n d.uid st
    else
      let ring := d.byte 8
      let tag := d.num 0x0C 4
      let t := s.cancelTarget r ring tag d.uid
      let q := s.cancelReq r ring tag
      let first := match t, q with
        | some e, some x => decide (e.uid < x.2.order)
        | some _, none => true
        | none, _ => false
      if first then
        match t with
        | some e =>
          if e.ty = 0x0A ∧ e.started.isSome then s.done r n d.uid stNotFound
          else (s.cancelDesc r ring e false).done r n d.uid stOk
        | none => s
      else
        match q with
        | some x => s.cancelRequest r n d.uid x.1 x.2
        | none => s.done r n d.uid stNotFound

def execCancel (r n i : Nat) (s : State) : Res := s.whenReady (fun s => s.cancelAct r n i)

/-! ### The commit point (R225, R233, R235, R242, R246, R254) -/

/-- COMMIT_POINT of a realm's step: it commits; then the CANCELs fetched between it and DELIVER act, named by ring pair and slot; then the
tokens and end records are delivered. -/
def execCommitPoint (r : Nat) (cancels : List (Nat × Nat)) (s : State) : Res :=
  s.whenRunning (fun s =>
    match Tab.find r s.srv.steps with
    | none => s
    | some st =>
      if st.phase ≠ .commit ∨ !s.kvm.mayRise then s
      else
        let s := s.commitStep r st
        let s := cancels.foldl (fun s c => s.cancelAct r c.1 c.2) s
        st.slots.foldl (fun s slot => s.deliver slot) s)

/-! ### Ring reset (R210, R319, R447) -/

/-- A ring pair stops: its started descriptors end with CANCELLED, the rest are forgotten, and its indices become 0. Records that it
writes or has lost are counted. -/
def State.ringEnd (s : State) (r n : Nat) : Nat × State :=
  let q := s.ring r n
  let ended := q.descs.filter (fun d => d.started.isSome)
  let s := (q.descs.filter (fun d => d.started.isSome || (d.ty == 0x0D && d.acted))).foldl (fun s d =>
    if (s.descUid r n d.uid).isSome then s.cancelDesc r n d true else s) s
  (ended.length + q.lost, s.setRing r n {})

/-- RESET of a ring pair. -/
def State.ringReset (s : State) (r n : Nat) : State :=
  let x := s.ringEnd r n
  (x.2.setSts .RING_STS [4] r).emit 15 0x20 4 r (n % 64 + x.1 % 2 ^ 16 * 2 ^ 16)

def execRingReset (w : Win) (r : Nat) (s : State) : Res := s.ringCommand w r (fun s => s.ringReset r (s.fld .RING_SEL_RING r))

end Sys2Proof.Machine
end

