-- ==== Sys2Proof/Machine/LaneOps.lean ====
section
/-! DEFINITION. What the control lane's commands are made of: packages, halves, claims, frames, checkpoints (R265-R292). -/

namespace Sys2Proof.Machine

def State.onLane (s : State) (f : Lane → Lane) : State := { s with lane := f s.lane }

/-! ### Tiles taken from work (R361, R392) -/

/-- The operator on a tile ends with TILE_FAULT. -/
def State.endTile (s : State) (p : Nat) : State := match (s.tile p).cur with
  | some k => s.opEnd k stTileFault []
  | none => s

/-- Every operator that runs on a physical cluster ends with TILE_FAULT; its line buffers flush (R361). -/
def State.endCluster (s : State) (c : Nat) : State :=
  let ks := (s.jobs.map (fun e => ((List.range e.2.nOps).filter (fun k => ((e.2.op k).tiles.map (· / 17)).contains c && (e.2.op k).st == .running)).map (fun k => (⟨e.1, k⟩ : OpKey)))).flatten
  let s := ks.foldl (fun s k => s.opEnd k stTileFault []) s
  s.setCluster c { s.cluster c with bufs := [], groups := [], tceRun := none, tceQueue := [], s2dRun := none, s2dQueue := [] }

def State.clearTile (s : State) (p : Nat) : State := s.onMem (fun m => m.clear (tileBase p) (2 ^ 21))
def State.clearPart (s : State) (x : Nat × Nat) : State := s.onMem (fun m => m.clear (clusterBase x.1 + x.2) (2 ^ 20))

/-! ### Registers of the halves -/

def halfOff : Nat := 0
def halfScrub : Nat := 1
def halfSelftest : Nat := 2
def halfLoad : Nat := 3
def halfShadow : Nat := 4
def halfStandby : Nat := 5
def halfActive : Nat := 6
def halfFailed : Nat := 7

def stateFld (h : Nat) : Fld := if h = 0 then .CTL_STATE_STATE_A else .CTL_STATE_STATE_B
def claimFld (h : Nat) : Fld := if h = 0 then .CTL_CLAIM_CLAIM_A else .CTL_CLAIM_CLAIM_B
def placeFld (h : Nat) : Fld := if h = 0 then .CTL_STATE_PLACE_A else .CTL_STATE_PLACE_B

def State.halfSt (s : State) (h : Nat) : Nat := s.fld (stateFld h)
def State.half (s : State) (h : Nat) : Half := if h = 0 then s.lane.a else s.lane.b
def State.setHalf (s : State) (h : Nat) (x : Half) : State := s.onLane (fun l => if h = 0 then { l with a := x } else { l with b := x })
def otherHalf (h : Nat) : Nat := 1 - h

/-- The half in a state, if any. -/
def State.halfIn (s : State) (st : Nat) : Option Nat := if s.halfSt 0 = st then some 0 else if s.halfSt 1 = st then some 1 else none

def State.laneOwner (s : State) : Nat := s.fld .CTL_CTRL_OWNER
def State.laneEvent (s : State) (code payload : Nat) : State := s.emit 11 0x40 code s.laneOwner payload

/-- The lane's own errors are reported to its owner with cause 0x000D (R293, R359). -/
def State.laneReport (s : State) (sev h : Nat) : State := s.report sev 0x000D 4 h 3 [s.laneOwner] 0

/-- HOLDER and SIMPLEX follow the halves' states; a lane that has lost the standby of its pair says so (R293). -/
def State.laneShow (s : State) : State :=
  let act := s.halfIn halfActive
  let two := act.isSome && (s.halfIn halfStandby).isSome
  let s := match act with
    | some h => s.setFld .CTL_STATE_HOLDER h
    | none => s
  let now := act.isSome && !two
  let had := s.lane.paired
  let s := if two then s.onLane (fun l => { l with paired := true }) else if now then s.onLane (fun l => { l with paired := false }) else s
  let h := act.getD 0
  let s := if now && had then s.laneEvent 7 (h * 2 ^ 16) else s
  let s := s.setFld .CTL_STATE_SIMPLEX (b2n now)
  if now && had then s.laneReport 3 h else s.evalState

def roleState (st : Nat) : Bool := st == halfActive || st == halfStandby

/-- A half enters a state (R283): the HALF_STATE event, its role epoch (R377). -/
def State.enterHalf (s : State) (h st : Nat) : State :=
  let old := s.halfSt h
  if old = st then s
  else
    let s := s.setFld (stateFld h) st
    let s := if roleState old || roleState st then s.bumpEpoch (roleHalf h) else s
    (s.laneEvent 3 (st + h * 2 ^ 16)).laneShow

/-! ### Places (R265, R287, R392) -/

/-- Logical tiles of a place, and its partition. A half on P8 holds L0.14 and L0.15 while P8 stands in for P0; while P8 stands in for another
cluster Pc, Lc.15 has no tile because of it (R287). -/
def State.placeTiles (s : State) (p : Nat) : List Nat :=
  match p with
  | 0 => [14, 15]
  | 1 => match s.logCluster 8 with
    | none => []
    | some 0 => [14, 15]
    | some l => [16 * l + 15]
  | _ => [126, 127]

def State.placePart (s : State) (p : Nat) : Nat × Nat :=
  (match p with
   | 0 => s.physCluster 0
   | 1 => 8
   | _ => s.physCluster 7, 13 * 2 ^ 20)

/-- Physical tiles of a place. -/
def State.placePhys (s : State) (p : Nat) : List Nat :=
  match p with
  | 0 => [s.physTile 14, s.physTile 15]
  | 1 => [8 * 17 + 15, 8 * 17 + 16]
  | _ => [s.physTile 126, s.physTile 127]

def State.halfTiles (s : State) (h : Nat) : List Nat := s.placePhys (s.fld (placeFld h))

/-- The tiles and partitions that the lane holds follow LANE_EN and the places of its halves: what it takes is emptied of work and
cleared, and what it releases is cleared and returned (R392). -/
def State.laneHold (s : State) : State :=
  let on := s.flag .CTL_CTRL_LANE_EN
  let ps := [s.fld .CTL_STATE_PLACE_A, s.fld .CTL_STATE_PLACE_B]
  let tiles := if on then (ps.map s.placeTiles).flatten.eraseDups else []
  let parts := if on then ps.map s.placePart else []
  let taken := tiles.filter (fun t => !s.laneTiles.contains t)
  let gone := s.laneTiles.filter (fun t => !tiles.contains t)
  let rs := (taken.filterMap s.tileRealm).eraseDups
  let s := taken.foldl (fun s t => (s.endTile (s.physTile t)).clearTile (s.physTile t)) s
  let s := gone.foldl (fun s t => s.clearTile (s.physTile t)) s
  let s := ((parts.filter (fun x => !s.laneParts.contains x)) ++ (s.laneParts.filter (fun x => !parts.contains x))).foldl State.clearPart s
  let s := { s with laneTiles := tiles, laneParts := parts }
  if rs.isEmpty then s else s.report 1 0x0012 0 (s.physTile (taken.headD 0)) 0 rs 0

/-! ### Packages (R271-R273, R275) -/

def layerCharge (m : Nat) (l : List (Nat × Nat)) (vector : Nat) : Nat := (l.map (fun x => x.1 * x.2 * max m 32)).sum + vector + 32

/-- The charge of group `g` of a package on the tile numbered lower, or its only tile, and on the other (R272). -/
def pkgCharge (p : LanePkg) (g : Nat) (x : LaneGroup) : Nat × Nat :=
  let m := x.rows * (p.axes.filter (fun a => a.group == g)).length
  (layerCharge m x.layers x.vector, if x.layers2.isEmpty then 0 else layerCharge m x.layers2 x.vector2)

/-- Groups in descending order of charge, lower numbers first on a tie. -/
def insertCharge (x : Nat × Nat) : List (Nat × Nat) → List (Nat × Nat)
  | [] => [x]
  | y :: t => if y.2 < x.2 then x :: y :: t else y :: insertCharge x t

/-- The tile that each group that is not split goes to, with the tiles' charges after it (R273). -/
def placeGroups : List (Nat × Nat) → Nat → Nat → List (Nat × Nat) × Nat × Nat
  | [], a, b => ([], a, b)
  | (g, c) :: t, a, b =>
    let r := if b < a then placeGroups t a (b + c) else placeGroups t (a + c) b
    ((g, if b < a then 1 else 0) :: r.1, r.2)

/-- The placement of a package: the tile of each unsplit group, and the two tiles' charges. -/
def pkgPlacement (p : LanePkg) : List (Nat × Nat) × Nat × Nat :=
  let gs := p.groups.zipIdx
  let split := gs.filter (fun x => !x.1.layers2.isEmpty)
  let whole := gs.filter (fun x => x.1.layers2.isEmpty)
  let a := (split.map (fun x => (pkgCharge p x.2 x.1).1)).sum
  let b := (split.map (fun x => (pkgCharge p x.2 x.1).2)).sum
  placeGroups ((whole.map (fun x => (x.2, (pkgCharge p x.2 x.1).1))).foldl (fun l x => insertCharge x l) []) a b

/-- L_cfg (R275). -/
def pkgLatency (p : LanePkg) : Nat := 256 + 96 + (max (pkgPlacement p).2.1 (pkgPlacement p).2.2 + 64) + 96 + 421

def pkgLength (p : LanePkg) : Nat := 5000 * 2 ^ p.plog

/-- The limits of R271. -/
def pkgInLimits (p : LanePkg) : Bool :=
  let ns := p.axes.map LaneAxis.axis
  decide (1 ≤ p.axes.length) && decide (p.axes.length ≤ 256) && ns.all (fun a => decide (a ≤ 255)) && decide (ns.eraseDups.length = ns.length)
  && decide (1 ≤ p.groups.length) && decide (p.groups.length ≤ 64)
  && p.axes.all (fun a => decide (a.group < p.groups.length) && decide (a.mac ≤ 2000000) && decide (a.inWords ≤ 7) && decide (a.outWords ≤ 7))
  && p.groups.all (fun g => decide (g.weights ≤ 2 ^ 22) && (decide (g.weights ≤ 2 ^ 21) || !g.layers2.isEmpty))
  && decide ((p.groups.map LaneGroup.weights).sum ≤ 2 ^ 22) && decide (p.init.length ≤ 65280) && p.pairsOk
  && decide (p.plog ≤ 6) && decide (p.cut % 8 = 0) && decide (p.cut + pkgLatency p + 800 ≤ pkgLength p)

/-- CTL_PERIOD and CTL_LAT show the installed package. -/
def State.showPkg (s : State) (p : LanePkg) : State :=
  (((s.setFld .CTL_PERIOD_PLOG p.plog).setFld .CTL_PERIOD_CUT (p.cut / 8)).setFld .CTL_LAT_LAT_GT (pkgLatency p)).setFld .CTL_LAT_AXES p.axes.length

/-! ### Claims (R280-R282) -/

/-- Claim a is higher than claim b. -/
def claimHigher (a b : Nat) : Bool :=
  a != 0 && (b == 0 || (decide (1 ≤ (a + 65536 - b) % 65536) && decide ((a + 65536 - b) % 65536 ≤ 32767)))

def State.nextClaim (s : State) : Nat := if s.fld .CTL_CLAIM_LAST_LAST = 0xFFFF then 1 else s.fld .CTL_CLAIM_LAST_LAST + 1

/-- A half announces a claim: the egress unit accepts 0 and any claim higher than LAST, and ignores any other (R281). -/
def State.announce (s : State) (h c : Nat) : State :=
  let s := s.setFld (claimFld h) c
  if c = 0 then s.setHalf h { s.half h with accepted := 0 }
  else if claimHigher c (s.fld .CTL_CLAIM_LAST_LAST) then (s.setHalf h { s.half h with accepted := c }).setFld .CTL_CLAIM_LAST_LAST c
  else s.setSts .CTL_STS [13]

/-- May a half's frames pass the egress unit? -/
def State.egressOpen (s : State) (h : Nat) : Bool := claimHigher (s.half h).accepted (s.half (otherHalf h)).accepted

/-! ### Checkpoints (R288) -/

def ckptSlot : Nat := 2 ^ 17

def State.ckptAddr (s : State) (i : Nat) : Nat := lpddrBase + s.fld .CTL_CKPT_BASE_BASE * 4096 + i * ckptSlot

/-- The bytes of a checkpoint: period count, claim, length, state, CRC-32C (log entry 22 for their places). -/
def ckptBytes (c : LaneCopy) (claim : Nat) (digest : List Nat) : List Nat :=
  let b := leBytes 8 c.period ++ leBytes 4 claim ++ leBytes 4 c.bytes.length ++ padTo32 digest ++ c.bytes
  b ++ leBytes 4 (crc32c b)
where
  padTo32 (l : List Nat) : List Nat := l.take 32 ++ List.replicate (32 - l.length) 0

/-- A valid checkpoint in a slot: its CRC stands. -/
def State.ckptRead (s : State) (i : Nat) : Option LaneCopy :=
  let a := s.ckptAddr i
  let n := s.num (a + 12) 4
  let b := s.bytes a (48 + min n 65536)
  if n ≤ 65280 ∧ s.num (a + 48 + n) 4 = crc32c b ∧ !s.mem.isBad a (52 + n) then some { period := s.num a 8, bytes := b.drop 48 } else none

/-- The newest valid checkpoint, and the slot that is older or not valid. -/
def State.ckptNewest (s : State) : Option LaneCopy :=
  match s.ckptRead 0, s.ckptRead 1 with
  | some a, some b => if a.period ≤ b.period then some b else some a
  | some a, none => some a
  | none, b => b

def State.ckptOlder (s : State) : Nat :=
  match s.ckptRead 0, s.ckptRead 1 with
  | none, _ => 0
  | some _, none => 1
  | some a, some b => if a.period ≤ b.period then 0 else 1

/-! ### Losing and starting the lane (R283, R289) -/

/-- The package that a half runs. -/
def State.halfPkg (s : State) (h : Nat) : Option LanePkg :=
  if (s.half h).fresh then (match s.lane.seq.bind LaneSeq.pkg with
    | some p => some p
    | none => s.lane.pkg) else s.lane.pkg

/-- A half that has reached LOAD of a lost lane: the newest valid checkpoint, or the initial state; claim LAST + 1 (R289). -/
def State.restartHalf (s : State) (h : Nat) : State :=
  match s.halfPkg h with
  | none => s
  | some p =>
    let c := s.ckptNewest
    let s := if c.isNone then s.setSts .CTL_STS [10] else s
    let s := s.setHalf h { s.half h with loaded := true, arming := .restart, copy := some (c.getD { period := 0, bytes := p.init }) }
    let s := (s.onLane (fun l => { l with stale := true })).announce h s.nextClaim
    let now := s.lane.period.getD 0
    let at_ := (c.map LaneCopy.period).getD 0
    let lost := if c.isNone then now + 1 else now - at_
    s.laneEvent 5 (at_ % 2 ^ 32 + lost % 2 ^ 32 * 2 ^ 32 + b2n c.isNone * 2 ^ 64)

/-- The lane is lost (R289); a half that waits in LOAD restarts it. -/
def State.loseLane (s : State) : State :=
  if s.flag .CTL_STATE_LOST then s
  else
    let s := (((s.setFld .CTL_STATE_LOST 1).onLane (fun l => { l with sent := none })).setSts .CTL_STS [2]).laneEvent 4 (s.fld .CTL_CLAIM_LAST_LAST)
    let s := s.laneReport 4 ((s.halfIn halfFailed).getD 0)
    match [0, 1].find? (fun h => s.halfSt h == halfLoad && (s.half h).loaded && (s.half h).arming == .none) with
    | some h => s.restartHalf h
    | none => s

/-- A half fails (R283). -/
def State.failHalf (s : State) (h : Nat) : State :=
  let s := s.setHalf h { (s.half h) with arming := .none, mark := .none, loaded := false }
  s.enterHalf h halfFailed

/-- The ACTIVE half gives up its claim on a failed check; with no STANDBY half the lane is lost (R284, R289). -/
def State.selfFail (s : State) (h check : Nat) : State :=
  let s := ((s.announce h 0).setSts .CTL_STS [1]).laneEvent 2 (check % 16 + h * 2 ^ 16)
  let s := (s.laneReport 2 h).failHalf h
  if (s.halfIn halfStandby).isNone then s.loseLane else s

/-- A half goes to OFF. -/
def State.halfToOff (s : State) (h : Nat) : State :=
  ((s.announce h 0).setHalf h { fresh := false, nextPlace := (s.half h).nextPlace }).enterHalf h halfOff

/-- A half is brought in: at the place firmware has chosen for it, from SCRUB (R283, R287). -/
def State.bringIn (s : State) (h : Nat) (fresh : Bool) : State :=
  let s := match (s.half h).nextPlace with
    | some p => (s.setFld (placeFld h) p).laneHold
    | none => s
  (s.setHalf h { fresh := fresh }).enterHalf h halfScrub

/-- An update of the lane ends (R292). -/
def State.seqDone (s : State) : State :=
  let s := s.onLane (fun l => { l with seq := none, a := { l.a with fresh := false }, b := { l.b with fresh := false } })
  (((s.setFld .CTL_STATE_INSTALL 2).setFld .CTL_STATE_INSTALL_ERR 0).setSts .CTL_STS [11]).laneEvent 0x0B 0

def State.seqFail (s : State) : State :=
  let s := s.onLane (fun l => { l with seq := none, a := { l.a with fresh := false }, b := { l.b with fresh := false } })
  (((s.setFld .CTL_STATE_INSTALL 3).setFld .CTL_STATE_INSTALL_ERR 6).setSts .CTL_STS [11]).laneEvent 0x0B 6

/-- A half becomes STANDBY; the last half of an update ends it (R292). -/
def State.toStandby (s : State) (h : Nat) : State :=
  let s := (s.setHalf h { s.half h with bad := 0, loaded := false }).enterHalf h halfStandby
  match s.lane.seq with
  | some q => if q.stage = 2 ∧ (s.half h).fresh then s.seqDone else s
  | none => s

/-- An update of the lane begins with its STANDBY half (R292). -/
def State.startSeq (s : State) (pkg : Option LanePkg) (swapAt : Nat) : State :=
  match s.halfIn halfStandby with
  | none => s
  | some h => ((s.onLane (fun l => { l with seq := some { first := h, pkg := pkg, swapAt := swapAt } })).halfToOff h).bringIn h true

/-- A failed half whose unit has been replaced is brought in with AUTO_REPAIR (R283). -/
def State.autoRepair (s : State) (h : Nat) : State :=
  if s.halfSt h = halfFailed ∧ s.flag .CTL_CTRL_AUTO_REPAIR ∧ s.flag .CTL_CTRL_LANE_EN then s.bringIn h false else s

/-! ### Frames (R276, R277) -/

/-- The lane header of an output frame. -/
def State.laneHeader (s : State) (axis words period holds : Nat) (hold stale resume : Bool) : Nat :=
  1 + axis % 256 * 2 ^ 8 + words % 16 * 2 ^ 16 + b2n hold * 2 ^ 20 + b2n stale * 2 ^ 21
    + b2n (s.flag .CTL_STATE_LOST || s.flt.failed) * 2 ^ 22 + b2n resume * 2 ^ 23 + min 255 holds * 2 ^ 24 + period % 2 ^ 32 * 2 ^ 32

/-- The control ports are gated, or TRIP has stopped them (R428, R495). -/
def State.portsOff (s : State) : Bool := s.gated gPorts || s.flag .THM_STATE_TRIP

/-- A frame on every port of the axis's output stream that is in use: headers, EtherType, lane header, words, padding. -/
def State.laneFrame (s : State) (p : LanePkg) (a : LaneAxis) (hdr : Nat) (ws : List Nat) : State :=
  let b := a.header ++ beBytes 2 p.etherType ++ leBytes 8 hdr ++ (ws.map (leBytes 8)).flatten
  let b := b ++ List.replicate (60 - b.length) 0
  (a.ports.filter (fun q => s.flag .CTL_PORT_STS_LINK_UP 0 q && !s.portsOff)).foldl (fun s q => s.send (.frame q b)) s

def State.axisOut (s : State) (a : Nat) : AxisOut := Tab.get (fun _ => {}) s.lane.outs a
def State.setAxisOut (s : State) (a : Nat) (x : AxisOut) : State := s.onLane (fun l => { l with outs := Tab.set (fun _ => {}) a x l.outs })
def State.axisIn (s : State) (a : Nat) : AxisIn := Tab.get (fun _ => {}) s.lane.ins a
def State.setAxisIn (s : State) (a : Nat) (x : AxisIn) : State := s.onLane (fun l => { l with ins := Tab.set (fun _ => {}) a x l.ins })

/-- The frames of a live answer pass the egress unit while the half's claim is the higher one; otherwise they are counted (R281). -/
def State.liveFrame (s : State) (h k : Nat) (p : LanePkg) (resume : Bool) (o : Nat × List Nat) : State :=
  match p.axes.find? (fun a => a.axis == o.1) with
  | none => s
  | some a =>
    if !s.egressOpen h || s.flt.failed then s.bumpWrap .CTL_PERF_REJECT_COUNT 1
    else
      let ws := o.2.take a.outWords
      (s.laneFrame p a (s.laneHeader a.axis ws.length k 0 false s.lane.stale resume) ws).setAxisOut a.axis
        { words := ws, period := k, holds := 0, live := true, stale := s.lane.stale }

/-- A HOLD frame repeats the last live frame of its axis (R282). -/
def State.holdFrame (s : State) (p : LanePkg) (a : LaneAxis) : State :=
  let x := s.axisOut a.axis
  if x.live then s
  else
    let n := min 255 (x.holds + 1)
    let ws := if x.words.isEmpty then List.replicate a.outWords 0 else x.words
    ((s.laneFrame p a (s.laneHeader a.axis ws.length x.period n true x.stale false) ws).setAxisOut a.axis { x with holds := n }).bumpWrap .CTL_PERF_HOLD_COUNT 1

end Sys2Proof.Machine
end

