-- ==== Sys2Proof/Machine/Clk.lean ====
section
/-! DEFINITION. Clocks, the trim of the RC oscillator, the frequency monitor, low power and gating (R421-R428, R444, R445). -/

namespace Sys2Proof.Machine

def State.onClk (s : State) (f : Clk → Clk) : State := { s with clk := f s.clk }

/-- The loops are stable and the Gauge counts (R448 step 2). -/
def State.running_ (s : State) : Bool := s.up && s.boot.pllStable

/-- A change that needs the die's clocks. -/
def State.whenClocked (s : State) (f : State → State) : Res := .next (if s.running_ then f s else s)

/-- A TIME event of the management domain (R443). -/
def State.timeEvent (s : State) (src code payload : Nat) : State := s.emit src 0x60 code mgmtRealm payload

/-! ### Trimming (R426) -/

/-- The chain delivers frames: a good one came within the last 8. -/
def State.chainDelivers (s : State) : Bool := s.fld .STV_STATE_ATTACH != 0 && decide (0 < s.stave.good) && decide (s.gauge < s.stave.lastGood + 320000)

/-- One trim: by the oscillator's count, `dir` is 0 to stay, 1 to step up, 2 to step down; `ok` when it is then within ±0.2%. -/
def State.trim (s : State) (dir : Nat) (ok : Bool) : State :=
  let src := if s.flag .CLK_STATE_REF_OK then 1 else if s.flag .CLK_CTRL_TRIM_STAVE && s.chainDelivers then 2 else 0
  if src = 0 then s.setSts .CLK_STS [4]
  else
    let s := s.setFld .CLK_TRIM_SRC src
    let c := s.fld .CLK_TRIM_CODE
    if (dir = 1 ∧ c = 511) ∨ (dir = 2 ∧ c = 0) then (s.setFld .CLK_STATE_RC_TRIMMED (b2n ok)).setSts .CLK_STS [4]
    else (s.setFld .CLK_TRIM_CODE (if dir = 1 then c + 1 else if dir = 2 then c - 1 else c)).setFld .CLK_STATE_RC_TRIMMED (b2n ok)

/-- RETRIM: a trim at once. -/
def execRetrim (w : Win) (dir : Nat) (ok : Bool) (s : State) : Res := s.fwCommand w .CLK_CMD 0 1 (fun s => s.trim dir ok)

/-- RC_TRIM: the trim of every 10 ms, while AUTO_TRIM is 1. -/
def execRcTrim (dir : Nat) (ok : Bool) (s : State) : Res := s.whenUp (fun s => if s.flag .CLK_CTRL_AUTO_TRIM then s.trim dir ok else s)

/-! ### The frequency monitor (R425) -/

/-- The number of the Gauge domain among the clock domains of R421, in the order of its table. -/
def gaugeDomain : Nat := 0

/-- FREQUENCY_MONITOR_WINDOW: the domains outside ±1,000 ppm in this window; twice in a row is FATAL. -/
def execFrequencyMonitorWindow (bad : List Nat) (s : State) : Res :=
  s.whenClocked (fun s =>
    let bad := bad.filter (fun d => decide (d < 10) && d != gaugeDomain)
    let again := bad.any (fun d => s.clk.lastBad.contains d)
    let s := s.onClk (fun c => { c with lastBad := bad })
    if again then (s.setSts .CLK_STS [3]).report 5 0x0011 4 0 3 s.evRealms 0 else s)

/-- REF_LOSS: the tray reference is lost; every loop holds, and the domains run on. -/
def execRefLoss (s : State) : Res :=
  s.whenUp (fun s =>
    if !s.flag .CLK_STATE_REF_OK then s
    else
      let s := ((s.setFld .CLK_STATE_REF_OK 0).setFld .CLK_STATE_HOLDOVER 1).setSts .CLK_STS [0]
      (s.timeEvent 1 1 0).report 4 0x0011 4 0 3 s.evRealms 0)

/-- REF_BACK: a returned reference has passed its check (R424, R425). -/
def execRefBack (s : State) : Res :=
  s.whenClocked (fun s =>
    if s.flag .CLK_STATE_REF_OK then s
    else (((s.setFld .CLK_STATE_REF_OK 1).setFld .CLK_STATE_HOLDOVER 0).setSts .CLK_STS [1]).timeEvent 1 1 1)

/-- Bit of CLK_STATE.PLL_OK of a loop: PLL_A, PLL_V, PLL_C, PLL_P. -/
def clearBit (n i : Nat) : Nat := if bit n i then n - 2 ^ i else n

/-- PLL_UNLOCK: a loop loses lock after start. -/
def execPllUnlock (loop : Nat) (s : State) : Res :=
  s.whenClocked (fun s => if 4 ≤ loop then s else (s.setFld .CLK_STATE_PLL_OK (clearBit (s.fld .CLK_STATE_PLL_OK) loop)).setSts .CLK_STS [2])

/-! ### Low power and ramps (R423, R427) -/

/-- A change of the dividers begins when what is asked for is not in effect. -/
def State.rampStart (s : State) : State :=
  if s.flag .CLK_CTRL_LOW_POWER != s.flag .CLK_STATE_LOW_POWER then s.setFld .CLK_STATE_RAMP_BUSY 1 else s

/-- The module itself sets LOW_POWER, or clears what it set (R483). -/
def State.forceLow (s : State) (on : Bool) : State :=
  if on then
    (if s.flag .CLK_CTRL_LOW_POWER then s
     else (((s.onClk (fun c => { c with forced := true })).setFld .CLK_CTRL_LOW_POWER 1).rampStart).setSts .PWR_STS [1])
  else if s.clk.forced then ((s.onClk (fun c => { c with forced := false })).setFld .CLK_CTRL_LOW_POWER 0).rampStart
  else s

/-- Software's own write of LOW_POWER. -/
def State.lowPowerSet (s : State) (on : Bool) : State := ((s.onClk (fun c => { c with forced := false })).setFld .CLK_CTRL_LOW_POWER (b2n on)).rampStart

/-- LOW_POWER_WRITE: a write of CLK_CTRL that changes LOW_POWER alone. -/
def execLowPowerWrite (w : Win) (on : Bool) (s : State) : Res :=
  s.fwCommand w .CLK_CTRL 0 ((s.word .CLK_CTRL).toNat / 2 * 2 + b2n on) (fun s => s.lowPowerSet on)

/-- CLOCK_RAMP_DONE: a change by R427 has ended. -/
def execClockRampDone (s : State) : Res :=
  s.whenUp (fun s =>
    if !s.flag .CLK_STATE_RAMP_BUSY then s
    else ((s.setFld .CLK_STATE_RAMP_BUSY 0).setFld .CLK_STATE_LOW_POWER (s.fld .CLK_CTRL_LOW_POWER)).setSts .CLK_STS [5])

/-! ### Gating (R428) -/

/-- The gates that CLK_GATE and CLK_TILE_GATE ask for. -/
def State.gatesWanted (s : State) : List Nat :=
  ((List.range 9).map (fun c => ((List.range 17).filter (fun t => bit (s.fld .CLK_TILE_GATE_TILE 0 c) t)).map (17 * c + ·))).flatten
  ++ ((List.range 9).filter (fun c => bit (s.fld .CLK_GATE_CLUSTER) c)).map (256 + ·)
  ++ (if s.flag .CLK_GATE_VIDEO then [gVideo] else []) ++ (if s.flag .CLK_GATE_SERVING then [gServing] else [])
  ++ (if s.flag .CLK_GATE_PORTS then [gPorts] else [])

def halfPlaces (s : State) : List Nat := s.halfTiles 0 ++ s.halfTiles 1

/-- The control lane holds the block while LANE_EN is 1. -/
def State.laneBlock (s : State) (k : Nat) : Bool :=
  s.flag .CTL_CTRL_LANE_EN &&
    (if k < 153 then (halfPlaces s).contains k
     else if 256 ≤ k && k < 265 then (halfPlaces s).any (fun p => p / 17 == k - 256) || s.laneParts.any (fun x => x.1 == k - 256)
     else k == gPorts)

def State.tileBusy (s : State) (p : Nat) : Bool := (s.tile p).cur.isSome || (s.tile p).st == .running

/-- The block holds work. -/
def State.blockBusy (s : State) (k : Nat) : Bool :=
  if k < 153 then s.tileBusy k
  else if 256 ≤ k ∧ k < 265 then
    (List.range 17).any (fun t => s.tileBusy (17 * (k - 256) + t)) || (s.cluster (k - 256)).tceRun.isSome || (s.cluster (k - 256)).s2dRun.isSome
  else if k = gVideo then !s.vid.cores.isEmpty
  else if k = gServing then !s.srv.steps.isEmpty
  else false

/-- Gates take effect as the bits ask: a busy block's waits, a block of the lane's is ignored, a cleared bit restarts the clock. -/
def State.gateApply (s : State) : State :=
  let want := s.gatesWanted.filter (fun k => !s.laneBlock k)
  let on := want.filter (fun k => s.boot.gates.contains k || !s.blockBusy k)
  let back := s.boot.gates.any (fun k => !s.gatesWanted.contains k)
  let s := s.onBoot (fun b => { b with gates := on })
  let s := s.setFld .CLK_STATE_GATE_PEND (b2n (want.length != on.length))
  if back then s.setFld .CLK_STATE_RAMP_BUSY 1 else s

/-- GATE_WRITE: a write of CLK_GATE, or of CLK_TILE_GATE for the cluster that CLK_TILE_SEL selects. -/
def State.gateWrite (s : State) (tiles : Bool) (v : Nat) : State :=
  let c := s.fld .CLK_TILE_SEL_CLU
  if tiles then (if c < 9 then (s.setFld .CLK_TILE_GATE_TILE v 0 c).gateApply else s)
  else (s.setWord .CLK_GATE 0 0 (BitVec.ofNat 32 (v % 2 ^ 12))).gateApply

def execGateWrite (w : Win) (tiles : Bool) (v : Nat) (s : State) : Res :=
  s.fwCommand w (if tiles then .CLK_TILE_GATE else .CLK_GATE) 0 v (fun s => s.gateWrite tiles v)

/-- GATE_PEND_APPLY: the work of a block with a pending gate has ended. -/
def execGatePendApply (s : State) : Res := s.whenUp (fun s => if s.flag .CLK_STATE_GATE_PEND then s.gateApply else s)

end Sys2Proof.Machine
end

