-- ==== Sys2Proof/Machine/Sec.lean ====
section
/-! DEFINITION. The root of trust: management commands, realms, key slots, attestation, debug (R387-R409). -/

namespace Sys2Proof.Machine

def State.onSec (s : State) (f : Sec → Sec) : State := { s with sec := f s.sec }

/-! ### Command statuses (R389) -/

def cmdOk : Nat := 0
def cmdBadSig : Nat := 1
def cmdBadNonce : Nat := 2
def cmdBadFormat : Nat := 3
def cmdInUse : Nat := 4
def cmdBadState : Nat := 5
def cmdTrial : Nat := 6
def cmdReadErr : Nat := 7

def opOwnerSet : Nat := 0x01
def opOwnerClear : Nat := 0x02
def opRealmCreate : Nat := 0x10
def opRealmDestroy : Nat := 0x11
def opFwActivate : Nat := 0x20
def opFwDisarm : Nat := 0x21
def opDebugArm : Nat := 0x30
def opDebugDisarm : Nat := 0x31

/-- Update states (R411). -/
def fwuIdle : Nat := 0
def fwuVerify : Nat := 1
def fwuApply : Nat := 2
def fwuCheck : Nat := 3
def fwuStaged : Nat := 4
def fwuArmed : Nat := 5
def fwuTrial : Nat := 6
def fwuFallback : Nat := 7

def State.fwuSt (s : State) : Nat := s.fld .FWU_STATE_STATE

/-- A change of the update's state is shown and emits FW_STATE (R404, R411). -/
def State.fwuEnter (s : State) (st err : Nat) : State :=
  ((s.setFld .FWU_STATE_STATE st).setFld .FWU_STATE_ERR err).emit 0 0x70 7 mgmtRealm (st + err * 2 ^ 8)

/-! ### Command blocks (R388, R389) -/

/-- The block as the root of trust reads it: its header, ARGS and SIG. -/
def State.secBlock (s : State) : List Nat :=
  let a := ((s.word .SEC_CMD_ADDR_LO).toNat + (s.word .SEC_CMD_ADDR_HI).toNat * 2 ^ 32) / 64 * 64
  s.bytes (hostBase + a) (128 + min 448 (s.num (hostBase + a + 2) 2))

def blockOp (b : List Nat) : Nat := fieldOf b 1 1
def blockArgs (b : List Nat) : List Nat := (b.drop 64).take (fieldOf b 2 2)
def blockSig (b : List Nat) : List Nat := (b.drop (64 + fieldOf b 2 2)).take 64

/-- The grant of REALM_CREATE is in range: its length, Reserved fields and units (R391). -/
def grantOk (g : List Nat) : Bool :=
  let n := fieldOf g 2 1
  decide (fieldOf g 0 1 < 4) && decide (fieldOf g 1 1 < 4) && decide (1 ≤ n) && decide (n ≤ 8) && fieldOf g 3 1 == 0 && g.length == 8 + 8 * n
  && (List.range n).all (fun i => decide (1 ≤ fieldOf g (12 + 8 * i) 4) && decide (fieldOf g (8 + 8 * i) 4 + fieldOf g (12 + 8 * i) 4 ≤ 0xE00))

def grantRegions (g : List Nat) : List (Nat × Nat) := (List.range (fieldOf g 2 1)).map (fun i => (fieldOf g (8 + 8 * i) 4, fieldOf g (12 + 8 * i) 4))

/-- ARGS of each command in range. -/
def argsOk (op : Nat) (a : List Nat) : Bool :=
  match op with
  | 0x01 => a.length == 64
  | 0x02 => a.length == 0
  | 0x10 => grantOk a
  | 0x11 => a.length == 1 && decide (fieldOf a 0 1 < 4)
  | 0x20 => a.length == 8
  | 0x21 => a.length == 0
  | 0x30 => a.length == 9 && (fieldOf a 0 1 == 1 || fieldOf a 0 1 == 2)
  | 0x31 => a.length == 0
  | _ => false

def blockFormatOk (b : List Nat) : Bool :=
  fieldOf b 0 1 == 1 && decide (fieldOf b 2 2 ≤ 448) && ((b.drop 4).take 4).all (· == 0) && ((b.drop 24).take 40).all (· == 0)
  && b.length == 128 + fieldOf b 2 2 && argsOk (blockOp b) (blockArgs b)

def State.nonce (s : State) : Nat := (s.word .SEC_NONCE_LO).toNat + (s.word .SEC_NONCE_HI).toNat * 2 ^ 32

/-- SEC_NONCE changes to a fresh value. -/
def State.newNonce (s : State) : State :=
  let q := s.drawRandom
  (q.2.setWord .SEC_NONCE_LO 0 0 (BitVec.ofNat 32 q.1)).setWord .SEC_NONCE_HI 0 0 (BitVec.ofNat 32 (q.1 / 2 ^ 32))

/-- The signature stands under the key that the command needs; OWNER_SET of a module without an owner is unsigned. -/
def State.secSigned (s : State) (b : List Nat) : Bool :=
  let msg := b.take (64 + fieldOf b 2 2)
  if blockOp b = opOwnerClear then ecdsaVerify (Config.releaseKey 0, Config.releaseKey 1) msg (blockSig b)
  else if s.flag .SEC_STATE_OWNED then ecdsaVerify (bytesPoint s.sec.owner) msg (blockSig b)
  else blockOp b == opOwnerSet && (blockSig b).all (· == 0)

/-! ### Realms (R390-R394) -/

def rlmCode (x : RealmSt) : Nat := match x with
  | .absent => 0
  | .creating => 1
  | .active => 2
  | .destroying => 3

/-- SEC_RLM_STATE and SEC_RLM_TILES of a realm follow its record. -/
def State.rlmShow (s : State) (r : Nat) : State :=
  let x := s.realm r
  let s := ((s.setFld .SEC_RLM_STATE_STATE (rlmCode x.st) 0 r).setFld .SEC_RLM_STATE_DRAWER (b2n x.drawer) 0 r).setFld .SEC_RLM_STATE_LANE (b2n x.lane) 0 r
  ((s.setFld .SEC_RLM_STATE_REGIONS x.regions.length 0 r).setFld .SEC_RLM_STATE_CREATED (satAt 0xFFFF x.created) 0 r).setFld .SEC_RLM_TILES_GROUPS x.groups 0 r

/-- A realm changes state (R404). -/
def State.rlmEnter (s : State) (r : Nat) (x : Realm) : State :=
  (((s.setRealm r x).rlmShow r).setSts .SEC_STS [4]).emit 0 0x70 2 r (r + rlmCode x.st * 2 ^ 2)

/-- Units of 64 MiB that realms may hold: those below the channel reserve (R369, R392). -/
def State.unitLimit (s : State) : Nat := if s.flag .FLT_CTRL_CHAN_RESERVE then 3472 else 3584

def apart (a b : Nat × Nat) : Bool := decide (a.1 + a.2 ≤ b.1) || decide (b.1 + b.2 ≤ a.1)

/-- Nothing of a grant belongs to another realm, the channel reserve or the management area (R392). -/
def State.grantFree (s : State) (g : List Nat) : Bool :=
  let others := ((List.range 4).map s.realm).filter (fun x => x.st != .absent)
  (s.realm (fieldOf g 0 1)).st == .absent && others.all (fun x => decide (Nat.land x.groups (fieldOf g 4 4) = 0))
  && (grantRegions g).all (fun p => decide (64 ≤ p.1) && decide (p.1 + p.2 ≤ s.unitLimit) && others.all (fun x => x.regions.all (apart p)))

def grantRealm (g : List Nat) (created : Nat) (st : RealmSt) : Realm :=
  { st := st, drawer := bit (fieldOf g 1 1) 0, lane := bit (fieldOf g 1 1) 1, regions := grantRegions g, groups := fieldOf g 4 4, created := created }

/-- Clear a cluster store outside the lane's partitions, by MiB (R394). -/
def State.clearStore (s : State) (c : Nat) : State :=
  ((List.range 16).filter (fun k => !s.laneParts.contains (c, k * 2 ^ 20))).foldl (fun s k => s.clearPart (c, k * 2 ^ 20)) s

/-- The resources of a realm are cleared (R394): its tiles, the stores of clusters it owns whole, its regions, its page-map entries. -/
def State.rlmClear (s : State) (r : Nat) : State :=
  let x := s.realm r
  let tiles := (List.range 128).filter (fun lt => bit x.groups (lt / 4) && !s.laneHolds lt && decide (s.physCluster (lt / 16) < 9))
  let clus := (List.range 8).filter (fun l => bits x.groups (4 * l) 4 == 15 && decide (s.physCluster l < 9))
  let s := tiles.foldl (fun s lt => s.clearTile (s.physTile lt)) s
  let s := clus.foldl (fun s l => s.clearStore (s.physCluster l)) s
  let s := x.regions.foldl (fun s p => s.onMem (fun m => m.clear (lpddrBase + p.1 * 2 ^ 26) (p.2 * 2 ^ 26))) s
  s.onKvm (fun k => { k with ents := k.ents.filter (fun e => e.2.realm != r), skeins := k.skeins.filter (fun q => q.2.realm != r),
                             prefixes := k.prefixes.filter (fun p => p.2.realm != r) })

/-- SEC_SLOTS of a realm. -/
def State.slotsShow (s : State) (r : Nat) : State := s.setFld .SEC_SLOTS_LOADED ((s.keys.filter (fun e => e.1 / 256 == r)).length) 0 r

/-- Key slots are emptied: those of one realm, or all (R397). -/
def State.dropKeys (s : State) (r : Nat) : State := ({ s with keys := s.keys.filter (fun e => e.1 / 256 != r) } : State).slotsShow r
def State.dropAllKeys (s : State) : State := (List.range 4).foldl (fun s r => s.dropKeys r) s

/-- A realm's work ends (R394, R447): its rings as a ring reset ends them. -/
def State.endRings (s : State) (r : Nat) : State := (List.range 64).foldl (fun s n => (s.ringEnd r n).2) s

/-- A realm begins to be destroyed (R394). -/
def State.rlmDestroy (s : State) (r : Nat) : State :=
  let s := (s.dropKeys r).endRings r
  let s := (s.srv.reqs.filter (fun e => e.2.realm == r && e.2.live)).foldl (fun s e => s.endRequest e.1 stCancelled 2) s
  let s := s.onSrv (fun v => { v with steps := Tab.del r v.steps })
  let s := (s.srv.models.filter (fun e => e.2.realm == r && e.2.st != .absent)).foldl (fun s e => (s.setModel e.1 {}).modelEvent e.1 r 0 0) s
  let s := (s.vid.strms.filter (fun e => e.1 / 256 == r && e.2.st != .closed)).foldl (fun s e => s.closeStrm e.1) s
  let s := if (s.det.swatch.map Swatch.realm) = some r then (s.setSwatch none).swatchShow else s
  s.rlmEnter r { s.realm r with st := .destroying }

/-- May REALM_DESTROY of a realm run (R394)? -/
def State.mayDestroy (s : State) (r : Nat) : Bool := (s.realm r).st == .active && !(s.fld .CTL_CTRL_OWNER == r && s.flag .CTL_CTRL_LANE_EN)

/-! ### Running a command -/

/-- The result of a command (R388, R404). -/
def State.secResult (s : State) (op code : Nat) : State :=
  let s := ((s.setFld .SEC_CMD_STS_OP op).setFld .SEC_CMD_STS_CODE code).setFld .SEC_STATE_CMD_BUSY 0
  if code = cmdOk then s.setSts .SEC_STS [0]
  else ((s.setSts .SEC_STS [1]).bumpWrap .SEC_PERF_REJECT_COUNT 1).emit 0 0x70 1 mgmtRealm (op + code * 2 ^ 8)

/-- The armed count of an activation, in FWU_ACT. -/
def State.setAct (s : State) (c : Nat) : State :=
  (s.setWord .FWU_ACT_LO 0 0 (BitVec.ofNat 32 c)).setWord .FWU_ACT_HI 0 0 (BitVec.ofNat 32 (c / 2 ^ 32))

/-- SEC_STATE.DEBUG and SEC_DEBUG show the armed mode (R404, R409). -/
def State.debugSet (s : State) (mode until_ : Nat) : State :=
  let s := s.onSec (fun x => { x with debugUntil := if mode = 0 then 0 else until_ })
  ((s.setFld .SEC_STATE_DEBUG mode).setFld .SEC_DEBUG_EXPIRY (if mode = 0 then 0 else bits until_ 8 32)).emit 0 0x70 6 mgmtRealm mode

/-- Is a firmware image on trial (R411, R416)? -/
def State.onTrial (s : State) : Bool := s.fwuSt == fwuTrial || s.fwuSt == fwuFallback

/-- The state that refuses a command whose block passed (R389, R392, R394, R411, R412, R416). -/
def State.secRefuse (s : State) (op : Nat) (a : List Nat) : Nat :=
  if (op = opOwnerSet ∨ op = opRealmCreate ∨ op = opRealmDestroy) ∧ s.onTrial then cmdTrial
  else match op with
    | 0x02 => if (s.realm (s.fld .CTL_CTRL_OWNER)).st != .absent && decide (s.fld .CTL_CTRL_OWNER < 4) && s.flag .CTL_CTRL_LANE_EN then cmdBadState else cmdOk
    | 0x10 => if s.grantFree a then cmdOk else cmdInUse
    | 0x11 => if s.mayDestroy (fieldOf a 0 1) then cmdOk else cmdBadState
    | 0x20 => if s.fwuSt = fwuStaged ∧ s.gauge + 320000000 ≤ fieldOf a 0 8 ∧ fieldOf a 0 8 ≤ s.gauge + 2 ^ 40 then cmdOk else cmdBadState
    | 0x21 => if s.fwuSt = fwuArmed then cmdOk else cmdBadState
    | _ => cmdOk

/-- The owner is cleared once no realm is left (R389). -/
def State.ownerGone (s : State) : State := (s.onSec (fun x => { x with owner := [], waiting := none })).setFld .SEC_STATE_OWNED 0

/-- OWNER_SET: the key is stored; another key than the one before empties every key slot (R389, R397). -/
def State.ownerSet (s : State) (a : List Nat) : State :=
  (((if s.sec.owner = a then s else s.dropAllKeys).onSec (fun x => { x with owner := a })).setFld .SEC_STATE_OWNED 1).secResult opOwnerSet cmdOk

/-- OWNER_CLEAR: the owner goes at once, or once the realms that are left have been destroyed (R389, R394). -/
def State.ownerClear (s : State) : State :=
  let rs := (List.range 4).filter (fun r => (s.realm r).st != .absent)
  if rs.isEmpty then s.ownerGone.secResult opOwnerClear cmdOk
  else
    let s := (rs.filter (fun r => (s.realm r).st == .active)).foldl (fun s r => s.rlmDestroy r) s
    (s.onSec (fun x => { x with waiting := some (opOwnerClear, 4) })).setFld .SEC_STATE_CMD_BUSY 1

/-- REALM_CREATE: the realm is CREATING with the resources of its grant (R390-R392). -/
def State.realmCreate (s : State) (a : List Nat) : State :=
  let r := fieldOf a 0 1
  let s := s.onSec (fun x => { x with grants := Tab.put r a x.grants, waiting := some (opRealmCreate, r) })
  (s.rlmEnter r (grantRealm a ((s.realm r).created + 1) .creating)).setFld .SEC_STATE_CMD_BUSY 1

/-- REALM_DESTROY: the realm's work ends and it is DESTROYING (R394). -/
def State.realmDestroy (s : State) (a : List Nat) : State :=
  ((s.rlmDestroy (fieldOf a 0 1)).onSec (fun x => { x with waiting := some (opRealmDestroy, fieldOf a 0 1) })).setFld .SEC_STATE_CMD_BUSY 1

/-- FW_ACTIVATE: the staged image is armed for a count (R412). -/
def State.fwActivate (s : State) (a : List Nat) : State :=
  (((s.onSec (fun x => { x with count := fieldOf a 0 8 })).setAct (fieldOf a 0 8)).fwuEnter fwuArmed 0).secResult opFwActivate cmdOk

/-- The effect of a command that is not refused. REALM_CREATE, REALM_DESTROY and OWNER_CLEAR run until their clears have completed. -/
def State.secAct (s : State) (op : Nat) (a : List Nat) : State :=
  if op = opOwnerSet then s.ownerSet a
  else if op = opOwnerClear then s.ownerClear
  else if op = opRealmCreate then s.realmCreate a
  else if op = opRealmDestroy then s.realmDestroy a
  else if op = opFwActivate then s.fwActivate a
  else if op = opFwDisarm then ((s.setAct 0).fwuEnter fwuStaged 0).secResult opFwDisarm cmdOk
  else if op = opDebugArm then (s.debugSet (fieldOf a 0 1) (fieldOf a 1 8)).secResult opDebugArm cmdOk
  else (s.debugSet 0 0).secResult op cmdOk

/-- The root of trust reads a block, checks it, and acts on it (R388, R389). -/
def State.secRun (s : State) (b : List Nat) : State :=
  let op := blockOp b
  let old := s.nonce
  let s := (s.newNonce).setFld .SEC_CMD_STS_OP op
  if !blockFormatOk b then s.secResult op cmdBadFormat
  else if fieldOf b 8 8 ≠ old ∨ fieldOf b 16 8 ≠ s.serial then s.secResult op cmdBadNonce
  else if !s.secSigned b then s.secResult op cmdBadSig
  else
    let x := s.secRefuse op (blockArgs b)
    if x ≠ cmdOk then s.secResult op x else s.secAct op (blockArgs b)

/-- SEC_CMD.GO; `err` when the block could not be read: then no OP was read. -/
def State.secGo (s : State) (err : Bool) : State :=
  if s.flag .SEC_STATE_CMD_BUSY then s
  else if err then s.secResult (s.fld .SEC_CMD_STS_OP) cmdReadErr
  else s.secRun s.secBlock

/-- A write to a page that firmware and the management window write directly (R418, R420). -/
def State.direct (s : State) (block : Nat) (w : Win) (f : State → State) : State :=
  if !s.pageUp block then s else match w with
    | .realm _ => s
    | _ => f s

/-- A row of the command table: SEC_CMD.GO with a block of that OP. -/
def State.secRow (s : State) (w : Win) (op : Nat) (err : Bool) : Res :=
  .next (s.direct 13 w (fun s => if err || blockOp s.secBlock == op then s.secGo err else s))

def execOwnerSet (w : Win) (err : Bool) (s : State) : Res := s.secRow w opOwnerSet err
def execOwnerClear (w : Win) (err : Bool) (s : State) : Res := s.secRow w opOwnerClear err
def execRealmCreate (w : Win) (err : Bool) (s : State) : Res := s.secRow w opRealmCreate err
def execRealmDestroy (w : Win) (err : Bool) (s : State) : Res := s.secRow w opRealmDestroy err
def execFwActivate (w : Win) (err : Bool) (s : State) : Res := s.secRow w opFwActivate err
def execFwDisarm (w : Win) (err : Bool) (s : State) : Res := s.secRow w opFwDisarm err
def execDebugArm (w : Win) (err : Bool) (s : State) : Res := s.secRow w opDebugArm err
def execDebugDisarm (w : Win) (err : Bool) (s : State) : Res := s.secRow w opDebugDisarm err

/-- A command that waited for its clears ends (R394). -/
def State.clearsOver (s : State) (r : Nat) : State :=
  match s.sec.waiting with
  | none => s
  | some (op, q) =>
    if q = r then (s.onSec (fun x => { x with waiting := none })).secResult op cmdOk
    else if op = opOwnerClear ∧ (List.range 4).all (fun k => (s.realm k).st == .absent) then s.ownerGone.secResult op cmdOk
    else s

/-- REALM_CLEAR_DONE: every clear of a created or destroyed realm has completed (R390, R394). -/
def execRealmClearDone (r : Nat) (s : State) : Res :=
  s.whenUp (fun s =>
    if 4 ≤ r then s
    else match (s.realm r).st with
      | .creating => ((s.rlmClear r).rlmEnter r { s.realm r with st := .active }).clearsOver r
      | .destroying =>
        let s := (s.rlmClear r).onSec (fun x => { x with grants := Tab.del r x.grants })
        (s.rlmEnter r { created := (s.realm r).created }).clearsOver r
      | _ => s)

/-- DEBUG_EXPIRY: the Gauge reaches the expiry count of the armed mode (R409). -/
def execDebugExpiry (s : State) : Res :=
  s.whenUp (fun s => if s.fld .SEC_STATE_DEBUG = 0 then s else ({ s with gauge := max s.gauge s.sec.debugUntil } : State).debugSet 0 0)

/-- SEC_CNT_CLR: SEC_PERF_REJECT clears. -/
def State.secCntClr (s : State) : State := s.setWord .SEC_PERF_REJECT 0 0 0

def execSecCntClr (w : Win) (s : State) : Res := .next (s.direct 13 w State.secCntClr)

/-! ### Realm requests (R398, R407, R408) -/

def State.reqAddr (s : State) (r : Nat) : Nat :=
  ((s.word .SEC_REQ_ADDR_LO 0 r).toNat + (s.word .SEC_REQ_ADDR_HI 0 r).toNat * 2 ^ 32) / 256 * 256

/-- A request ends: SEC_REQ_STS. -/
def State.reqEnd (s : State) (r code n : Nat) : State :=
  ((s.setFld .SEC_REQ_STS_CODE code 0 r).setFld .SEC_REQ_STS_BYTES n 0 r).setFld .SEC_REQ_STS_DONE 1 0 r

/-- The SLOT event (R404). -/
def State.slotEvent (s : State) (r slot : Nat) (loaded : Bool) (code : Nat) : State :=
  (s.slotsShow r).emit 0 0x70 3 r (slot + b2n loaded * 2 ^ 8 + code * 2 ^ 16)

/-- The fields of SEC_REQ with a request's values. -/
def State.reqSet (s : State) (r op mode use slot : Nat) : State :=
  (((s.setFld .SEC_REQ_OP op 0 r).setFld .SEC_REQ_MODE mode 0 r).setFld .SEC_REQ_USE use 0 r).setFld .SEC_REQ_SLOT slot 0 r

/-- A write of SEC_REQ with GO: the other fields are kept, and the request runs unless one runs for the realm. -/
def State.reqGo (s : State) (r op mode use slot : Nat) (f : State → State) : Res :=
  .next (if !(s.pageUp 13 && s.windowOpen r) then s
    else
      let s := s.reqSet r op mode use slot
      if bit (s.fld .SEC_STATE_REQ_BUSY) r then s
      else
        let s := s.setFld .SEC_REQ_STS_DONE 0 0 r
        if !s.flag .SEC_CTRL_REQ_EN || (op == 0 && mode == 1 && !s.flag .SEC_CTRL_IMPORT_EN) || decide (3 < op) then s.reqEnd r stKeyUse 0 else f s)

/-- The end of an exchange: the key that came of it is in its slot and the response is written, or the slot is empty (R398). -/
def State.provisionEnd (s : State) (r use slot a : Nat) (key : Option (List Nat)) (resp : List Nat) : State :=
  match key with
  | none => (({ s with keys := Tab.del (256 * r + slot) s.keys } : State).reqEnd r stKeySeal 0).slotEvent r slot false stKeySeal
  | some k => (((s.store a resp).setKeySlot r slot { key := k, use := use }).reqEnd r 0 176).slotEvent r slot true 0

/-- The exchange of R398 for realm `r`. -/
def State.provision (s : State) (r mode use slot : Nat) : State :=
  let a := s.reqAddr r
  let b := s.bytes (hostBase + a) 128
  let own := bytesPoint (b.take 64)
  if !onCurve own then (s.reqEnd r stKeySeal 0).slotEvent r slot (s.keySlot r slot).isSome stKeySeal
  else
    let q := s.drawRandom
    let d := q.1 % (p256n - 1) + 1
    let rot := pointBytes (ecMul d p256g)
    let q := q.2.drawRandom
    let nRot := leBytes 16 q.1
    let s := q.2
    let nOwn := (b.drop 64).take 16
    let z := beBytes 32 ((ecMul d own).getD (0, 0)).1
    let info := "GYVIS-KEY-1".toList.map Char.toNat ++ [r] ++ leBytes 2 slot ++ [use, mode] ++ leBytes 8 s.serial
    let t := hkdf (nOwn ++ nRot) z info 64
    let w := b.drop 80
    let key := if mode = 0 then some (t.take 32) else gcmOpen (t.take 32) (List.replicate 12 0) info (w.take 32) (w.drop 32)
    let c := hmac (t.drop 32) (b.take 64 ++ rot ++ nOwn ++ nRot ++ info)
    let resp := rot ++ nRot ++ c
    s.provisionEnd r use slot (hostBase + a + 0x100) key (resp ++ ecdsaSign s.attestKey resp)

/-- PROVISION: mode 0 DERIVE or 1 IMPORT, use 0 JOB or 1 PKG. -/
def execProvision (r mode use slot : Nat) (s : State) : Res :=
  s.reqGo r 0 (mode % 2) (use % 2) (slot % 256) (fun s => s.provision r (mode % 2) (use % 2) (slot % 256))

/-- CLEAR: the slot is empty at once (R396, R398). -/
def execClear (r slot : Nat) (s : State) : Res :=
  s.reqGo r 1 0 0 (slot % 256) (fun s =>
    (({ s with keys := Tab.del (256 * r + slot % 256) s.keys } : State).reqEnd r 0 0).slotEvent r (slot % 256) false 0)

def State.running (s : State) : Image := if s.flag .FWU_STATE_RUNNING then s.sec.imgB else s.sec.imgA
def State.other (s : State) : Image := if s.flag .FWU_STATE_RUNNING then s.sec.imgA else s.sec.imgB
def State.setOther (s : State) (x : Image) : State :=
  let s := s.onSec (fun c => if s.flag .FWU_STATE_RUNNING then { c with imgA := x } else { c with imgB := x })
  let v := BitVec.ofNat 32 (if x.present then x.version else 0)
  (if s.flag .FWU_STATE_RUNNING then s.setWord .FWU_VER_A 0 0 v else s.setWord .FWU_VER_B 0 0 v).setFld .FWU_STATE_REJECTED (b2n x.rejected)

/-- The measurement of an image. -/
def Image.digest (x : Image) : List Nat := x.meas.getD (beBytes 32 (Config.secret 2))

/-- The attestation report of a realm, before its signature (R408). -/
def State.report192 (s : State) (r : Nat) (nonce : List Nat) : List Nat :=
  [1, r, s.fwuSt, s.running.svn % 256] ++ leBytes 4 (s.word .GLB_FW_VER).toNat ++ leBytes 8 s.serial ++ nonce ++ s.running.digest
    ++ (if s.other.present then s.other.digest else List.replicate 32 0) ++ sha256 ((Tab.find r s.sec.grants).getD [])
    ++ (if s.flag .SEC_STATE_OWNED then sha256 s.sec.owner else List.replicate 32 0) ++ leBytes 4 s.modeNow ++ leBytes 4 (s.fld .SEC_STATE_DEBUG)
    ++ leBytes 8 (s.gauge / 32 * 32)

def execAttest (r : Nat) (s : State) : Res :=
  s.reqGo r 2 0 0 0 (fun s =>
    let a := s.reqAddr r
    let x := s.report192 r (s.bytes (hostBase + a + 0x40) 32)
    (s.store (hostBase + a + 0x100) (x ++ ecdsaSign s.attestKey x)).reqEnd r 0 256)

/-- CERTS: the certificate chain is written; its DER bytes are what the module was made with and its image gives (R407). -/
def execCerts (r : Nat) (chain : List Nat) (s : State) : Res :=
  s.reqGo r 3 0 0 0 (fun s => (s.store (hostBase + s.reqAddr r + 0x100) chain).reqEnd r 0 chain.length)

end Sys2Proof.Machine
end

