-- ==== Sys2Proof/Machine/Fwu.lean ====
section
/-! DEFINITION. Firmware update, activation, confirmation and fall-back, and the Drawer's write budget (R410-R417, R420). -/

namespace Sys2Proof.Machine

/-! ### ERR codes of FWU_STATE -/

def errSig : Nat := 1
def errFrom : Nat := 2
def errRollback : Nat := 3
def errTag : Nat := 4
def errMeas : Nat := 5
def errSize : Nat := 6
def errRead : Nat := 7
def errFallback : Nat := 8
def errAbort : Nat := 9

/-- Seconds in gt. -/
def secondGt : Nat := 320000000

/-- An update ends with an error (R411). -/
def State.fwuFail (s : State) (err : Nat) : State := (s.fwuEnter fwuIdle err).setSts .FWU_STS [4]

/-- The other slot is marked empty. -/
def State.fwuEmpty (s : State) : State := s.setOther {}

/-- LOAD: outside IDLE, or with FWU_SRC not set, it is ignored (R411). -/
def State.fwuLoad (s : State) : State :=
  let a := ((s.word .FWU_SRC_LO).toNat + (s.word .FWU_SRC_HI).toNat * 2 ^ 32) / 4096 * 4096
  if s.fwuSt ≠ fwuIdle ∨ a = 0 then s
  else (s.onSec (fun x => { x with src := a, size := s.fld .FWU_SRC_BYTES_BYTES, header := [] })).fwuEnter fwuVerify 0

def execLoad (w : Win) (s : State) : Res := .next (s.direct 14 w State.fwuLoad)

/-- ABORT of an update before ARMED (R411). -/
def State.fwuAbort (s : State) : State :=
  if [fwuVerify, fwuApply, fwuCheck, fwuStaged].contains s.fwuSt then s.fwuEmpty.fwuFail errAbort else s

def execFwuAbort (w : Win) (s : State) : Res := .next (s.direct 14 w State.fwuAbort)

/-- The die answers firmware: it runs, or it stands in RECOVERY. -/
def State.fwuUp (s : State) (f : State → State) : Res := .next (if s.pageUp 14 then f s else s)

/-- What VERIFY finds: 0, or the error (R410, R411). -/
def State.fwuVerifyErr (s : State) (h : List Nat) : Nat :=
  let body := fieldOf h 16 8
  if s.sec.size ≠ 256 + body ∨ body < 2 ^ 20 ∨ 64 * 2 ^ 20 < body then errSize
  else if !(fieldOf h 0 4 == 0x47564655 && fieldOf h 4 1 == 1 && fieldOf h 7 1 == 0 && ((h.drop 24).take 8).all (· == 0) && ((h.drop 0x6C).take 4).all (· == 0)
      && ((h.drop 0x80).take 64).all (· == 0)) then errSig
  else if !ecdsaVerify (Config.releaseKey 0, Config.releaseKey 1) (h.take 192) (h.drop 192) then errSig
  else if !(fieldOf h 5 1 == 1 || (s.fld .GLB_STATE_STAGE ≠ 5 && fieldOf h 5 1 == 0 && fieldOf h 8 4 == s.running.version && (h.drop 0x20).take 32 == s.running.digest)) then errFrom
  else if fieldOf h 6 1 < s.fld .SEC_ID_SVN then errRollback
  else 0

/-- VERIFY_DONE: `err` when the package could not be read (R411). -/
def execVerifyDone (err : Bool) (s : State) : Res :=
  s.fwuUp (fun s =>
    if s.fwuSt ≠ fwuVerify then s
    else if err then s.fwuFail errRead
    else
      let h := s.bytes (hostBase + s.sec.src) 256
      let e := s.fwuVerifyErr h
      if e ≠ 0 then s.fwuFail e else (s.onSec (fun x => { x with header := h })).fwuEnter fwuApply 0)

/-- In RECOVERY the module restarts from the slot that has become STAGED at once (R451): its image is verified next. -/
def State.recoveryStart (s : State) : State :=
  if s.fld .GLB_STATE_STAGE = 5 then
    ((s.setFld .FWU_STATE_RUNNING (1 - s.fld .FWU_STATE_RUNNING)).fwuEnter fwuIdle 0).setFld .GLB_STATE_STAGE 2
  else s

/-- The new image has been written into the other slot: `n` bytes of the Drawer's writes (R417). -/
def State.imageWritten (s : State) (n : Nat) : State := ({ s with drawer := { s.drawer with written := s.drawer.written + n } } : State).drawerShow

/-- APPLY_DONE: the new image stands in the other slot and is checked (R410, R411). For a delta, whose encoding only the release process
knows, `meas` and `size` are the measurement and bytes of its result; `ucode` is the TIL_UCODE_ID of the image's microcode; `err` when the body
could not be read. -/
def execApplyDone (err : Bool) (meas : List Nat) (size ucode : Nat) (s : State) : Res :=
  s.fwuUp (fun s =>
    if s.fwuSt ≠ fwuApply then s
    else if err then s.fwuEmpty.fwuFail errRead
    else
      let h := s.sec.header
      let s := s.fwuEnter fwuCheck 0
      match gcmOpen (beBytes 32 (Config.secret 1)) ((h.drop 0x60).take 12) (h.take 0x70) (s.bytes (hostBase + s.sec.src + 256) (fieldOf h 16 8)) ((h.drop 0x70).take 16) with
      | none => s.fwuEmpty.fwuFail errTag
      | some p =>
        let full := fieldOf h 5 1 == 1
        let m := if full then sha256 p else meas
        let n := if full then p.length else size
        let s := s.imageWritten n
        if m ≠ (h.drop 0x40).take 32 then s.fwuEmpty.fwuFail errMeas
        else
          let s := s.setOther { version := fieldOf h 12 4, meas := some m, svn := fieldOf h 6 1, ucode := ucode % 2 ^ 32, present := true }
          ((s.fwuEnter fwuStaged 0).setSts .FWU_STS [0]).recoveryStart)

/-! ### Starting an image (R413, R415) -/

/-- The image of the other slot starts: a planned warm restart, microcode at each tile's next idle point, the lane standby first. -/
def State.startOther (s : State) (swapAt : Nat) : State :=
  let new := s.other
  let s := s.setFld .FWU_STATE_RUNNING (1 - s.fld .FWU_STATE_RUNNING)
  let s := s.setWord .GLB_FW_VER 0 0 (BitVec.ofNat 32 new.version)
  let s := s.onFlt (fun f => { f with mpDown := true })
  let s := s.onSec (fun x => { x with planned := true })
  let s := (List.range 153).foldl (fun s p => s.setTile p { s.tile p with nextUcode := some new.ucode, passed := false }) s
  if s.flag .CTL_CTRL_LANE_EN then s.startSeq none swapAt else s

/-- Seconds that the new image has to confirm itself (R414). -/
def State.confirmWindow (s : State) : Nat := if s.fld .FWU_CTRL_CONFIRM = 0 then 60 else s.fld .FWU_CTRL_CONFIRM

/-- The armed count has come: the window opens and the settings are kept in their old format beside the new (R411, R416). -/
def State.trialBegin (s : State) : State :=
  let s := { s with gauge := max s.gauge s.sec.count }
  let s := s.onSec (fun x => { x with window := s.confirmWindow, trouble := false, restarts := 0, migrating := true, oldSettings := s.fld .FWU_SETTINGS_VERSION })
  (s.setFld .FWU_SETTINGS_OLD_KEPT 1).setAct 0

/-- ACTIVATION: the Gauge reaches the armed count (R411, R413, R416). -/
def execActivation (s : State) : Res :=
  s.whenUp (fun s =>
    if s.fwuSt ≠ fwuArmed then s
    else
      let d := s.fld .FWU_LANE_SWAP_DELAY
      let t := s.trialBegin.startOther (if d = 0 then 0 else s.sec.count + d * 2 ^ 16)
      ((t.setFld .FWU_STATE_LEFT s.confirmWindow).fwuEnter fwuTrial 0).setSts .FWU_STS [1])

/-- Does an operator of a JOB that started on another image still wait for a tile (R413)? -/
def State.earlierWaits (s : State) (p : Nat) : Bool :=
  s.jobs.any (fun e => e.2.fw != (s.word .GLB_FW_VER).toNat && (List.range e.2.nOps).any (fun k =>
    (e.2.op k).st == .waiting && ((List.range 8).any (fun l => ((e.2.rcd k).cluster == 0xFF || (e.2.rcd k).cluster == l) && s.physCluster l == p / 17))))

/-- MICROCODE_LOAD: a tile that is IDLE with no operator of an earlier JOB queued loads the new microcode (R413). -/
def execMicrocodeLoad (p : Nat) (s : State) : Res :=
  s.whenUp (fun s =>
    let t := s.tile p
    match t.nextUcode with
    | none => s
    | some u =>
      if 153 ≤ p ∨ t.st ≠ TileSt.idle ∨ s.earlierWaits p then s
      else (s.setTile p { t with nextUcode := none, passed := false }).setWord .TIL_UCODE_ID p 0 (BitVec.ofNat 32 u))

/-! ### Confirmation and fall-back (R411, R414-R416) -/

/-- Every enabled tile has passed its known-answer pass on the new microcode. -/
def State.tilesPassed (s : State) : Bool :=
  (List.range 153).all (fun p => !s.flag .TIL_CTRL_ENABLE p || s.tileRetired p || ((s.tile p).nextUcode.isNone && (s.tile p).passed))

/-- The enabled lane again has an ACTIVE half and a STANDBY half. -/
def State.laneWhole (s : State) : Bool :=
  !s.flag .CTL_CTRL_LANE_EN || ((s.halfIn halfActive).isSome && (s.halfIn halfStandby).isSome && s.lane.seq.isNone)

/-- The new image writes its health (R414). -/
def State.mayConfirm (s : State) : Bool :=
  s.fwuSt == fwuTrial && decide (s.gauge < s.sec.count + s.sec.window * secondGt) && s.tilesPassed && s.laneWhole && !s.sec.migrating && !s.sec.planned
  && !s.sec.trouble

/-- CONFIRM: the security version is fused and the old settings copy is dropped. -/
def execConfirm (s : State) : Res :=
  s.whenUp (fun s =>
    if !s.mayConfirm then s
    else
      let s := (s.setFld .SEC_ID_SVN (s.running.svn % 256)).setFld .FWU_SETTINGS_OLD_KEPT 0
      ((s.setFld .FWU_STATE_LEFT 0).fwuEnter fwuIdle 0).setSts .FWU_STS [2])

/-- CONFIRM_WINDOW_EXPIRY: the window ends without confirmation (R411). -/
def execConfirmWindowExpiry (s : State) : Res :=
  s.whenUp (fun s =>
    if s.fwuSt ≠ fwuTrial then s
    else (({ s with gauge := max s.gauge (s.sec.count + s.sec.window * secondGt) } : State).setFld .FWU_STATE_LEFT 0).fwuEnter fwuFallback 0)

/-- A moment at which no error handling runs and no MODEL_LOAD holds the root of trust (R415). -/
def State.safePoint (s : State) : Bool := s.flt.cur.isEmpty && s.srv.models.all (fun e => e.2.st != .loading)

/-- The old image returns with its settings, and the one that failed is rejected (R415, R416). -/
def State.oldReturns (s : State) : State :=
  let s := s.startOther 0
  let s := s.setOther { s.other with rejected := true }
  let s := s.onSec (fun x => { x with migrating := false })
  let s := (s.setFld .FWU_SETTINGS_VERSION s.sec.oldSettings).setFld .FWU_SETTINGS_OLD_KEPT 0
  (s.setFld .FWU_STATE_LEFT 0).fwuEnter fwuIdle errFallback

/-- The FALLBACK event and status: the version left, the one returned to, and a cause code of which no values are stated, a free value (R415). -/
def State.fellBack (s : State) (left : Nat) : State :=
  let q := s.draw
  (q.2.emit 0 0x70 8 mgmtRealm (left + (q.2.word .GLB_FW_VER).toNat * 2 ^ 32 + q.1 % 256 * 2 ^ 64)).setSts .FWU_STS [3, 4]

/-- FALLBACK: the old image returns; `lost` when a setting that only the new format holds was changed (R415, R416). -/
def execFallback (lost : Bool) (s : State) : Res :=
  s.whenUp (fun s =>
    if s.fwuSt ≠ fwuFallback ∨ !s.safePoint then s
    else
      let t := s.oldReturns.fellBack (s.word .GLB_FW_VER).toNat
      if lost then t.emit 0 0x70 9 mgmtRealm (t.fld .FWU_SETTINGS_VERSION + 2 ^ 16) else t)

/-! ### The Drawer's write budget (R417) -/

/-- Bytes accrued in one powered hour: 24,000 TiB over 105,192 h, half of it on the GVA-8128. -/
def accrual : Nat := (if Config.is8256 then 24000 else 12000) * 2 ^ 40 / 105192

/-- DRAWER_ACCRUAL: one powered hour's budget; balances carry over up to 30 days' worth. -/
def execDrawerAccrual (s : State) : Res :=
  s.whenUp (fun s =>
    let spill := accrual * min 256 (s.fld .FWU_DRAWER_CFG_SPILL_SHARE) / 256
    let model := accrual - spill
    let d := s.drawer
    ({ s with drawer := { d with spill := min (720 * spill) (d.spill + spill),
                                 model := min (720 * model) (d.model + model) } } : State).drawerShow)

end Sys2Proof.Machine
end

