-- ==== Sys2Proof/Machine/Tiles.lean ====
section
/-! DEFINITION. The commands of a tile: halting, scrubbing, spare columns, TIL_CVT, its counters (R44-R54). -/

namespace Sys2Proof.Machine

/-- TIL_CNT_CLR: TIL_ECC_CNT, TIL_ECC_ADDR and the three performance counters clear (R53). -/
def State.tilCntClr (s : State) (p : Nat) : State :=
  [Reg.TIL_ECC_CNT, .TIL_ECC_ADDR, .TIL_PERF_BUSY, .TIL_PERF_CONFLICT, .TIL_PERF_IDXWAIT].foldl (fun s r => s.setWord r p 0 0) s

def execTilCntClr (w : Win) (p : Nat) (s : State) : Res := s.tileCommand w p 1 (fun s => s.tilCntClr p)

/-- A scrub pass begins: the counts of corrected errors of a column are those of one pass (R47). -/
def State.scrubStart (s : State) (p : Nat) : State :=
  if (s.tile p).scrubbing then s else s.setTile p { s.tile p with scrubbing := true, colCe := [] }

/-- SCRUB_NOW: a pass starts at once; ignored while one runs (R47). -/
def execScrubNow (w : Win) (p : Nat) (s : State) : Res := s.tileCommand w p 2 (fun s => s.scrubStart p)

/-- A spare column of a group comes in, or is already used up (R47-R49): key bank + 32 · group. -/
def State.spareColumn (s : State) (p key col : Nat) : State :=
  let t := s.tile p
  match Tab.find key t.colmap with
  | some _ => ((s.setTile p { t with exhausted := insertKey key t.exhausted }).addScore (unitKey 0 p) 250 0).setSts .TIL_STS [7] p
  | none => if t.rewrite.isSome then s
            else (s.setTile p { t with colmap := Tab.put key (col + 1) t.colmap, rewrite := some (key % 32, key / 32, col) }).addScore (unitKey 0 p) 30 0


/-- Corrected errors of the pass by 64 · (bank + 32 · group) + column, and the columns that reach CE_LIMIT (R47). -/
def State.scrubHit (s : State) (p : Nat) (h : Nat × Nat × Nat) : State :=
  let key := h.1 % 32 + 32 * (h.2.1 % 9)
  let k := 64 * key + h.2.2 % 64
  let t := s.tile p
  let n := Tab.get (fun _ => 0) t.colCe k + 1
  let s := s.setTile p { t with colCe := Tab.put k n t.colCe }
  let s := s.tileCe p 1
  let lim := s.fld .TIL_SCRUB_CFG_CE_LIMIT p
  if lim ≠ 0 ∧ n = lim then s.spareColumn p key (h.2.2 % 64) else s

/-- SCRUB_PASS: the scrubber reads every row of a tile store; `ces` are the single-bit errors it corrected (bank, group, column), `ues`
the words it found newly uncorrectable (R45-R47). Words that already hold a poison code are not reported again. -/
def execScrubPass (p : Nat) (ces : List (Nat × Nat × Nat)) (ues : List Nat) (s : State) : Res :=
  s.whenUp (fun s =>
    if 153 ≤ p ∨ !s.flag .TIL_CTRL_SCRUB_EN p || s.tileGated p then s
    else
      let s := s.setTile p { s.tile p with scrubbing := false, colCe := [] }
      let s := ces.foldl (fun s h => s.scrubHit p h) s
      (ues.filter (fun k => decide (tileBase p ≤ 8 * k) && decide (8 * k < tileBase p + 2 ^ 21) && !s.mem.bad.contains k)).foldl (fun s k =>
        let s := (s.onMem (fun m => m.spoil k)).reportUe p k
        match (s.tile p).cur with
        | some key => s.faultEnd key ((List.range 9).any (fun c => (s.cluster c).groups.contains key))
        | none => s) s)

/-- COLUMN_SPARE_REWRITE_DONE: every row of the bank was written through the new map; stored values do not change (R48). -/
def execColumnSpareRewriteDone (p : Nat) (s : State) : Res :=
  s.whenUp (fun s => if (s.tile p).rewrite.isSome then (s.setTile p { s.tile p with rewrite := none }).setSts .TIL_STS [6] p else s)

/-- HALT: a write of TIL_CTRL.HALT takes an idle tile to HALTED, a running one after its operator, and a cleared bit brings a
HALTED tile back to IDLE (R51). -/
def State.haltWrite (s : State) (p : Nat) (on : Bool) : State :=
  let s := s.setFld .TIL_CTRL_HALT (b2n on) p
  let t := s.tile p
  match t.st, on with
  | .idle, true => s.setTile p { t with st := .halted }
  | .halted, false => s.setTile p { t with st := .idle }
  | _, _ => s

/-- The word that a write of TIL_CTRL with this HALT bit carries. -/
def execHalt (w : Win) (p : Nat) (on : Bool) (s : State) : Res :=
  s.fwCommand w .TIL_CTRL p ((s.setFld .TIL_CTRL_HALT (b2n on) p).word .TIL_CTRL p).toNat (fun s => if p < 153 then s.haltWrite p on else s)

/-- TIL_CVT is written on every physical tile (R54). -/
def State.tilCvtAll (s : State) (v : Nat) : State :=
  (List.range 153).foldl (fun s p => s.setWord .TIL_CVT p 0 (BitVec.ofNat 32 (v % 4))) s

def execTilCvtWrite (w : Win) (p v : Nat) (s : State) : Res := s.fwCommand w .TIL_CVT p v (fun s => s.tilCvtAll v)

end Sys2Proof.Machine
end

