-- ==== Sys2Proof/Machine/Faults.lean ====
section
/-! DEFINITION. Handling errors, retirement into spares, repair, health, module states, role-epoch rejects, freeze (R358-R386). -/

namespace Sys2Proof.Machine

/-! ### Retirement (R366, R367, R287) -/

/-- The place of a physical tile in its cluster. -/
def State.tilePlace (s : State) (p : Nat) : Option Nat :=
  (List.range 16).find? (fun t => Tab.get (fun k => k % 16) s.tileMap (16 * (p / 17) + t) == p % 17)

/-- A place of a cluster moves to another of its tiles; the role epoch rises (R366, R377). -/
def State.mapTile (s : State) (p q : Nat) : State :=
  match s.tilePlace p with
  | none => s
  | some t =>
    let s := s.setTile p { s.tile p with was := s.logTile p }
    let s := { s with tileMap := Tab.set (fun k => k % 16) (16 * (p / 17) + t) (q % 17) s.tileMap }
    match s.logTile q with
    | some lt => s.bumpEpoch lt
    | none => s

/-- A physical tile is retired: it is gated and reads as zero. -/
def State.markRetired (s : State) (p : Nat) : State := s.setTile p { s.tile p with retired := true, retiring := false, cur := none }

/-- The half that stands on a physical tile of the enabled lane. -/
def State.halfOn (s : State) (p : Nat) : Option Nat :=
  if s.flag .CTL_CTRL_LANE_EN then [0, 1].find? (fun h => (s.halfTiles h).contains p) else none

/-- A unit of a half has failed: the ACTIVE half gives up its claim, another fails (R283, R284). -/
def State.halfHit (s : State) (h check : Nat) : State :=
  let st := s.halfSt h
  if st = halfActive then s.selfFail h check else if st = halfOff ∨ st = halfFailed then s else s.failHalf h

/-- Where a half goes next. -/
def State.halfMoves (s : State) (h place : Nat) : State := s.setHalf h { s.half h with nextPlace := some place }

/-- Does a half of the enabled lane stand on P8? -/
def State.laneOnP8 (s : State) : Bool := s.flag .CTL_CTRL_LANE_EN && (s.fld .CTL_STATE_PLACE_A == 1 || s.fld .CTL_STATE_PLACE_B == 1)

/-- The roles of a logical cluster and of its tiles move: their epochs rise (R377). -/
def State.roleMove (s : State) (l : Nat) : State :=
  (List.range 16).foldl (fun (s : State) t => s.bumpEpoch (16 * l + t)) (s.bumpEpoch (roleCluster l))

/-- The maps of a spare cluster that takes a logical number (R287): with a half on P8, place 14 and 15 of L0 are the half's tiles. -/
def State.standIn (s : State) (l c : Nat) : State :=
  let s : State := { s with cluMap := s.cluMap.set l c }
  let s := s.roleMove l
  if c = 8 ∧ s.laneOnP8 then
    if l = 0 then { s with tileMap := Tab.set (fun k => k % 16) (16 * 8 + 14) 15 (Tab.set (fun k => k % 16) (16 * 8 + 15) 16 s.tileMap) }
    else { s with laneTiles := s.laneTiles ++ [16 * l + 15] }
  else s

/-- The free spare cluster: it holds no logical number and is not retired. -/
def State.spareCluster (s : State) : Option Nat := ([8] ++ List.range 8).find? (fun c => (s.logCluster c).isNone && !s.cluRetired c)

/-- A cluster retires (R367, R287): the spare cluster stands in, or the logical cluster becomes unavailable. -/
def State.retireCluster (s : State) (c : Nat) (esc : Bool) : State :=
  if s.cluRetired c || decide (9 ≤ c) then s
  else
    let realms := s.cluRealms c
    let hs := if s.flag .CTL_CTRL_LANE_EN then [0, 1].filter (fun h => (s.halfTiles h).any (fun p => p / 17 == c)) else []
    let s := hs.foldl (fun s h => s.halfHit h 1) s
    let s := hs.foldl (fun s h => if s.fld (placeFld h) = 2 then s else s.halfMoves h 2) s
    let l := s.logCluster c
    let s := s.setCluster c { s.cluster c with retired := true, was := l }
    let s := (List.range 17).foldl (fun s t => s.setTile (17 * c + t) { s.tile (17 * c + t) with retiring := false, cur := none }) s
    let x := match l, s.spareCluster with
      | none, _ => (3, s)
      | some l, some q => (if s.flag .CTL_CTRL_LANE_EN then 3 else 1, if q = 8 then (s.standIn l q).setFld .FLT_SPARES_CLU_FOR c else s.standIn l q)
      | some l, none =>
        let s := ({ s with cluMap := s.cluMap.set l 9 } : State).roleMove l
        (3, s.setFld .FLT_SPARES_UNAVAIL (Nat.lor (s.fld .FLT_SPARES_UNAVAIL) (2 ^ l)))
    let s := x.2.report x.1 0x0012 1 c 2 realms 0 esc true
    hs.foldl (fun s h => s.autoRepair h) s

/-- A tile retires (R366): the cluster's tile spare takes its place, or its cluster retires. -/
def State.retireTile (s : State) (p : Nat) (esc : Bool) : State :=
  if s.tileRetired p || decide (153 ≤ p) then s
  else
    let realms := ((s.unitRole 0 p).bind s.tileRealm).toList
    let h := s.halfOn p
    let s := match h with
      | some h => s.halfHit h 1
      | none => s
    let s := match h with
      | some h => if s.fld (placeFld h) = 1 ∧ (s.logTile p).isNone then s.halfMoves h 2 else s
      | none => s
    match s.tilePlace p, s.spareTile (p / 17) with
    | some _, none => s.retireCluster (p / 17) esc
    | some _, some q =>
      let s := ((s.mapTile p q).markRetired p).report 1 0x0012 0 p (b2n esc) realms 0 esc true
      (match h with
       | some h => s.autoRepair h
       | none => s)
    | none, _ =>
      let s := (s.markRetired p).report 1 0x0012 0 p (b2n esc) realms 0 esc true
      (match h with
       | some h => s.autoRepair h
       | none => s)

/-- RETIRE: a tile or cluster that runs work ends it first; a tile's stand-in takes its place at once (R366, R367). -/
def State.retireCmd (s : State) : State :=
  let i := s.fld .FLT_UNIT_SEL_INDEX
  let clu := fun (s : State) (c : Nat) =>
    if s.cluRetired c || decide (9 ≤ c) then s
    else if s.blockBusy (256 + c) then
      ((List.range 17).foldl (fun s t => s.setTile (17 * c + t) { s.tile (17 * c + t) with retiring := true }) s).onFlt (fun f =>
        { f with retiring := insertKey (unitKey 1 c) f.retiring })
    else s.retireCluster c false
  match s.fld .FLT_UNIT_SEL_KIND with
  | 0 =>
    if s.tileRetired i || decide (153 ≤ i) then s
    else if !s.tileBusy i || s.flt.cur.any (fun e => e.kind == 0 && e.index == i) then (s.endTile i).retireTile i false
    else match s.tilePlace i, s.spareTile (i / 17) with
      | some _, none => clu s (i / 17)
      | _, q =>
        let s := match q with
          | some q => s.mapTile i q
          | none => s
        (s.setTile i { s.tile i with retiring := true }).onFlt (fun f => { f with retiring := insertKey (unitKey 0 i) f.retiring })
  | 1 => clu s i
  | _ => s

def execRetire (w : Win) (s : State) : Res := s.fwCommand w .FLT_CMD 0 2 State.retireCmd

/-- RETIRE_HALTED: the running work of a unit that a command retires has ended. -/
def execRetireHalted (kind index : Nat) (s : State) : Res :=
  s.whenUp (fun s =>
    let k := unitKey kind index
    if s.flt.mpDown || !s.flt.retiring.contains k then s
    else if kind = 0 then
      if s.tileBusy index then s
      else
        let s := s.onFlt (fun f => { f with retiring := f.retiring.filter (· != k) })
        (s.setTile index { s.tile index with retiring := false }).retireTile index false
    else if s.blockBusy (256 + index) then s
    else (s.onFlt (fun f => { f with retiring := f.retiring.filter (· != k) })).retireCluster index false)

/-! ### LPDDR5 (R368-R370) -/

/-- A channel meets a trigger of R370: it starts to copy into the reserve; a second one is not retired. -/
def State.startChan (s : State) (ch : Nat) : State :=
  if !s.flag .FLT_CTRL_CHAN_RESERVE then s
  else if s.flag .FLT_SPARES_CHAN_USED || s.flt.copying.isSome then
    if s.flt.secondChan || s.flt.copying = some ch || (s.flag .FLT_SPARES_CHAN_USED && s.fld .FLT_SPARES_CHAN == ch) then s
    else (s.onFlt (fun f => { f with secondChan := true })).report 3 0x0008 2 ch 3 s.evRealms 0
  else s.onFlt (fun f => { f with copying := some (ch % 64) })

/-- CHANNEL_COPY_DONE: the retirement is reported. -/
def execChannelCopyDone (s : State) : Res :=
  s.whenUp (fun s =>
    match s.flt.copying with
    | none => s
    | some ch =>
      let s := s.onFlt (fun f => { f with copying := none })
      ((s.setFld .FLT_SPARES_CHAN_USED 1).setFld .FLT_SPARES_CHAN ch).report 1 0x0012 2 ch 3 [] 0 false true)

/-! ### Detection by blocks that have no command of their own (R359) -/

/-- Severities and unit kinds of the causes. -/
def ErrIn.known (e : ErrIn) : Bool :=
  let is := fun (ks : List Nat) (ss : List Nat) => ks.contains e.kind && ss.contains e.sev
  (match e.cause with
   | 0x01 => is [0] [1, 2]
   | 0x02 => is [0] [2]
   | 0x03 => is [0] [1, 2]
   | 0x04 => is [1] [1, 2]
   | 0x05 => is [1] [1, 2]
   | 0x06 => is [4] [1, 2]
   | 0x07 => is [0, 2] [1, 2]
   | 0x08 => is [2] [3]
   | 0x09 => is [0] [1, 2]
   | 0x0A => is [4] [2]
   | 0x0B => is [3] [1, 2]
   | 0x0C => is [4] [1, 2]
   | 0x0F => is [4] [1]
   | 0x10 => is [4] [5]
   | 0x11 => is [4] [5]
   | _ => false)
  && (match e.kind with
   | 0 => decide (e.index < 153)
   | 1 => decide (e.index < 9)
   | 2 => decide (e.index < 64)
   | 3 => decide (e.index < 4)
   | _ => e.index == 0)

/-- The realms of a unit's work. -/
def State.unitRealms (s : State) (kind index : Nat) : List Nat :=
  match kind with
  | 0 => ((s.logTile index).bind s.tileRealm).toList
  | 1 => s.cluRealms index
  | _ => s.evRealms

/-- The status bits of the block that an error is found in (R46, R101, R169, R320). -/
def State.detectSts (s : State) (e : ErrIn) : State :=
  match e.cause, e.sev with
  | 0x01, 2 => s.setSts .TIL_STS [4] e.index
  | 0x05, 1 => s.setSts .CLU_STS [3] e.index
  | 0x05, 2 => s.setSts .CLU_STS [2] e.index
  | 0x06, 1 => s.setSts .KVM_STS [0]
  | 0x0B, 1 => s.setSts .VID_STS [4]
  | 0x0B, 2 => s.setSts .VID_STS [5]
  | _, _ => s

/-- An error is detected and reported; the operator of a tile ends with it (R46, R52, R358-R360). An uncorrectable page-map entry is named by
the detail, and stops the walks that reach it from then on (R169). -/
def State.detect (s : State) (e : ErrIn) : State :=
  if !ErrIn.known e then s
  else if e.cause = 0x08 then s.startChan e.index
  else if e.cause = 0x01 ∧ e.sev = 1 then s.tileCe e.index 1
  else if e.cause = 0x06 ∧ e.sev = 2 then
    (s.onKvm (fun k => k.setEnt (e.detail % 2 ^ 20) { k.ent (e.detail % 2 ^ 20) with mapUe := true })).mapFault (e.detail % 2 ^ 20)
  else
  let s := s.detectSts e
  if e.sev = 2 ∧ e.kind ≤ 1 then
    let s := s.contain e.cause e.kind e.index e.kind e.detail
    if e.kind = 0 then
      match (s.tile e.index).cur with
      | some k => s.faultEnd k ((List.range 9).any (fun c => (s.cluster c).groups.contains k))
      | none => s
    else s
  else if e.sev = 2 then s.reportMod 2 e.cause (s.unitRealms e.kind e.index) e.detail
  else
    let s := s.report e.sev e.cause e.kind e.index (if e.kind ≤ 1 then e.kind else 3) (s.unitRealms e.kind e.index) e.detail
    if e.cause = 0x07 ∧ e.kind = 2 ∧ s.fld .FLT_CTRL_CH_CE_LIMIT ≠ 0 ∧ 16 * s.fld .FLT_CTRL_CH_CE_LIMIT < (s.unit (unitKey 2 e.index)).ceHour then s.startChan e.index
    else s

/-! ### Handling (R361-R364) -/

/-- The error that firmware takes next: the highest severity, then the order of the events. -/
def nextErr (l : List ErrRec) : Option ErrRec :=
  l.foldl (fun m e => match m with
    | none => some e
    | some x => if x.sev < e.sev then some e else some x) none

/-- A handling of the higher kind has already retired the unit. -/
def State.errClosed (s : State) (e : ErrRec) : Bool :=
  match e.kind with
  | 0 => s.tileRetired e.index || s.cluRetired (e.index / 17)
  | 1 => s.cluRetired e.index
  | _ => false

/-- FLT_LAST and FLT_LAST_UNIT. -/
def State.lastErr (s : State) (e : ErrRec) : State :=
  let s := ((s.setFld .FLT_LAST_CAUSE e.cause).setFld .FLT_LAST_SEVERITY e.sev).setFld .FLT_LAST_SCOPE e.scope
  ((s.setFld .FLT_LAST_UNIT_INDEX e.index).setFld .FLT_LAST_UNIT_KIND e.kind).setFld .FLT_LAST_UNIT_EPOCH (s.unitEpoch e.kind e.index)

/-- The end of a handling: its scope's time for R362; firmware clears the capture of R364. -/
def State.endHandling (s : State) (e : ErrRec) : State :=
  let c := if e.kind = 0 then e.index / 17 else e.index
  let s := s.onFlt (fun f => { f with cur := f.cur.erase e, ended :=
    if 1 < e.kind then f.ended else if e.scope = 0 then Tab.put (scopeKey 0 e.index) s.gauge f.ended else Tab.put (scopeKey 1 c) s.gauge f.ended })
  let k := unitKey e.kind e.index
  let s := s.setUnit k { s.unit k with capture := (s.unit k).capture - (if bit (s.unit k).capture e.cause then 2 ^ e.cause else 0) }
  (s.lastErr e).evalState

/-- A row of a channel shows an uncorrectable line (R368, R370): 1 the device has a spare row and the row is repaired, 2 it has none. -/
def State.rowRepair (s : State) (row chan : Nat) : State :=
  match row with
  | 1 => s.report 1 0x0007 2 (chan % 64) 3 [] 0
  | 2 => s.startChan (chan % 64)
  | _ => s

/-- Firmware retires a video core (R320, R371): its CORE_EN bit clears, and reservations beyond the capacity are DEGRADED. -/
def State.retireCore (s : State) (n : Nat) : State :=
  if 4 ≤ n ∨ bit (s.fld .FLT_SPARES_VID_RETIRED) n then s
  else
    let s := s.setFld .FLT_SPARES_VID_RETIRED (Nat.lor (s.fld .FLT_SPARES_VID_RETIRED) (2 ^ n))
    let s := ((s.setFld .VID_CTRL_CORE_EN (clearBit (s.fld .VID_CTRL_CORE_EN) n)).bumpEpoch (roleCore n)).vidShow
    let realms := (List.range 4).filter (fun r => s.vid.strms.any (fun e => e.1 / 256 == r && e.2.st != .closed))
    let s := s.emitTo realms 12 0x50 4 (n + s.fld .VID_CAPACITY_CAP * 2 ^ 16)
    s.report (if s.fld .VID_CAPACITY_CAP < s.fld .VID_CAPACITY_RESERVED then 3 else 1) 0x0012 3 n 3 realms 0 false true

/-- The half that an error of a unit hits: one of its tiles, or an uncorrectable word of its partition. -/
def State.halfOf (s : State) (e : ErrRec) : Option Nat :=
  if e.kind = 0 then s.halfOn e.index
  else if e.kind = 1 ∧ e.cause = 0x04 ∧ 13 * 2 ^ 14 ≤ e.detail ∧ e.detail < 14 * 2 ^ 14 ∧ s.flag .CTL_CTRL_LANE_EN then
    [0, 1].find? (fun h => (s.placePart (s.fld (placeFld h))).1 == e.index)
  else none

/-- Handling at the scope of an error; a tile-scope handling goes on until the tile's recovery. -/
def State.handle (s : State) (e : ErrRec) (ok : Bool) (row chan : Nat) : State :=
  let auto := s.flag .FLT_CTRL_AUTO_RETIRE
  let c := if e.kind = 0 then e.index / 17 else e.index
  let s := if e.cause = 0x07 then s.rowRepair row chan else s
  let s := match s.halfOf e with
    | some h => s.halfHit h (if e.cause = 0x01 ∨ e.cause = 0x04 then 0 else 1)
    | none => s
  if e.kind = 3 then (if row = 1 ∧ auto then s.retireCore e.index else s).endHandling e
  else if 1 < e.kind ∨ e.scope = 3 then s.endHandling e
  else if e.scope = 0 then
    let s := s.endTile e.index
    if e.exhaust && auto then (s.retireTile e.index e.esc).endHandling e
    else s.setTile e.index { s.tile e.index with st := .fault }
  else
    let s := s.endCluster c
    if e.scope = 2 then (if auto then s.retireCluster c e.esc else s).endHandling e
    else if e.kind = 0 then
      if auto then (s.retireTile e.index e.esc).endHandling e else s
    else
      let s := if ok then s else s.addScore (unitKey 1 c) 400 0
      (if !ok && auto then s.retireCluster c e.esc else s).endHandling e

/-- ERROR_HANDLING: firmware takes the next error, unless it handles one of equal or higher severity; `found` is an error that a block without a
command of its own detects first, `ok` whether a cluster block passes its self-test, `row` and `chan` what the repair of an LPDDR5 row comes to;
of a video core, `row` is 1 when firmware retires it, for which the spec gives no rule. -/
def execErrorHandling (found : Option ErrIn) (ok : Bool) (row chan : Nat) (s : State) : Res :=
  s.whenUp (fun s =>
    let s := match found with
      | some e => s.detect e
      | none => s
    match if s.flt.mpDown || s.flt.frozen then none else nextErr s.flt.queue with
    | none => s.evalState
    | some e =>
      if (s.flt.cur.head?.map (fun x => decide (e.sev ≤ x.sev))).getD false then s.evalState
      else
        let s := s.onFlt (fun f => { f with queue := f.queue.erase e })
        if s.errClosed e then (s.bumpWrap .FLT_PERF_CONTAINED_COUNT 1).evalState
        else (((s.onFlt (fun f => { f with cur := e :: f.cur })).lastErr e).handle e ok row chan).evalState)

/-- A tile that a half stands on is back: the half comes in again where it may (R287). -/
def State.repairOn (s : State) (p : Nat) : State :=
  match s.halfOn p with
  | some h => s.autoRepair h
  | none => s

/-- TILE_RECOVERY_DONE: the scrub and self-test of a tile in FAULT have ended (R361, R366, R372). -/
def execTileRecoveryDone (p : Nat) (pass : Bool) (s : State) : Res :=
  s.whenUp (fun s =>
    match s.flt.cur.find? (fun e => e.kind == 0 && e.index == p) with
    | none => s
    | some e =>
      if s.flt.mpDown then s
      else if pass then
        ((s.setTile p { s.tile p with st := if s.flag .TIL_CTRL_HALT p then .halted else .idle }).endHandling e).repairOn p
      else
        let s := s.addScore (unitKey 0 p) 400 0
        (if s.flag .FLT_CTRL_AUTO_RETIRE then s.retireTile p e.esc else s).endHandling e)

/-- KNOWN_ANSWER_PASS: every idle or spare tile runs its known-answer pass; `fails` are those whose answer differs (R359). -/
def execKnownAnswerPass (fails : List Nat) (s : State) : Res :=
  s.whenReady (fun s =>
    let run := (List.range 153).filter (fun p => (s.tile p).st == .idle && !s.tileBusy p && !s.tileGated p)
    let s := run.foldl (fun s p => if fails.contains p then s else s.setTile p { s.tile p with passed := (s.tile p).nextUcode.isNone }) s
    (run.filter fails.contains).foldl (fun s p => s.contain 0x0002 0 p 0 0) s)

/-! ### Repair (R371) -/

/-- REPAIR of the retired unit that FLT_UNIT_SEL names; `pass` when it passes its scrub and self-test. -/
def State.repairCmd (s : State) (pass : Bool) : State :=
  let i := s.fld .FLT_UNIT_SEL_INDEX
  if !pass then s
  else match s.fld .FLT_UNIT_SEL_KIND with
    | 0 =>
      if !s.tileRetired i then s
      else ((s.setTile i { s.tile i with retired := false, st := .idle, was := none }).setUnit (unitKey 0 i) { s.unit (unitKey 0 i) with score := 500 }).evalState
    | 1 =>
      if !s.cluRetired i then s
      else ((s.setCluster i { s.cluster i with retired := false, was := none }).setUnit (unitKey 1 i) { s.unit (unitKey 1 i) with score := 500 }).evalState
    | 3 =>
      if 4 ≤ i ∨ !bit (s.fld .FLT_SPARES_VID_RETIRED) i then s
      else
        let s := s.setFld .FLT_SPARES_VID_RETIRED (clearBit (s.fld .FLT_SPARES_VID_RETIRED) i)
        ((s.setFld .VID_CTRL_CORE_EN (Nat.lor (s.fld .VID_CTRL_CORE_EN) (2 ^ i))).bumpEpoch (roleCore i)).vidShow.evalState
    | _ => s

def execFltRepair (w : Win) (pass : Bool) (s : State) : Res := s.fwCommand w .FLT_CMD 0 4 (fun s => s.repairCmd pass)

/-! ### Health and module states (R372-R376) -/

/-- A unit after an hour: its hourly counts begin again, and without a CONTAINED in the hour it gains 5. -/
def UnitRec.hour (u : UnitRec) (now : Nat) : UnitRec :=
  { u with ceHour := 0, ceLoss := 0, score := if u.lastContained.all (fun t => decide (t + 3600 * secondGt ≤ now)) then min 1000 (u.score + 5) else u.score }

/-- HEALTH_HOUR: the hourly limits begin again, and a unit without a CONTAINED in the hour gains 5. -/
def execHealthHour (s : State) : Res :=
  s.whenUp (fun s => (s.onFlt (fun x => { x with units := x.units.foldl (fun t e => Tab.set (fun _ => {}) e.1 (e.2.hour s.gauge) t) x.units })).evalState)

/-- A latch whose leaving condition has held for DWELL is left. -/
def Latch.leave (l : Latch) (now dwell : Nat) : Latch := match l.okSince with
  | some t => if l.on && decide (t + dwell ≤ now) then {} else l
  | none => l

/-- The counts at which DWELL of a condition ends. -/
def State.dwellEnds (s : State) : List Nat :=
  ([s.flt.worn, s.flt.degraded, s.flt.service].filterMap (fun l => if l.on then l.okSince.map (· + s.dwell) else none))
    ++ (if s.mpRecent then (s.flt.mpError.map (· + s.dwell)).toList else [])

/-- Conditions whose DWELL is over are left. -/
def State.leaveDue (s : State) : State :=
  s.onFlt (fun f => { f with worn := f.worn.leave s.gauge s.dwell, degraded := f.degraded.leave s.gauge s.dwell, service := f.service.leave s.gauge s.dwell })

/-- STATE_DWELL_EXPIRY: DWELL of a condition ends, and the reported state follows. -/
def execStateDwellExpiry (s : State) : Res :=
  s.whenUp (fun s =>
    let s := s.latchNow
    match s.dwellEnds with
    | [] => s
    | d :: t => (({ s with gauge := max s.gauge (t.foldl min d) } : State).leaveDue).evalState)

/-! ### Role-epoch rejects (R377, R378) -/

/-- MESSAGE_REJECT: a message of physical tile `p` comes back; the second time its work ends with TILE_FAULT. For the lane, `half` gives the half
that sent it, and the reject is a failed check. -/
def execMessageReject (second : Bool) (p : Nat) (half : Option Nat) (s : State) : Res :=
  s.whenUp (fun s =>
    let s := (s.bumpWrap .FLT_PERF_REJECT_COUNT 1).setSts .FLT_STS [8]
    match half with
    | some h => if h < 2 then s.halfHit h 5 else s
    | none =>
      if !second || decide (153 ≤ p) then s
      else
        let s := s.contain 0x000E 0 p 0 0
        match (s.tile p).cur with
        | some k => s.faultEnd k ((List.range 9).any (fun c => (s.cluster c).groups.contains k))
        | none => s)

/-! ### The management processor (R359, R411, R413, R416) -/

/-- MGMT_WARM_RESTART: firmware runs again. An unplanned restart follows an error with cause 0x000F and is reported SERVICE; a new image has
migrated its settings to format version `settings`. -/
def execMgmtWarmRestart (settings : Nat) (s : State) : Res :=
  s.whenUp (fun s =>
    if s.sec.planned then
      let s := (s.onFlt (fun f => { f with mpDown := false })).onSec (fun x => { x with planned := false })
      if s.sec.migrating then (s.setFld .FWU_SETTINGS_VERSION settings).onSec (fun x => { x with migrating := false }) else s
    else
      let s := s.onFlt (fun f => { f with mpDown := false, mpError := some s.gauge })
      let s := s.report 4 0x000F 4 0 3 s.evRealms 0
      if s.fwuSt = fwuTrial then
        let s := s.onSec (fun x => { x with restarts := x.restarts + 1 })
        if 3 ≤ s.sec.restarts then (s.setFld .FWU_STATE_LEFT 0).fwuEnter fwuFallback 0 else s
      else s)

/-! ### Counters and the freeze (R381, R385) -/

def State.fltCntClr (s : State) : State := ((s.setWord .FLT_PERF_CE 0 0 0).setWord .FLT_PERF_CONTAINED 0 0 0).setWord .FLT_PERF_REJECT 0 0 0

/-- FLT_CNT_CLR: the three performance counters clear. -/
def execFltCntClr (w : Win) (s : State) : Res := s.fwCommand w .FLT_CMD 0 1 State.fltCntClr

/-- FREEZE: FLT_CMD.FREEZE freezes an armed module. -/
def execFreeze (w : Win) (s : State) : Res := s.fwCommand w .FLT_CMD 0 8 (fun s => s.freeze 1)

end Sys2Proof.Machine
end

