-- ==== Sys2Proof/Machine/Lane.lean ====
section
/-! DEFINITION. The commands of the control lane: set-up, periods, halves, swaps, ports (R265-R295). -/

namespace Sys2Proof.Machine

/-! ### Set-up (R271, R291, R292, R295) -/

/-- An install ends with an error, or with none. -/
def State.installEnd (s : State) (err : Nat) : State :=
  (((s.setFld .CTL_STATE_INSTALL (if err = 0 then 2 else 3)).setFld .CTL_STATE_INSTALL_ERR err).setSts .CTL_STS [11]).laneEvent 0x0B err

/-- INSTALL: `pkg` is what the model description of LANE_MODEL gives, none when it is no lane package (R271, R292). -/
def State.install (s : State) (pkg : Option LanePkg) : State :=
  let m := s.srv.model (s.fld .CTL_CTRL_LANE_MODEL)
  if s.lane.seq.isSome ∨ s.lane.swap.isSome then s.installEnd 5
  else match pkg.filter (fun _ => m.st == .resident && m.realm == s.laneOwner) with
    | none => s.installEnd 1
    | some p =>
      if !pkgInLimits p then s.installEnd 2
      else if !p.tsnOk then s.installEnd 3
      else if s.flag .CTL_CTRL_LANE_EN then
        (if (s.halfIn halfStandby).isNone then s.installEnd 4
         else ((s.setFld .CTL_STATE_INSTALL 1).setFld .CTL_STATE_INSTALL_ERR 0).startSeq (some p) 0)
      else ((s.onLane (fun l => { l with pkg := some p, period := none, launchAt := none, answered := false, heldOut := false })).showPkg p).installEnd 0

def execInstall (w : Win) (pkg : Option LanePkg) (s : State) : Res := s.fwCommand w .CTL_CMD 0 1 (fun s => s.install pkg)

/-- REPAIR of a half: from OFF or FAILED to SCRUB (R283). -/
def State.laneRepair (s : State) (h : Nat) : State :=
  if s.flag .CTL_CTRL_LANE_EN ∧ (s.halfSt h = halfOff ∨ s.halfSt h = halfFailed) then s.bringIn h false else s

def execRepair (w : Win) (h : Nat) (s : State) : Res := s.fwCommand w .CTL_CMD 0 (if h = 0 then 2 else 4) (fun s => if h ≤ 1 then s.laneRepair h else s)

/-- RETIRE of a half: to OFF from any state but ACTIVE (R283). -/
def State.laneRetire (s : State) (h : Nat) : State := if s.halfSt h = halfActive then s else s.halfToOff h

def execLaneRetire (w : Win) (h : Nat) (s : State) : Res :=
  s.fwCommand w .CTL_CMD 0 (if h = 0 then 0x80 else 0x100) (fun s => if h ≤ 1 then s.laneRetire h else s)

/-- SWAP_ARM: a planned swap is armed at the count of CTL_SWAP; refused with no STANDBY half (R291). -/
def State.swapArm (s : State) : State :=
  if (s.halfIn halfStandby).isNone then s
  else s.onLane (fun l => { l with swap := some ((s.word .CTL_SWAP_LO).toNat + (s.word .CTL_SWAP_HI).toNat * 2 ^ 32) })

def execSwapArm (w : Win) (s : State) : Res := s.fwCommand w .CTL_CMD 0 8 State.swapArm

/-- SWAP_CANCEL: a swap that has not taken place is disarmed (R291). -/
def State.swapCancel (s : State) : State := s.onLane (fun l => { l with swap := none })

def execSwapCancel (w : Win) (s : State) : Res := s.fwCommand w .CTL_CMD 0 0x10 State.swapCancel

/-- ACK_LOST clears LOST and ends STALE (R289). -/
def State.ackLost (s : State) : State := ((s.setFld .CTL_STATE_LOST 0).onLane (fun l => { l with stale := false })).evalState

/-- ACK_LOST may be written by the owning realm too. -/
def execAckLost (w : Win) (s : State) : Res :=
  match w with
  | .realm r => .next (if s.pageUp 9 && s.windowOpen r && s.laneOwner == r then s.ackLost else s)
  | _ => s.fwCommand w .CTL_CMD 0 0x20 State.ackLost

/-- CTL_CNT_CLR: the three performance counters and the queues' GAPS clear. -/
def State.ctlCntClr (s : State) : State :=
  let s := ((s.setWord .CTL_PERF_HOLD 0 0 0).setWord .CTL_PERF_REJECT 0 0 0).setWord .CTL_PERF_MAXLAT 0 0 0
  (List.range 16).foldl (fun s q => s.setFld .CTL_Q_STS_GAPS 0 0 q) s

def execCtlCntClr (w : Win) (s : State) : Res := s.fwCommand w .CTL_CMD 0 0x40 State.ctlCntClr

/-- Q_FLUSH: the queue that CTL_Q_SEL selects empties (R217). -/
def State.qFlush (s : State) : State :=
  let q := s.fld .CTL_Q_SEL_QUEUE
  s.setQueue q ((s.queue q).flush.enterGap q)

def execQFlush (w : Win) (s : State) : Res := s.fwCommand w .CTL_CMD 0 0x200 State.qFlush

/-- A write of CTL_CTRL: LANE_EN brings both halves in, or takes both to OFF (R265, R283, R295). -/
def State.laneEnWrite (s : State) (v : Nat) : State :=
  let was := s.flag .CTL_CTRL_LANE_EN
  let s := s.setWord .CTL_CTRL 0 0 (BitVec.ofNat 32 v &&& 0x00FF031F)
  if bit v 0 == was then s
  else if bit v 0 then
    let s := s.laneHold
    let s := (s.bringIn 0 false).bringIn 1 false
    s.onLane (fun l => { l with period := none, paired := false })
  else
    let s := s.onLane (fun l => { l with seq := none, swap := none, sent := none, ckpt := none, paired := false })
    ((s.halfToOff 0).halfToOff 1).laneHold

def execLaneEnWrite (w : Win) (v : Nat) (s : State) : Res := s.fwCommand w .CTL_CTRL 0 v (fun s => s.laneEnWrite v)

/-- A write of CTL_GRID_HI: the new period grid takes effect; dropped while LANE_EN is 1 (R270, R295). -/
def State.gridWrite (s : State) (v : Nat) : State :=
  if s.flag .CTL_CTRL_LANE_EN then s
  else
    let s := s.setWord .CTL_GRID_HI 0 0 (BitVec.ofNat 32 v)
    s.onLane (fun l => { l with grid := (s.word .CTL_GRID_LO).toNat + v % 2 ^ 32 * 2 ^ 32, period := none })

def execGridWrite (w : Win) (v : Nat) (s : State) : Res := s.fwCommand w .CTL_GRID_HI 0 v (fun s => s.gridWrite v)

/-! ### Periods (R270, R274-R279, R291) -/

/-- A swap takes place: the STANDBY half takes the claim from the ACTIVE half, which becomes STANDBY (R291). -/
def State.swapHalves (s : State) (h : Nat) : State :=
  let o := otherHalf h
  let c := s.nextClaim
  let s := s.announce h c
  let s := (s.setHalf h { s.half h with mark := .none, loaded := false }).enterHalf h halfActive
  let s := s.announce o 0
  let s := (s.setHalf o { s.half o with bad := 0, mark := .none }).enterHalf o halfStandby
  let s := (s.onLane (fun l => { l with swap := none, sent := none })).bumpSat .CTL_CLAIM_LAST_TAKEOVERS 1
  (s.setSts .CTL_STS [12]).laneEvent 0x0C (c + h * 2 ^ 16)

/-- The planned swap of a period start (R291, R292). -/
def State.plannedSwap (s : State) (start : Nat) : State :=
  match s.halfIn halfStandby, s.halfIn halfActive with
  | some h, some _ =>
    match s.lane.seq with
    | some q =>
      if q.stage = 1 ∧ (s.half h).fresh ∧ (s.lane.swap.getD q.swapAt) ≤ start then
        let s := s.swapHalves h
        let s := match q.pkg with
          | some p => (s.onLane (fun l => { l with pkg := some p })).showPkg p
          | none => s
        let s := s.onLane (fun l => { l with seq := some { q with stage := 2 } })
        (s.halfToOff (otherHalf h)).bringIn (otherHalf h) true
      else s
    | none =>
      match s.lane.swap with
      | some c => if c ≤ start then s.swapHalves h else s
      | none => s
  | _, _ => s

/-- A half that was armed becomes ACTIVE (R283); one whose claim is overtaken otherwise fails. -/
def State.activate (s : State) (h : Nat) : State :=
  let m := (s.half h).arming
  let o := otherHalf h
  let s := if s.halfSt o = halfActive then s.failHalf o else s
  (s.setHalf h { s.half h with arming := .none, mark := m, loaded := false }).enterHalf h halfActive

/-- PERIOD_START: the next period starts on its grid; `at_` is its count when gPTP sets the grid (R270). -/
def execPeriodStart (at_ : Nat) (s : State) : Res :=
  s.whenUp (fun s =>
    match s.lane.pkg with
    | none => s
    | some p =>
      let len := pkgLength p
      let k := match s.lane.period with
        | some k => k + 1
        | none => ceilDiv (s.gauge - s.lane.grid) len
      let start := if s.flag .CTL_CTRL_TIMEBASE then max s.gauge at_ else s.lane.grid + k * len
      let s := { s with gauge := max s.gauge start }
      let s := s.onLane (fun l => { l with period := some k, start := start, launchAt := none, answered := false, heldOut := false,
                                           outs := l.outs.map (fun e => (e.1, { e.2 with live := false })) })
      let s := s.setFld .CTL_PERIOD_CNT_COUNT k
      let s := [0, 1].foldl (fun s h => if (s.half h).arming = .none then s else s.activate h) s
      s.plannedSwap start)

/-- The word of an input frame that the module accepts: VER 1, Reserved bits zero, WORDS as many as follow (R277, R278). -/
def laneHeaderOk (hdr : Nat) (ws : List Nat) : Bool :=
  bits hdr 0 8 == 1 && bits hdr 20 12 == 0 && bits hdr 16 4 == ws.length && decide (ws.length ≤ 7)

def State.rxDrop (s : State) (p : Nat) : State := s.bumpSat .CTL_PORT_STS_RX_DROP 1 0 p

/-- A control port is in use (R290). -/
def State.portUp (s : State) (p : Nat) : Bool := decide (p < 4) && s.flag .CTL_PORT_STS_LINK_UP 0 p && !s.portsOff

/-- LANE_FRAME_RX: a frame with the package's EtherType arrives at a port; its stream filter chose queue `q` (R269, R278). -/
def execLaneFrameRx (port q hdr : Nat) (ws : List Nat) (s : State) : Res :=
  s.whenUp (fun s =>
    if !s.portUp port || decide (4 ≤ q) then s
    else if !laneHeaderOk hdr ws || !((s.lane.pkg.map LanePkg.axes).getD []).any (fun a => a.axis == bits hdr 8 8 && a.queue == q) then s.rxDrop port
    else
      let k := 4 * port + q
      let x := s.queue k
      let s := s.setQueue k (x.arrive k (hdr :: ws))
      if (x.enterGap k).admits (ws.length + 1) then s
      else
        let s := s.onLane (fun l => { l with gaps := Tab.set (fun _ => 0) k (Tab.get (fun _ => 0) l.gaps k + 1) l.gaps })
        (s.bumpSat .CTL_Q_STS_GAPS 1 0 k).setSts .CTL_STS [6])

/-- PTP_FRAME_RX: a frame of the PTP instance; one of another domain is dropped. A valid synchronisation gives the follower its time
(R268, R269, R270). -/
def execPtpFrameRx (port domain : Nat) (sync : Bool) (s : State) : Res :=
  s.whenUp (fun s =>
    if !s.portUp port then s
    else match s.lane.pkg with
      | none => s.rxDrop port
      | some p =>
        if domain ≠ p.domain then s.rxDrop port
        else if sync && !s.flag .CTL_CTRL_TS_ROLE then
          let s := (List.range 4).foldl (fun s q => s.setFld .CTL_PORT_STS_TS_PORT (b2n (q == port)) 0 q) s
          (s.setFld .CTL_STATE_TS_LOCK 1).onLane (fun l => { l with tsPort := port })
        else s)

/-- TS_UNLOCK: a follower without valid synchronisation for three intervals (R270). -/
def execTsUnlock (s : State) : Res :=
  s.whenUp (fun s =>
    if s.flag .CTL_CTRL_TS_ROLE || !s.flag .CTL_STATE_TS_LOCK then s
    else
      let s := (s.setFld .CTL_STATE_TS_LOCK 0).setFld .CTL_PORT_STS_TS_PORT 0 0 s.lane.tsPort
      (s.setSts .CTL_STS [9]).emit 16 0x40 0x0A s.laneOwner s.lane.tsPort)

/-- What the ingress engine reads of a queue: a gap marker, or an item with whether each word is poisoned (R215, R278). -/
def readItem : Nat → List Bool → IQueue → List (BitVec 72 × Bool) → List (BitVec 72 × Bool) × IQueue
  | 0, _, x, acc => (acc, x)
  | n + 1, flips, x, acc =>
    match x.read (flips.headD false) with
    | (none, x') => if x.words.isEmpty then (acc, x') else readItem n flips x' acc
    | (some (w, bad), x') =>
      let acc' := acc ++ [(w, bad)]
      let pos := w.toNat / 2 ^ 64 % 4
      if wordGap w ∨ pos = 0 ∨ pos = 3 ∨ bad then (acc', x') else readItem n (flips.drop 1) x' acc'

def wordData (w : BitVec 72) : Nat := w.toNat % 2 ^ 64

/-- INGRESS_READ: the ingress engine reads the front item of a queue into the input slots of both halves; `flips` marks words whose
stored parity has failed (R215, R278, R279). -/
def execIngressRead (q : Nat) (flips : List Bool) (s : State) : Res :=
  s.whenUp (fun s =>
    if 16 ≤ q then s
    else
      let r := readItem 32 flips (s.queue q) []
      let s := s.setQueue q (r.2.enterGap q)
      match r.1 with
      | [] => s
      | (w, bad) :: t =>
        let anyBad := bad || t.any (·.2)
        let s := if anyBad then (s.setSts .CTL_STS [7]).reportMod 2 0x000A [s.laneOwner] q else s
        if bad || wordGap w then s
        else
          let a := bits (wordData w) 8 8
          let x := s.axisIn a
          if anyBad then s.setAxisIn a { x with got := 2 }
          else s.setAxisIn a { x with got := 1, words := t.map (fun e => wordData e.1) })

/-- The status word of an input slot (R279). -/
def slotStatus (got age gaps period : Nat) (m : LaneMark) : Nat :=
  (if got = 1 then 0 else if got = 0 then 1 else 2) + min 255 age * 2 ^ 8 + min 255 gaps * 2 ^ 16 + b2n (m == .start) * 2 ^ 24
    + b2n (m == .resume) * 2 ^ 25 + b2n (m == .restart) * 2 ^ 26 + period % 2 ^ 32 * 2 ^ 32

/-- The input slots close for a period (R274, R279). -/
def State.closeSlots (s : State) (p : LanePkg) (k : Nat) (m : LaneMark) : State :=
  let s := p.axes.foldl (fun s a =>
    let x := s.axisIn a.axis
    let age := if x.got = 1 then 0 else min 255 (x.age + 1)
    let gaps := ((List.range 4).map (fun port => Tab.get (fun _ => 0) s.lane.gaps (4 * port + a.queue))).sum
    s.setAxisIn a.axis { x with got := 0, age := age, status := slotStatus x.got age gaps k m }) s
  s.onLane (fun l => { l with gaps := [] })

/-- PERIOD_LAUNCH: the period launches at the cut-off, or when every EXPECT axis holds a frame (R274). -/
def execPeriodLaunch (s : State) : Res :=
  s.whenUp (fun s =>
    match s.lane.pkg, s.lane.period with
    | some p, some k =>
      if s.lane.launchAt.isSome then s
      else
        let early := (p.axes.filter LaneAxis.expect).all (fun a => (s.axisIn a.axis).got == 1) && p.axes.any LaneAxis.expect
        let g := if early then s.gauge else max s.gauge (s.lane.start + p.cut)
        let m := ((s.halfIn halfActive).map (fun h => (s.half h).mark)).getD .none
        (({ s with gauge := g }).closeSlots p k m).onLane (fun l => { l with launchAt := some g })
    | _, _ => s)

/-- H_k (R276). -/
def State.holdAt (s : State) (p : LanePkg) : Nat := s.lane.start + p.cut + pkgLatency p - 421

/-- EVALUATION_DONE: the active half has evaluated the period: its outputs, its new state, a self-diagnosis check that failed, and the
time from launch to the last answer on the wire (R266, R267, R275, R284). An evaluation later than H_k is a failed check. -/
def execEvaluationDone (outs : List (Nat × List Nat)) (bytes : List Nat) (check : Option Nat) (lat : Nat) (s : State) : Res :=
  s.whenUp (fun s =>
    match s.lane.pkg, s.lane.period, s.halfIn halfActive with
    | some p, some k, some h =>
      if s.lane.launchAt.isNone ∨ s.lane.answered then s
      else match (if s.holdAt p < s.gauge then check.or (some 3) else check) with
        | some c => s.selfFail h c
        | none =>
          let s := outs.foldl (fun s o => s.liveFrame h k p ((s.half h).mark == .resume) o) s
          let c : LaneCopy := { period := k, bytes := bytes.take 65280, outs := outs }
          let s := s.setHalf h { s.half h with copy := some c, mark := .none }
          let s := s.onLane (fun l => { l with answered := true, sent := some c })
          let s := s.setFld .CTL_PERF_MAXLAT_COUNT (max lat (s.fld .CTL_PERF_MAXLAT_COUNT))
          if s.flag .CTL_CTRL_CKPT_EN ∧ k % 64 = 63 then s.onLane (fun l => { l with ckpt := some (c, (s.half h).accepted) }) else s
    | _, _, _ => s)

/-- HOLD_FRAMES: at H_k the egress unit sends a HOLD frame for each axis without a live frame; an active half that has not finished
fails its check (R276, R282, R284, R289). -/
def execHoldFrames (s : State) : Res :=
  s.whenUp (fun s =>
    match s.lane.pkg, s.lane.period with
    | some p, some _ =>
      if s.lane.heldOut then s
      else
        let s := { s with gauge := max s.gauge (s.holdAt p) }
        let s := match s.halfIn halfActive with
          | some h => if s.lane.answered then s else s.selfFail h 3
          | none => s
        let need := p.axes.any (fun a => !(s.axisOut a.axis).live)
        let s := p.axes.foldl (fun s a => s.holdFrame p a) s
        let s := s.onLane (fun l => { l with heldOut := true })
        if need then s.setSts .CTL_STS [5] else s
    | _, _ => s)

/-! ### Claims, copies, takeovers (R280-R286, R289) -/

/-- CLAIM: a half announces a claim; an ACTIVE half that a higher claim overtakes fails (R281, R283). -/
def execClaim (h c : Nat) (s : State) : Res :=
  s.whenUp (fun s =>
    if 2 ≤ h then s
    else
      let up := c != 0 && claimHigher c (s.fld .CTL_CLAIM_LAST_LAST)
      let s := s.announce h (c % 65536)
      if up && s.halfSt (otherHalf h) == halfActive then s.failHalf (otherHalf h) else s)

/-- STATE_COPY_RECEIVE: the other half receives the holder's copy, and commits it when its CRC is good; two bad copies in a row fail a
STANDBY half (R283, R285). -/
def execStateCopyReceive (good : Bool) (s : State) : Res :=
  s.whenUp (fun s =>
    match s.halfIn halfActive, s.lane.sent with
    | some a, some c =>
      let h := otherHalf a
      let st := s.halfSt h
      let s := s.onLane (fun l => { l with sent := none })
      if st = halfStandby then
        (if good then s.setHalf h { s.half h with copy := some c, bad := 0 }
         else
           let n := (s.half h).bad + 1
           let s := s.setHalf h { s.half h with bad := n }
           if 2 ≤ n then (s.setSts .CTL_STS [4]).failHalf h else s)
      else if st = halfLoad ∧ (s.half h).loaded ∧ good then (s.setHalf h { s.half h with copy := some c }).enterHalf h halfShadow
      else s
    | _, _ => s)

/-- C_k (R276). -/
def State.copyAt (s : State) (p : LanePkg) : Nat := s.lane.start + p.cut + pkgLatency p + 640

/-- TAKEOVER: the holder's claim is 0, or no copy of the period has passed by C_k; the STANDBY half takes the claim (R285). -/
def execTakeover (s : State) : Res :=
  s.whenUp (fun s =>
    match s.lane.pkg, s.lane.period, s.halfIn halfStandby with
    | some p, some k, some h =>
      let o := otherHalf h
      let silent := (s.half o).accepted = 0
      let missed := ((s.half h).copy.map LaneCopy.period) ≠ some k
      if (s.half h).arming ≠ .none ∨ !(silent ∨ missed) then s
      else
        let s := if silent then s else { s with gauge := max s.gauge (s.copyAt p) }
        let c := s.nextClaim
        let s := (s.announce h c).setHalf h { (s.announce h c).half h with arming := .resume }
        let lost := k - ((s.half h).copy.map LaneCopy.period).getD 0
        let s := (s.bumpSat .CTL_CLAIM_LAST_TAKEOVERS 1).setSts .CTL_STS [0]
        let s := s.laneEvent 1 (c + h * 2 ^ 16 + min 255 lost * 2 ^ 24)
        if s.halfSt o = halfActive then s.failHalf o else s
    | _, _, _ => s)

/-! ### Bringing a half in (R283, R289, R292) -/

/-- HALF_SCRUB_DONE: tile stores and partition are cleared and checked. -/
def execHalfScrubDone (h : Nat) (s : State) : Res :=
  s.whenUp (fun s =>
    if 2 ≤ h ∨ s.halfSt h ≠ halfScrub then s
    else
      let s := (s.halfTiles h).foldl (fun s p => s.clearTile p) s
      (s.clearPart (s.placePart (s.fld (placeFld h)))).enterHalf h halfSelftest)

/-- HALF_SELFTEST_DONE: to LOAD, or FAILED. -/
def execHalfSelftestDone (h : Nat) (pass : Bool) (s : State) : Res :=
  s.whenUp (fun s => if 2 ≤ h ∨ s.halfSt h ≠ halfSelftest then s else if pass then s.enterHalf h halfLoad else s.failHalf h)

/-- HALF_LOAD_DONE: a lost lane restarts from a checkpoint; a lane that starts runs from the initial state; otherwise the half waits for
a committed copy (R283, R289). -/
def execHalfLoadDone (h : Nat) (s : State) : Res :=
  s.whenUp (fun s =>
    if 2 ≤ h ∨ s.halfSt h ≠ halfLoad ∨ (s.half h).loaded then s
    else
      let s := s.setHalf h { s.half h with loaded := true }
      let taken := (s.halfIn halfActive).isSome || (s.half (otherHalf h)).arming != .none || (s.halfIn halfStandby).isSome
      if taken then s
      else if s.flag .CTL_STATE_LOST then s.restartHalf h
      else match s.halfPkg h with
        | some p => (s.setHalf h { s.half h with arming := .start, copy := some { period := 0, bytes := p.init } }).announce h s.nextClaim
        | none => s)

/-- SHADOW_COMPARE: a half has computed one period from the committed copy; equal state and output make it STANDBY (R283). A package that
declares changed numerics is not compared (R292). -/
def execShadowCompare (outs : List (Nat × List Nat)) (bytes : List Nat) (s : State) : Res :=
  s.whenUp (fun s =>
    match s.halfIn halfShadow, s.lane.sent with
    | some h, some c =>
      if (s.half h).copy.any (fun x => x.period == c.period) then s
      else
        let skip := (s.half h).fresh && ((s.lane.seq.bind LaneSeq.pkg).map LanePkg.changed).getD false
        let s := s.onLane (fun l => { l with sent := none })
        if skip || (c.bytes == bytes && c.outs == outs) then (s.setHalf h { s.half h with copy := some c }).toStandby h
        else
          let fresh := (s.half h).fresh
          let s := ((s.setSts .CTL_STS [3]).laneEvent 6 (h * 2 ^ 16)).laneReport 3 h
          let s := s.failHalf h
          if fresh && s.lane.seq.isSome then s.seqFail else s
    | _, _ => s)

/-- CHECKPOINT_WRITE: a checkpoint stands in the older slot, or its write failed (R288). -/
def execCheckpointWrite (ok : Bool) (s : State) : Res :=
  s.whenUp (fun s =>
    match s.lane.ckpt with
    | none => s
    | some (c, claim) =>
      let s := s.onLane (fun l => { l with ckpt := none })
      if ok ∧ (s.lane.period.getD 0) ≤ c.period + 64 then
        let digest := (s.srv.model (s.fld .CTL_CTRL_LANE_MODEL)).digest
        (s.store (s.ckptAddr s.ckptOlder) (ckptBytes c claim digest)).setFld .CTL_CKPT_STS_PERIOD c.period
      else s.setSts .CTL_STS [10])

/-! ### Ports (R290, R295) -/

def portDefault (_ : Nat) : Port := {}
def State.port (s : State) (p : Nat) : Port := Tab.get portDefault s.lane.ports p
def State.setPort (s : State) (p : Nat) (x : Port) : State := s.onLane (fun l => { l with ports := Tab.set portDefault p x l.ports })

def State.portEvent (s : State) (code payload : Nat) : State := s.emit 16 0x40 code s.laneOwner payload

/-- A port goes into or out of use. -/
def State.usePort (s : State) (p : Nat) (up : Bool) : State :=
  if s.flag .CTL_PORT_STS_LINK_UP 0 p == up then s
  else ((s.setFld .CTL_PORT_STS_LINK_UP (b2n up) 0 p).setFld .CTL_PORT_STS_FEC_ACTIVE (if up then bits (s.port p).cfg 1 2 else 0) 0 p).portEvent 8 (p + b2n up * 4)

/-- LINK_CHANGE: a port's link changes state; FLAP_LIMIT changes within 10 s quarantine the port. A new CTL_PORT_CFG is applied when the
link goes down (R290, R295). -/
def execLinkChange (p : Nat) (up : Bool) (s : State) : Res :=
  s.whenUp (fun s =>
    if 4 ≤ p ∨ (s.port p).link = up ∨ s.portsOff then s
    else
      let x := s.port p
      let recent := (x.changes.filter (fun t => decide (s.gauge < t + 3200000000))) ++ [s.gauge]
      let cfg := if up then x.cfg else (s.word .CTL_PORT_CFG 0 p).toNat
      let s := s.setPort p { x with link := up, since := s.gauge, changes := recent, cfg := cfg }
      let s := s.setFld .CTL_PORT_STS_FLAPS (min 255 recent.length) 0 p
      let s := if up then s else s.usePort p false
      let lim := bits cfg 4 4
      if lim ≠ 0 ∧ lim ≤ recent.length ∧ !s.flag .CTL_PORT_STS_QUARANTINE 0 p then
        let s := (s.usePort p false).setPort p { s.port p with until_ := s.gauge + bits cfg 16 8 * 320000000 }
        (((s.setFld .CTL_PORT_STS_QUARANTINE 1 0 p).setSts .CTL_STS [8]).portEvent 8 p).portEvent 9 p
      else s)

/-- UP_HOLD_EXPIRY: a link has been up and stable for UP_HOLD, and its port is taken into use (R290). -/
def execUpHoldExpiry (p : Nat) (s : State) : Res :=
  s.whenUp (fun s =>
    let x := s.port p
    if 4 ≤ p ∨ !x.link ∨ s.flag .CTL_PORT_STS_QUARANTINE 0 p ∨ !bit x.cfg 0 then s
    else ({ s with gauge := max s.gauge (x.since + bits x.cfg 8 8 * 320000) }).usePort p true)

/-- QUARANTINE_END: FLAP_HOLD of a quarantined port has passed (R290). -/
def execQuarantineEnd (p : Nat) (s : State) : Res :=
  s.whenUp (fun s =>
    if 4 ≤ p ∨ !s.flag .CTL_PORT_STS_QUARANTINE 0 p then s
    else
      let x := s.port p
      let g := max s.gauge x.until_
      (({ s with gauge := g }).setPort p { x with since := g, changes := [] }).setFld .CTL_PORT_STS_QUARANTINE 0 0 p)

end Sys2Proof.Machine
end

