-- ==== Sys2Proof/Machine/Power.lean ====
section
/-! DEFINITION. Coolant records, survival power, junction temperatures, caps and the envelope, rails, the link's lanes (R472-R503). -/

namespace Sys2Proof.Machine

/-- A THERMAL event, for firmware alone, and the report of its severity with cause 0x0013 (R500). -/
def State.thermEvent (s : State) (code payload : Nat) : State := s.emit 18 0x80 code mgmtRealm payload
def State.thermReport (s : State) (sev : Nat) : State := s.report sev 0x0013 4 0 3 [] 0

/-! ### Caps (R481, R483, R486) -/

/-- Parts of a watt in which the envelope and the junction loop's cap are held: S/600 and 0.5 W are whole numbers of them. -/
def State.wattParts (s : State) : Nat := 6 * max 1 (s.fld .THM_ID_R_JC)

/-- The selected cap in W, as last sampled. -/
def capWatts (sel : Nat) : Nat := match sel with
  | 0 => 150
  | 1 => 225
  | _ => 300

def survivalW : Nat := 45

def State.coolSt (s : State) : Nat := s.fld .THM_STATE_COOL
def coolOk : Nat := 0
def coolStale : Nat := 1
def coolLoss : Nat := 2

/-- The lowest of some caps with their limiters; at equal caps the later one limits. -/
def lowestCap : List (Nat × Nat) → Nat × Nat → Nat × Nat
  | [], m => m
  | x :: t, m => lowestCap t (if x.1 ≤ m.1 then x else m)

/-- Caps besides the selected one, with their limiters: 1 coolant, 2 junction, 3 supply, 4 ALERT_N. -/
def State.otherCaps (s : State) : List (Nat × Nat) :=
  let p := s.pwr
  let j := (p.jcap.map (fun c => (c / s.wattParts, 2))).toList
  let surv := (p.held.map (fun l => (survivalW, l))).toList ++ (if p.dip then [(survivalW, 3)] else [])
  if surv.isEmpty then
    (p.cool.map (fun c => (c, 1))).toList ++ (if s.coolSt = coolStale then [(150, 1)] else []) ++ j
      ++ (if p.spots.any (fun e => e.2.bad) then [(150, 2)] else [])
  else surv ++ j

/-- The effective cap and its limiter. -/
def State.effCap (s : State) : Nat × Nat := lowestCap s.otherCaps (capWatts s.pwr.sel, 0)

/-- E falls at once to a cap other than the selected one (R486). -/
def State.clampEnv (s : State) : State :=
  s.onPwr (fun p => { p with env := s.otherCaps.foldl (fun e c => min e (c.1 * s.wattParts)) p.env })

/-- PWR_STATE.STATE of a cap. -/
def State.powerSt (s : State) : Nat :=
  if s.flag .THM_STATE_TRIP then 3 else if s.flag .THM_STATE_SURVIVAL then 2 else if s.effCap.1 < capWatts s.pwr.sel then 1 else 0

/-- PWR_STATE, CLK_CTRL.LOW_POWER and MOD_ALERT_N follow the caps; a change of STATE or LIMITER is reported. -/
def State.capApply (s : State) : State :=
  let s := s.clampEnv
  let c := s.effCap
  let oldSt := s.fld .PWR_STATE_STATE
  let oldLim := s.fld .PWR_STATE_LIMITER
  let st := s.powerSt
  let s := ((s.setFld .PWR_STATE_STATE st).setFld .PWR_STATE_LIMITER c.2).setFld .PWR_STATE_EFF_CAP (min 1023 c.1)
  let s := s.setFld .PWR_STATE_ENVELOPE (min 1023 (s.pwr.env / s.wattParts))
  let s := if c.1 < 200 then s.forceLow true else if 210 ≤ c.1 then s.forceLow false else s
  let s := if c.2 = oldLim then s else s.setSts .PWR_STS [0]
  let s := if st = oldSt ∧ c.2 = oldLim then s
    else (s.evRealms ++ [mgmtRealm]).foldl (fun (s : State) r => s.emit 18 0x80 2 r (st + c.2 * 2 ^ 3 + min 1023 c.1 * 2 ^ 8)) s
  s.modAlert

/-! ### Survival power (R490-R492) -/

/-- THM_STATE.SURVIVAL follows its causes; tiles slow down or speed up by R427. -/
def State.survShow (s : State) : State :=
  let on := s.pwr.held.isSome || s.pwr.dip
  if on = s.flag .THM_STATE_SURVIVAL then s.capApply
  else
    ((s.setFld .THM_STATE_SURVIVAL (b2n on)).setFld .CLK_STATE_RAMP_BUSY 1).capApply

/-- The module steps to survival power; `lim` is what limits. -/
def State.survEnter (s : State) (lim : Nat) : State :=
  let s := if s.pwr.held.isNone then s.setSts .THM_STS [0] else s
  (s.onPwr (fun p => { p with goodSince := none, held := some (p.held.getD lim) })).survShow

/-- A coolant state is entered (R500). -/
def State.coolEnter (s : State) (c : Nat) : State :=
  if s.coolSt = c then s
  else
    let s := s.setFld .THM_STATE_COOL c
    let s := if c = coolStale then s.setSts .THM_STS [1] else s
    let s := s.thermEvent 1 (c + s.fld .THM_COOL_FLOW_FLOW * 2 ^ 16)
    if c = coolLoss then s.thermReport 3 else if c = coolStale then s.thermReport 4 else s

/-- T_THROTTLE as sampled, in 0.5 °C. -/
def State.throttleAt (s : State) : Int := (2 * (s.pwr.ctrl % 256) : Nat)

/-- The filtered ALERT_N is asserted and not stuck. -/
def State.alertOn (s : State) : Bool := ((s.pwr.side[2]?).map SideIn.effect).getD false

/-- The conditions of R492 that no record shows: ALERT_N and the junction. -/
def State.coolEnough (s : State) : Bool :=
  !s.alertOn && s.pwr.spots.all (fun e => !e.2.bad) && (match s.pwr.hottest with
    | some t => decide (t < s.throttleAt)
    | none => true)

/-- A run of 10 s by R492 breaks. -/
def State.breakGood (s : State) : State := s.onPwr (fun p => { p with goodSince := none })

/-- SURVIVAL_EXIT: the conditions of R492 have held for 10 s, and P_cool is at least 45 W (R489). -/
def execSurvivalExit (s : State) : Res :=
  s.whenUp (fun s =>
    match s.pwr.goodSince with
    | none => s
    | some t =>
      if s.pwr.held.isNone || s.flag .THM_STATE_TRIP || !s.coolEnough || decide ((s.pwr.cool.getD survivalW) < survivalW) then s
      else (({ s with gauge := max s.gauge (t + 3200000000) } : State).onPwr (fun p => { p with held := none, goodSince := none })).setSts .THM_STS [2] |>.survShow)

/-! ### Coolant records (R487-R490) -/

/-- CRC-16 with polynomial 0x1021 and initial value 0xFFFF, most significant bit first. -/
def recordCrcBits : Nat → Nat → Nat
  | 0, c => c
  | k + 1, c => recordCrcBits k (if 0x8000 ≤ c then Nat.xor (2 * c % 2 ^ 16) 0x1021 else 2 * c)

def recordCrc (b : List Nat) : Nat := b.foldl (fun c x => recordCrcBits 8 (Nat.xor c (x % 256 * 256))) 0xFFFF

/-- P_cool in whole watts of a flow in 0.001 L/min and an inlet temperature in 0.01 °C (R489). -/
def pCool (cv flow tOut : Nat) (tIn : Int) : Nat := ((cv * flow : Nat) * ((100 * tOut : Nat) - tIn) / 6000000 : Int).toNat

/-- An accepted record (R488-R490). -/
def State.recordTaken (s : State) (b : List Nat) : State :=
  let now := s.gauge
  -- R503: the settings are sampled
  let s := s.onPwr (fun p => { p with ctrl := (s.word .THM_CTRL).toNat, tOut := s.fld .THM_COOL_CFG_T_OUT_MAX })
  let flow := fieldOf b 8 2
  let s := if bit s.pwr.ctrl 11 then s else s.setFld .THM_COOL_CFG_FLOW_NOM (fieldOf b 0x0A 2)
  let nom := s.fld .THM_COOL_CFG_FLOW_NOM
  let s := ((s.setFld .THM_COOL_TEMP_T_IN (fieldOf b 4 2)).setFld .THM_COOL_TEMP_T_OUT (fieldOf b 6 2)).setFld .THM_COOL_FLOW_FLOW flow
  let recent := s.pwr.flows.filter (fun e => decide (now ≤ e.1 + 320000000))
  let peak := recent.foldl (fun m e => max m e.2) 0
  let alarm := bit (fieldOf b 1 1) 1
  let loss := decide (10 * flow < nom) || decide (2 * flow < peak) || alarm
  let pc := pCool (bits s.pwr.ctrl 12 12) flow s.pwr.tOut (toSigned 16 (fieldOf b 4 2))
  let s := s.onPwr (fun p => { p with seq := some (fieldOf b 2 2), lastAt := some now, flows := recent ++ [(now, flow)], cool := some pc,
                                      okSince := if loss then none else some (p.okSince.getD now) })
  let s := if loss then s.coolEnter coolLoss
    else match s.pwr.okSince with
      | some t => if t + 320000000 ≤ now then s.coolEnter coolOk else s
      | none => s
  if loss || decide (pc < survivalW) then s.survEnter 1
  else
    let s := if 3 * nom ≤ 10 * flow ∧ s.coolEnough then s.onPwr (fun p => { p with goodSince := some (p.goodSince.getD now) }) else s.breakGood
    s.capApply

/-- A record as the bus gives it; none of its bytes when the monitor is silent. -/
def State.coolRecord (s : State) (b : List Nat) : State :=
  if b.length ≠ 16 ∨ fieldOf b 0 1 ≠ 1 ∨ fieldOf b 0x0E 2 ≠ recordCrc (b.take 14) then s
  else if bit (fieldOf b 1 1) 0 ∧ s.pwr.seq ≠ some (fieldOf b 2 2) then s.recordTaken b
  else if bit (fieldOf b 1 1) 1 then ((s.onPwr (fun p => { p with okSince := none })).coolEnter coolLoss).survEnter 1
  else s

/-- COOLANT_RECORD_READ: the read of every 1 ms. -/
def execCoolantRecordRead (b : List Nat) (s : State) : Res := s.whenUp (fun s => s.coolRecord b)

/-- COOLANT_IBI: the monitor raises an in-band interrupt, and the record is read at once. -/
def execCoolantIbi (b : List Nat) (s : State) : Res := s.whenUp (fun s => s.coolRecord b)

/-- COOLANT_STALE: no record has been accepted for 100 ms. -/
def execCoolantStale (s : State) : Res :=
  s.whenUp (fun s =>
    match s.pwr.lastAt with
    | none => s
    | some t =>
      let s := ({ s with gauge := max s.gauge (t + 32000000) } : State).onPwr (fun p => { p with okSince := none, goodSince := none })
      (s.coolEnter coolStale).capApply)

/-! ### Junction temperatures (R493-R496) -/

/-- A reading is implausible outside -40 to 150 °C, 10 K off the spot's used value, or when its conversion failed. -/
def plausible (used : Option Int) (r : Option Int) : Bool :=
  match r with
  | none => false
  | some t => decide (-80 ≤ t) && decide (t ≤ 300) && (match used with
    | some u => decide ((t - u).natAbs ≤ 20)
    | none => true)

/-- One spot is read: the spot, what it newly shows (the pair flagged, the spot BAD), and its used value now. -/
def Spot.read (x : Spot) (a b : Option Int) (now : Nat) : Spot × Bool × Bool × Option Int :=
  let pa := plausible x.used a
  let pb := plausible x.used b
  let use := match pa, pb with
    | true, true => some (max (a.getD 0) (b.getD 0))
    | true, false => a
    | false, true => b
    | false, false => none
  let far := pa && pb && decide (6 < ((a.getD 0) - (b.getD 0)).natAbs)
  let apart := if far then some (x.apart.getD now) else none
  let near := if pa && pb && !far then some (x.near.getD now) else none
  let since := fun (o : Option Nat) (n : Nat) => (o.map (fun t => decide (t + n ≤ now))).getD false
  let flag := if since apart 320000000 then true else if since near 19200000000 then false else x.flag
  let lost := if use.isNone then some (x.lost.getD now) else none
  let bad := since lost 320000
  ({ used := use.or x.used, lost := lost, bad := bad, apart := apart, near := near, flag := flag }, flag && !x.flag, bad && !x.bad, if bad then none else use)

/-- A reading in the form of THM_SPOT; a failed conversion leaves the last one. -/
def spotCode (r : Option Int) (old : Nat) : Nat := match r with
  | some t => ofSigned 10 t
  | none => old

/-- One spot of a JUNCTION_READ, with its register and its reports; the used values so far. -/
def State.spotRead (s : State) (i : Nat) (r : Option Int × Option Int) : Option Int × State :=
  let old := Tab.get (fun _ => ({} : Spot)) s.pwr.spots i
  let x := old.read r.1 r.2 s.gauge
  let s := s.onPwr (fun p => { p with spots := Tab.set (fun _ => ({} : Spot)) i x.1 p.spots })
  let s := (s.setFld .THM_SPOT_READ_A (spotCode r.1 (s.fld .THM_SPOT_READ_A 0 i)) 0 i).setFld .THM_SPOT_READ_B (spotCode r.2 (s.fld .THM_SPOT_READ_B 0 i)) 0 i
  let s := (s.setFld .THM_SPOT_A_BAD (b2n (!plausible old.used r.1)) 0 i).setFld .THM_SPOT_B_BAD (b2n (!plausible old.used r.2)) 0 i
  let s := (s.setFld .THM_SPOT_FLAG (b2n x.1.flag) 0 i).setFld .THM_SPOT_BAD (b2n x.1.bad) 0 i
  let payload := i + b2n x.1.flag * 2 ^ 4 + b2n x.1.bad * 2 ^ 5
  let s := if x.2.1 then ((s.setSts .THM_STS [6]).thermEvent 3 payload).thermReport 1 else s
  let s := if x.2.2.1 then ((s.setSts .THM_STS [7]).thermEvent 3 payload).thermReport 4 else s
  (x.2.2.2, s)

/-- TRIP (R495): the lane stops and is lost, every other unit is held, the control ports stop. -/
def State.trip (s : State) : State :=
  let s := s.setFld .THM_STATE_TRIP 1
  let s := ((s.setSts .THM_STS [5]).thermEvent 4 0).thermReport 4
  if s.flag .CTL_CTRL_LANE_EN then ((s.halfToOff 0).halfToOff 1).loseLane else s

/-- The end of TRIP: survival power, and both halves are brought in. -/
def State.tripEnd (s : State) : State := (((s.setFld .THM_STATE_TRIP 0).survEnter 2).laneRepair 0).laneRepair 1

/-- The thresholds (R494). -/
def State.thresholds (s : State) (hot : Int) (was : Option Int) : State :=
  let past := fun (t : Int) => decide (t ≤ hot)
  let s := if s.throttleAt < hot then
      let base := s.pwr.jcap.getD (s.effCap.1 * s.wattParts)
      (s.onPwr (fun p => { p with jcap := some (base - s.wattParts / 2) })).setSts .THM_STS [3]
    else s
  let s := if past 220 && !((was.map (fun t => decide (220 ≤ t))).getD false) then s.setSts .THM_STS [4] else s
  let s := if past 220 then s.survEnter 2 else s
  let s := if past 230 && !s.flag .THM_STATE_TRIP then s.trip else s
  if s.flag .THM_STATE_TRIP && decide (hot ≤ 200) && s.coolSt == coolOk then s.tripEnd else s

/-- JUNCTION_READ: the two sensors of each of the 16 spots are read, in 0.5 °C, none for a failed conversion. -/
def execJunctionRead (rs : List (Option Int × Option Int)) (s : State) : Res :=
  s.whenUp (fun s =>
    let x := (List.range 16).foldl (fun (a : List (Nat × Int) × State) i =>
      let y := a.2.spotRead i (rs.getD i (none, none))
      (a.1 ++ (y.1.map (fun t => (i, t))).toList, y.2)) ([], s)
    let s := x.2
    let was := s.pwr.hottest
    let s := match x.1 with
      | [] => s.onPwr (fun p => { p with hottest := none })
      | e :: t =>
        let h := t.foldl (fun (m d : Nat × Int) => if m.2 < d.2 then d else m) e
        let s := s.onPwr (fun p => { p with hottest := some h.2 })
        ((s.setFld .THM_STATE_HOT_SPOT h.1).setFld .THM_STATE_T_MAX (ofSigned 10 h.2)).thresholds h.2 was
    let s := if s.coolEnough then s else s.breakGood
    s.capApply)

/-! ### Power and envelope (R482-R485, R405) -/

/-- POWER_MEASURE: the 1 ms average in 0.1 W and P12V in 5 mV; R483 acts on the cap that stands. -/
def execPowerMeasure (power volt : Nat) (s : State) : Res :=
  s.whenUp (fun s => ((s.setFld .PWR_IN_POWER (min 4095 power)).setFld .PWR_IN_V_MAIN (min 4095 volt)).capApply)

/-- One step of E by R484: S/600 is 10 · RAMP parts. -/
def stepEnv (env want step : Nat) : Nat := if env < want then min want (env + step) else max want (env - step)

/-- ENVELOPE_UPDATE: every 100 ms; `demand` is the power in W that the present work would draw, `rlm` the power of each realm's tile groups over
the window, to the nearest 1 W. -/
def execEnvelopeUpdate (demand : Nat) (rlm : List Nat) (s : State) : Res :=
  s.whenUp (fun s =>
    let sel := if s.fld .PWR_CTRL_CAP_SEL = 3 then 2 else s.fld .PWR_CTRL_CAP_SEL
    let ramp := bits s.pwr.ctrl 8 3
    let step := 10 * (if ramp = 0 ∨ 5 < ramp then 5 else ramp)
    let s := s.onPwr (fun p => { p with sel := sel })
    -- R494: the junction loop's cap rises by R484 once the reading is 3 K below T_THROTTLE
    let s := match s.pwr.jcap, s.pwr.hottest with
      | some c, some t => if t ≤ s.throttleAt - 6 then
          s.onPwr (fun p => { p with jcap := if capWatts sel * s.wattParts ≤ c + step then none else some (c + step) }) else s
      | _, _ => s
    let want := min (demand * s.wattParts) (s.effCap.1 * s.wattParts)
    let s := s.onPwr (fun p => { p with env := stepEnv p.env want step })
    let s := (List.range 4).foldl (fun (s : State) r =>
      (s.setFld .PWR_RLM_POWER_WATTS (min 1023 (rlm.getD r 0)) 0 r).bumpWrap .PWR_RLM_POWER_WINDOW 1 0 r) s
    s.capApply)

/-! ### Rails (R479, R480) -/

/-- MAIN_DIP: P12V falls below 10.8 V; `volt` is its lowest value in 5 mV. -/
def execMainDip (volt : Nat) (s : State) : Res :=
  s.whenUp (fun s =>
    let s := (s.onPwr (fun p => { p with dip := true, back := none })).survShow
    ((s.setSts .PWR_STS [2]).thermEvent 6 (1 + volt % 4096 * 2 ^ 16)).thermReport 1)

/-- MAIN_RETURN: P12V is back above 11.2 V within 5 ms. -/
def execMainReturn (s : State) : Res :=
  s.whenUp (fun s => if s.pwr.dip ∧ s.pwr.back.isNone then s.onPwr (fun p => { p with back := some s.gauge }) else s)

/-- DIP_RECOVERY_EXPIRY: one second later survival power ends for the supply. -/
def execDipRecoveryExpiry (s : State) : Res :=
  s.whenUp (fun s =>
    match s.pwr.back with
    | none => s
    | some t => (({ s with gauge := max s.gauge (t + 320000000) } : State).onPwr (fun p => { p with dip := false, back := none })).survShow)

/-- AUX_LOST: P3V3_AUX is lost while P12V is present; it does not stop the module. -/
def execAuxLost (s : State) : Res :=
  s.whenUp (fun s =>
    if !s.pwr.aux then s
    else
      let s := s.onPwr (fun p => { p with aux := false })
      ((s.setSts .PWR_STS [5]).thermEvent 6 (2 + s.fld .PWR_IN_V_MAIN * 2 ^ 16)).thermReport 4)

/-! ### Lanes of the link (R472-R476) -/

/-- Bits of a set of lane numbers below 18. -/
def laneBits (l : List Nat) : Nat := (((List.range 18).filter l.contains).map (2 ^ ·)).sum

/-- The physical lane of each logical lane in turn (R473, R474). -/
def laneMap (steering : Bool) (failed : Nat) : List Nat :=
  if steering then ((List.range 18).filter (fun k => !bit failed k)).take 16 else List.range 16

/-- The lane census: `dead` are lanes without termination, `heard` those on which a valid word came, `far` the far side's bitmap. -/
def Lanes.census (x : Lanes) (dead heard : List Nat) (far : Nat) : Lanes :=
  let own := if x.clear then 0 else x.record
  let ok := (List.range 18).filter (fun k => heard.contains k && !dead.contains k)
  if 14 ≤ ok.length then
    let found := laneBits ((List.range 18).filter (fun k => !ok.contains k))
    let r := Nat.lor own found
    { x with record := r, failed := Nat.lor r (far % 2 ^ 18), steering := true, clear := false }
  else { x with record := own, failed := own, steering := false, clear := false }

def State.onLanes (s : State) (f : Lanes → Lanes) : State := s.onPwr (fun p => { p with lanes := f p.lanes })

/-- LINK_TRAINING: PERST_N is deasserted, the census is taken, and the link trains; `width` is what the PCIe training comes to where the lanes
do not give x16. -/
def execLinkTraining (dead heard : List Nat) (far width : Nat) (s : State) : Res :=
  .next (if !(s.up && s.boot.pllStable) || s.boot.linkUp then s
    else
      let s := s.onLanes (fun x => x.census dead heard far)
      let x := s.pwr.lanes
      let w := if x.steering ∧ (laneMap true x.failed).length = 16 then 16 else width
      (s.onLanes (fun x => { x with width := w })).onBoot (fun b => { b with linkUp := true }))

/-- LANE_FAIL: a lane fails while the link is up; the PCIe recovery handles it, and the record keeps it. -/
def execLaneFail (lane : Nat) (s : State) : Res :=
  .next (if !(s.up && s.boot.linkUp) || decide (18 ≤ lane) then s else s.onLanes (fun x => { x with record := Nat.lor x.record (2 ^ lane) }))

/-- LANE_RECORD_CLEAR: CLEAR of the capability is written. -/
def execLaneRecordClear (s : State) : Res :=
  .next (if !(s.up && s.boot.linkUp) then s else s.onLanes (fun x => { x with clear := true }))

end Sys2Proof.Machine
end

