-- ==== Sys2Proof/Machine/Stave.lean ====
section
/-! DEFINITION. The Gauge's alignment and the Stave chain (R429-R443). -/

namespace Sys2Proof.Machine

/-! ### The Gauge (R429-R431) -/

def gauFree : Nat := 0
def gauAligning : Nat := 1
def gauLocked : Nat := 2
def gauHoldover : Nat := 3
def gauMaster : Nat := 4

def State.gau (s : State) : Nat := s.fld .GAU_STATE_STATE

/-- A Gauge state is entered (R430, R443). -/
def State.gauEnter (s : State) (st : Nat) : State :=
  let old := s.gau
  let s := s.onStave (fun v => { v with inBand := 0 })
  if old = st then s
  else
    let s := s.setFld .GAU_STATE_STATE st
    let s := s.setSts .GAU_STS ((if st = gauLocked then [0] else []) ++ (if old = gauLocked then [1] else []) ++ (if st = gauHoldover then [2] else []))
    s.emitTo s.evRealms 17 0x60 2 (st + (s.word .GAU_OFFSET).toNat * 2 ^ 32)

/-- REALIGN (R430): it does nothing on the master, and with SERVO_EN = 0. -/
def State.realign (s : State) : State := if s.flag .STV_STATE_HEAD || !s.flag .GAU_CTRL_SERVO_EN then s else s.gauEnter gauAligning

def execRealign (w : Win) (s : State) : Res := s.fwCommand w .GAU_CMD 0 1 State.realign

/-- GAUGE_READ: a read of GAU_COUNT_LO; realm software sees the count rounded down to a multiple of 32 (R405, R429).
A read through the management window waits for the writes before it (R457). -/
def execGaugeRead (w : Win) (s : State) : Res :=
  .next (if !s.pageUp 2 || (match w with
    | .realm r => !s.windowOpen r
    | .mgmt => !s.boot.requests.isEmpty
    | .fw => false) then s
  else
    let g := match w with
      | .realm _ => s.gauge / 32 * 32
      | _ => s.gauge
    (s.setWord .GAU_COUNT_LO 0 0 (BitVec.ofNat 32 g)).setWord .GAU_COUNT_HI 0 0 (BitVec.ofNat 32 (g / 2 ^ 32)))

/-! ### Frames and slots (R433, R439) -/

/-- A Stave frame from its FLAGS on. -/
structure StvFrame where
  flags : Nat := 0
  enum : Nat := 0
  hops : Nat := 0
  mark : Nat := 0
  delay : Nat := 0
  res : Nat := 0
  share : Nat := 0
  slots : List (Option StvMsg) := []
  deriving DecidableEq, Repr

def parseSlot (b : List Nat) : Option StvMsg :=
  if fieldOf b 2 1 = 0 then none
  else some { dest := fieldOf b 0 1, src := fieldOf b 1 1, kind := fieldOf b 2 1, mflags := fieldOf b 3 1, payload := (b.drop 4).take 60 }

def slotBytes (x : Option StvMsg) : List Nat := match x with
  | none => List.replicate 64 0
  | some m => [m.dest % 256, m.src % 256, m.kind % 256, m.mflags % 256] ++ m.payload.take 60 ++ List.replicate (60 - m.payload.length) 0

/-- Bytes of a frame from offset 2 to the end of its CRC. -/
def stvBody : Nat := 1497

def parseFrame (b : List Nat) : StvFrame :=
  { flags := fieldOf b 0 1, enum := fieldOf b 1 1, hops := fieldOf b 2 1, mark := fieldOf b 3 8, delay := fieldOf b 11 4, res := fieldOf b 15 4,
    share := fieldOf b 19 2, slots := (List.range 23).map (fun k => parseSlot ((b.drop (21 + 64 * k)).take 64)) }

def frameBytes (f : StvFrame) : List Nat :=
  let b := [f.flags % 256, f.enum % 256, f.hops % 256] ++ leBytes 8 f.mark ++ leBytes 4 f.delay ++ leBytes 4 f.res ++ leBytes 2 f.share
    ++ ((List.range 23).map (fun k => slotBytes (f.slots.getD k none))).flatten
  b ++ leBytes 4 (crc32c b)

/-- A good frame: its CRC-32C stands. -/
def frameGood (b : List Nat) : Bool := b.length == stvBody && fieldOf b 1493 4 == crc32c (b.take 1493)

/-- What a frame's slots give a module: the slots it sends on, what it received, what is left of its send queue, how many it placed. -/
structure SlotRun where
  out : List (Option StvMsg) := []
  rx : List StvMsg := []
  tx : List StvMsg := []
  placed : Nat := 0
  deriving DecidableEq, Repr

/-- A message reaches a module: other kinds than those of R439 are dropped. -/
def SlotRun.take (a : SlotRun) (m : StvMsg) : SlotRun := if 1 ≤ m.kind ∧ m.kind ≤ 4 then { a with rx := a.rx ++ [m] } else a

/-- One slot at an attached module with address `me`, if it has one, that fills at most `limit` slots of a frame. -/
def stationSlot (me : Option Nat) (limit : Nat) (a : SlotRun) (x : Option StvMsg) : SlotRun :=
  match x with
  | none =>
    match a.tx, me with
    | m :: t, some addr =>
      if a.placed < limit then { a with out := a.out ++ [some { m with src := addr }], tx := t, placed := a.placed + 1 } else { a with out := a.out ++ [none] }
    | _, _ => { a with out := a.out ++ [none] }
  | some m =>
    if some m.dest = me then { (a.take m) with out := a.out ++ [none] }
    else if m.dest = 0xFF then
      if some m.src = me then { a with out := a.out ++ [none] } else { (a.take m) with out := a.out ++ [some m] }
    else { a with out := a.out ++ [some m] }

/-- One slot that returns to the master: it sets SEEN in what it forwards, and empties what has it already. -/
def masterSlot (a : SlotRun) (x : Option StvMsg) : SlotRun :=
  match x with
  | none => { a with out := a.out ++ [none] }
  | some m =>
    let seen := bit m.mflags 0
    let fwd := if seen then none else some { m with mflags := m.mflags + 1 }
    if m.dest = 0 then { (a.take m) with out := a.out ++ [none] }
    else if m.dest = 0xFF then
      if m.src = 0 then { a with out := a.out ++ [none] }
      else if seen then { a with out := a.out ++ [none] } else { (a.take m) with out := a.out ++ [fwd] }
    else { a with out := a.out ++ [fwd] }

/-- TX_SLOTS: 0 reads as 1. -/
def State.txSlots (s : State) : Nat := max 1 (s.fld .STV_CTRL_TX_SLOTS)

/-- Waiting swatch units and activation segments enter the send queue while it has room (R351, R441). -/
def State.stvFill (s : State) : Nat → State
  | 0 => s
  | n + 1 =>
    if 16 ≤ s.stave.tx.length then s
    else match s.stave.acts with
      | m :: t => (s.onStave (fun v => { v with tx := v.tx ++ [m], acts := t })).stvFill n
      | [] =>
        match s.det.swatch with
        | some w =>
          match w.queue with
          | u :: t => if w.phase = .running ∧ w.role = 1 then ((s.setSwatch (some { w with queue := t })).swatchSend w (u.message w)).stvFill n else s
          | [] => s
        | none => s

/-- Received messages join those that wait, and the counter of messages follows. -/
def State.stvTook (s : State) (a : SlotRun) : State :=
  (s.onStave (fun v => { v with rx := v.rx ++ a.rx, tx := a.tx })).bumpWrap .STV_PERF_MSG_COUNT (a.rx.length + a.placed)

/-! ### Alignment (R430, R431, R437) -/

/-- The offset E - A of a frame whose first bit arrived at A, in 1/256 gt. -/
def State.stvOffset (s : State) (f : StvFrame) (arr : Nat) : Int :=
  let w := if s.flag .STV_WIRE_VALID then s.fld .STV_WIRE_DELAY else f.share
  (256 * f.mark + w : Nat) + toSigned 32 f.delay - (arr : Nat)

/-- May a step be made (R431)? -/
def State.mayStep (s : State) : Bool := s.flag .GAU_CTRL_STEP_EN && !(s.flag .CTL_CTRL_LANE_EN && s.fld .CTL_CTRL_TIMEBASE == 0)

/-- The next Gauge state by an offset (R430). -/
def State.gauByOffset (s : State) (off : Int) : State :=
  if s.gau = gauLocked then (if off.natAbs ≤ 256 then s else s.gauEnter gauAligning)
  else if s.gau = gauAligning then
    if off.natAbs ≤ 32 then
      let s := s.onStave (fun v => { v with inBand := v.inBand + 1 })
      if 16 ≤ s.stave.inBand then s.gauEnter gauLocked else s
    else s.onStave (fun v => { v with inBand := 0 })
  else s.gauEnter gauAligning

/-- A good frame aligns the Gauge of a module that is not the master. A slew changes the rate of the ticks alone. -/
def State.servo (s : State) (f : StvFrame) (arr : Nat) : State :=
  if !s.flag .GAU_CTRL_SERVO_EN then s
  else
    let off := s.stvOffset f arr
    let s := s.setWord .GAU_OFFSET 0 0 (BitVec.ofNat 32 (ofSigned 32 off))
    if s.gau = gauFree ∧ s.nextUid = 1 then ({ s with gauge := ((off + (arr : Nat)) / 256).toNat } : State).gauEnter gauAligning
    else
      let s :=
        if 64 * 256 < off ∧ s.mayStep then
          let n := (off / 256).toNat
          (({ s with gauge := s.gauge + n } : State).setSts .GAU_STS [3]).timeEvent 17 3 (n % 2 ^ 64)
        else s
      s.gauByOffset off

/-! ### Enumeration (R436) -/

/-- A frame of a round gives an attached module its address; the frame as it goes on. -/
def State.enumTake (s : State) (f : StvFrame) : StvFrame × State :=
  if !bit f.flags 0 then (f, s)
  else if 63 ≤ f.enum then (f, (s.setSts .STV_STS [5]).setFld .STV_STATE_ATTACH 0)
  else
    let a := f.enum + 1
    let new := !s.flag .STV_STATE_ADDR_VALID || s.fld .STV_STATE_ADDR != a
    let s := s.onStave (fun v => { v with round := some s.gauge, changed := v.changed || new })
    ({ f with enum := a }, (s.setFld .STV_STATE_ADDR a).setFld .STV_STATE_ADDR_VALID 1)

/-- The CHAIN event. -/
def State.chainEvent (s : State) : State :=
  s.timeEvent 17 5 (s.fld .STV_STATE_ADDR + s.fld .STV_STATE_ADDR_VALID * 2 ^ 6 + s.fld .STV_STATE_MODULES * 2 ^ 8)

/-- ENUM: the master sets ENUM_ROUND in the frames of the next 8 ms. -/
def State.enumStart (s : State) : State := if s.flag .STV_STATE_HEAD then s.onStave (fun v => { v with round := some (s.gauge + 2560000) }) else s

def execEnum (w : Win) (s : State) : Res := .next (s.direct 3 w State.enumStart)

/-- ENUM_ROUND_END: the round ends on this module; a swatch whose module's address changed ends as with a silent peer. -/
def execEnumRoundEnd (s : State) : Res :=
  s.whenClocked (fun s =>
    match s.stave.round with
    | none => s
    | some t =>
      let changed := s.stave.changed
      let s := if s.flag .STV_STATE_HEAD then ({ s with gauge := max s.gauge t } : State).setFld .STV_STATE_MODULES (s.stave.enumSeen + 1) else s
      let s := s.onStave (fun v => { v with round := none, changed := false })
      let s := (s.setSts .STV_STS ([0] ++ (if changed then [1] else []))).chainEvent
      match s.det.swatch with
      | some w => if changed then s.peerSilent w else s
      | none => s)

/-! ### Scheduled activation (R441) -/

/-- Segments of a block for an address. -/
def actSegments (addr : Nat) (b : List Nat) : List StvMsg :=
  [⟨addr, 0, 4, 0, b.take 60⟩, ⟨addr, 0, 4, 2, (b.drop 60).take 60⟩, ⟨addr, 0, 4, 12, (b.drop 120).take 16⟩]

def isAct (m : StvMsg) : Bool := m.kind == 4 && m.src == 0

/-- ACT_DONE once no segment of the list is left under way. -/
def State.actCheck (s : State) : State :=
  let v := s.stave
  if v.acting && v.acts.isEmpty && !v.tx.any isAct && !v.carry.any (fun x => (x.map isAct).getD false) && v.flights.all (fun f => f.acts == 0)
  then (s.onStave (fun v => { v with acting := false })).setSts .STV_STS [9] else s

/-- ACT_SEND: the master reads its activation list. -/
def State.actSend (s : State) : State :=
  let a := hostBase + ((s.word .STV_ACT_LO).toNat + (s.word .STV_ACT_HI).toNat * 2 ^ 32) / 64 * 64
  let n := s.num a 1
  if !s.flag .STV_STATE_HEAD || n = 0 || decide (64 < n) then s
  else
    let es := (List.range n).map (fun i => (s.num (a + 8 + 144 * i) 1, s.bytes (a + 16 + 144 * i) 136))
    let s := (es.filter (fun e => e.1 == 0)).foldl (fun s e => if s.flag .SEC_STATE_CMD_BUSY then s else s.secRun e.2) s
    (s.onStave (fun v => { v with acting := true, acts := v.acts ++ ((es.filter (fun e => e.1 != 0)).map (fun e => actSegments e.1 e.2)).flatten })).actCheck

def execActSend (w : Win) (s : State) : Res := .next (s.direct 3 w State.actSend)

/-- ACTIVATE: a segment arrives; with the last one the root of trust takes the block as if by SEC_CMD. -/
def execActivate (s : State) : Res :=
  s.whenClocked (fun s =>
    match s.takeMsg 4 with
    | none => s
    | some (m, s) =>
      let k := bits m.mflags 1 2
      let b := (if k = 0 then [] else (Tab.find m.src s.stave.segs).getD []) ++ m.payload.take (if bit m.mflags 3 then 16 else 60)
      if bit m.mflags 3 then
        let s := s.onStave (fun v => { v with segs := Tab.del m.src v.segs })
        if s.flag .SEC_STATE_CMD_BUSY || decide (b.length ≠ 136) then s else s.secRun b
      else s.onStave (fun v => { v with segs := Tab.put m.src b v.segs }))

/-! ### Frames at the master (R432, R434, R437) -/

/-- A SERVICE report of the chain: its cause code is not stated and is a free value. -/
def State.stvService (s : State) : State :=
  let q := s.draw
  q.2.report 4 (q.1 % 2 ^ 16) 4 0 3 q.2.evRealms 0 false false (some 17)

/-- A good frame reaches the master: its own is removed and measured, another master's is removed and reported. -/
def State.masterRx (s : State) (odd : Bool) (f : StvFrame) (arr : Nat) : State :=
  match s.stave.flights.find? (fun x => x.mark == f.mark) with
  | none => ((s.setSts .STV_STS [4]).timeEvent 17 7 0).stvService
  | some x =>
    let a := f.slots.foldl masterSlot { tx := s.stave.tx }
    let share := (((arr : Nat) - (256 * f.mark : Nat) - toSigned 32 x.delay - (f.res : Nat) : Int) / ((f.hops + 1 : Nat) : Int)).toNat % 2 ^ 16
    let s := s.onStave (fun v => { v with flights := v.flights.filter (fun y => decide (f.mark < y.mark)), lost := 0, ringOpen := false, carry := a.out,
                                          enumSeen := f.enum, share := if odd then v.share else share })
    let s := (s.setFld .STV_STATE_RING_CLOSED 1).setFld .STV_LOOP_HOPS (f.hops % 128)
    let s := if odd then s else s.setFld .STV_LOOP_SHARE share
    (s.stvTook a).actCheck

/-- 12.8 gt in 1/256 gt, to the nearest: how far an odd frame starts before its mark. -/
def oddLead : Nat := 3277

/-- The frame of a mark. -/
def State.markFrame (s : State) (due latency : Nat) (odd : Bool) (slots : List (Option StvMsg)) : StvFrame :=
  { flags := b2n ((s.stave.round.map (fun t => decide (due < t))).getD false), mark := due % 2 ^ 64,
    delay := if odd then (latency + 2 ^ 32 - oddLead) % 2 ^ 32 else latency % 2 ^ 32, share := s.stave.share, slots := slots }

/-- FRAME_MARK: the master's Gauge reaches the next multiple of 40,000 and a frame starts; `latency` is its transmit latency in 1/256 gt. -/
def execFrameMark (latency : Nat) (s : State) : Res :=
  s.whenClocked (fun s =>
    if !s.flag .STV_STATE_HEAD || s.fld .STV_STATE_ATTACH = 0 then s
    else
      let due := (s.gauge / 40000 + 1) * 40000
      let odd := due / 40000 % 2 == 1
      let s := ({ s with gauge := due } : State).stvFill 16
      let a := ((List.range 23).map (fun k => s.stave.carry.getD k none)).foldl (fun a x => match x with
        | none => stationSlot (some 0) s.txSlots a none
        | some m => { a with out := a.out ++ [some m] }) { tx := s.stave.tx }
      let f := s.markFrame due latency odd a.out
      let acts := (a.out.filter (fun x => (x.map isAct).getD false)).length
      let s := (s.stvTook a).onStave (fun v => { v with carry := [], flights := v.flights ++ [⟨f.mark, f.delay, acts⟩], lost := v.lost + 1, frames := v.frames + 1 })
      s.send (.stave odd (frameBytes f)))

/-- RING_OPEN: the master has received none of its frames for 3 consecutive ones. -/
def execRingOpen (s : State) : Res :=
  s.whenClocked (fun s =>
    if !s.flag .STV_STATE_HEAD || decide (s.stave.lost < 3) || s.stave.ringOpen then s
    else
      let s := s.onStave (fun v => { v with ringOpen := true, flights := [] })
      (((s.setFld .STV_STATE_RING_CLOSED 0).setSts .STV_STS [3]).timeEvent 17 6 0).stvService.actCheck)

/-! ### Frames at a station (R435-R439) -/

/-- The frame goes on from an attached module (R433, R437): `t` is its residence time in 1/256 gt. -/
def State.forward (s : State) (odd : Bool) (f : StvFrame) (t : Nat) : State :=
  let w := if s.flag .STV_WIRE_VALID then s.fld .STV_WIRE_DELAY else f.share
  s.send (.stave odd (frameBytes { f with hops := f.hops + 1, delay := (f.delay + w + t) % 2 ^ 32, res := (f.res + t) % 2 ^ 32 }))

def State.stationRx (s : State) (odd : Bool) (f : StvFrame) (arr t : Nat) (attached : Bool) : State :=
  let s := ((s.setFld .STV_LOOP_SHARE f.share).setFld .STV_LOOP_HOPS (f.hops % 128)).servo f arr
  if !attached then s
  else
    let x := s.enumTake f
    let s := x.2.stvFill 16
    let me := if s.flag .STV_STATE_ADDR_VALID then some (s.fld .STV_STATE_ADDR) else none
    let a := f.slots.foldl (stationSlot me s.txSlots) { tx := s.stave.tx }
    (s.stvTook a).forward odd { x.1 with slots := a.out } t

/-- STAVE_FRAME_RX: a frame arrives: its bytes from offset 2 on, the time stamp of its first bit and its residence time in 1/256 gt. A frame
whose CRC fails goes on as it is. -/
def execStaveFrameRx (odd : Bool) (body : List Nat) (arr t : Nat) (s : State) : Res :=
  s.whenClocked (fun s =>
    let at_ := s.fld .STV_STATE_ATTACH
    if at_ = 0 then s
    else
      let head := s.flag .STV_STATE_HEAD
      let s := { s with gauge := max s.gauge (arr / 256) }
      if !frameGood body then
        let s := (s.bumpWrap .STV_PERF_CRC_COUNT 1).setSts .STV_STS [2]
        if head || at_ != 2 then s else s.send (.stave odd body)
      else
        let f := parseFrame body
        let s := s.onStave (fun v => { v with good := v.good + 1, lastGood := s.gauge, frames := if head then v.frames else v.frames + 1 })
        let s := if at_ = 1 ∧ 2 ≤ s.stave.good then s.setFld .STV_STATE_ATTACH 2 else s
        if head then s.masterRx odd f arr else s.stationRx odd f arr t (at_ == 2))

/-- GAUGE_HOLDOVER: no good frame for 8 frames (R430). -/
def execGaugeHoldover (s : State) : Res :=
  s.whenClocked (fun s =>
    if s.gau = gauLocked ∨ s.gau = gauAligning then ({ s with gauge := max s.gauge (s.stave.lastGood + 320000) } : State).gauEnter gauHoldover else s)

/-- ATTACH: with the die running and ATTACH_EN set the receiver listens (R435). -/
def execAttach (s : State) : Res :=
  s.whenClocked (fun s =>
    if s.fld .STV_STATE_ATTACH = 0 ∧ s.flag .STV_CTRL_ATTACH_EN then (s.setFld .STV_STATE_ATTACH 1).onStave (fun v => { v with good := 0 }) else s)

/-! ### Messages (R439, R440) -/

def State.launchCount (s : State) : Nat := (s.word .STV_LAUNCH_LO).toNat + (s.word .STV_LAUNCH_HI).toNat * 2 ^ 32

/-- LAUNCH_SEND: refused when the count is less than 2 ms ahead of the master's Gauge. -/
def State.launchSend (s : State) : State :=
  if !s.flag .STV_STATE_HEAD then s
  else if s.launchCount < s.gauge + 640000 then s.setSts .STV_STS [8]
  else s.stvSend 0xFF 3 8 (leBytes 4 (s.word .STV_LAUNCH_ID).toNat ++ leBytes 8 s.launchCount)

def execLaunchSend (w : Win) (s : State) : Res := .next (s.direct 3 w State.launchSend)

/-- LAUNCH: a LAUNCH message arrives and replaces the stored one. -/
def execLaunch (s : State) : Res :=
  s.whenClocked (fun s =>
    match s.takeMsg 3 with
    | none => s
    | some (m, s) =>
      let id := fieldOf m.payload 0 4
      let c := fieldOf m.payload 4 8
      let s := ((s.setWord .GAU_LAUNCH_ID 0 0 (BitVec.ofNat 32 id)).setWord .GAU_LAUNCH_LO 0 0 (BitVec.ofNat 32 c)).setWord .GAU_LAUNCH_HI 0 0 (BitVec.ofNat 32 (c / 2 ^ 32))
      let s := s.setSts .GAU_STS [4]
      if s.flag .STV_CTRL_LAUNCH_EVT then s.emitTo s.evRealms 17 0x60 4 (id + c * 2 ^ 64) else s)

/-- STATE: a STATE message arrives: the chain map keeps it, and a changed state is reported. -/
def execState (s : State) : Res :=
  s.whenClocked (fun s =>
    match s.takeMsg 1 with
    | none => s
    | some (m, s) =>
      let e : MapEnt := { state := fieldOf m.payload 0 1, gauge := fieldOf m.payload 1 1, serial := fieldOf m.payload 2 3, since := s.gauge }
      let old := (Tab.find m.src s.stave.map).map MapEnt.state
      let s := s.onStave (fun v => { v with map := Tab.put m.src e v.map })
      if old = some e.state then s else (s.setSts .STV_STS [6]).timeEvent 17 8 (m.src % 64 + e.state % 8 * 2 ^ 6))

/-- STATE_SEND: every 1,024 frames. -/
def execStateSend (s : State) : Res :=
  s.whenClocked (fun s => if s.stave.frames < 1024 then s else (s.onStave (fun v => { v with frames := v.frames - 1024 })).stvState)

/-- STV_CNT_CLR: the two performance counters clear. -/
def State.stvCntClr (s : State) : State := (s.setWord .STV_PERF_CRC 0 0 0).setWord .STV_PERF_MSG 0 0 0

def execStvCntClr (w : Win) (s : State) : Res := .next (s.direct 3 w State.stvCntClr)

end Sys2Proof.Machine
end

