-- ==== Sys2Proof/Machine/Boot.lean ====
section
/-! DEFINITION. Resets, the power-on sequence, the sideband inputs, the loss of power, a host link reset (R446-R452, R471, R479, R494, R497-R499). -/

namespace Sys2Proof.Machine

/-! ### Sideband inputs (R497-R499) -/

def State.side (s : State) (i : Nat) : SideIn := s.pwr.side.getD i {}

/-- Bits of the three inputs. -/
def sideBits (l : List SideIn) (f : SideIn → Bool) : Nat := ((List.range 3).map (fun i => if f (l.getD i {}) then 2 ^ i else 0)).sum

/-- PWR_SB_STATE follows the supervisor's filter. -/
def State.sideShow (s : State) : State :=
  let l := s.pwr.side
  ((s.setFld .PWR_SB_STATE_LEVEL (sideBits l SideIn.level)).setFld .PWR_SB_STATE_STUCK (sideBits l SideIn.stuck)).setFld .PWR_SB_STATE_FAST (sideBits l SideIn.fast)

def State.setSide (s : State) (i : Nat) (x : SideIn) : State := (s.onPwr (fun p => { p with side := p.side.set i x })).sideShow

/-- A SIDEBAND event, reported CORRECTED (R500). -/
def State.sideEvent (s : State) (payload : Nat) : State := if s.up then (s.thermEvent 5 payload).thermReport 1 else s

/-- A filtered change at the supervisor's sample `t`: whether an assertion is acted on, and the input after it. -/
def SideIn.change (x : SideIn) (level : Bool) (t : Nat) : Bool × SideIn :=
  let changes := x.changes.filter (fun c => decide (t < c + 1000)) ++ [t]
  let fast := x.fast || decide (2 < changes.length)
  let recent := fast && (x.acted.map (fun a => decide (t < a + 10000))).getD false
  let act := level && !recent
  (act, { x with level := level, stuck := x.stuck && level, fast := fast, changes := changes, acted := if act then some t else x.acted,
                 effect := if level then x.effect || act else x.effect && recent, count := if fast then x.count + 1 else 0 })

/-- What an input does to the module while its effect is in force: RESET_N holds the reset, ALERT_N survival power. -/
def State.sideAct (s : State) (i : Nat) (was : Bool) (reset : State → State) : State :=
  let on := (s.side i).effect
  if on = was then s
  else if i = 1 then (if on then reset s else s.onBoot (fun b => { b with resetHeld := false }))
  else if i = 2 ∧ on ∧ s.up then s.survEnter 4
  else s

/-! ### Resets (R446, R448) -/

/-- Does a reset keep what stands at an address: host memory and the Drawer. -/
def keptAt (a : Nat) : Bool := decide (a < lpddrBase) || (decide (drawerBase ≤ a) && decide (a < clusterBase 0))

/-- Does a configuration-class register take part in what firmware restores (R452)? -/
def persisted (k : Nat) : Bool := ((Reg.ofKey k).row.map (fun x => decide (x.covered ≠ 0))).getD false

/-- The configuration registers as the settings store holds them (R416). -/
def State.settingsNow (s : State) : Tab Word := if s.flag .GLB_STATE_READY then s.regs.filter (fun e => persisted e.1) else s.boot.settings

/-- The straps are sampled (R471). -/
def State.strapsTake (s : State) : State :=
  ((s.setFld .GLB_STRAPS_STAVE_HEAD (b2n s.boot.head)).setFld .GLB_STRAPS_BENCH (b2n s.boot.bench)).setFld .STV_STATE_HEAD (b2n s.boot.head)

/-- The registers that show what the store and the fuses hold. -/
def State.storeShow (s old : State) : State :=
  let s := (s.setFld .SEC_ID_SVN (old.fld .SEC_ID_SVN)).setFld .SEC_STATE_OWNED (old.fld .SEC_STATE_OWNED)
  let s := ((s.setFld .FWU_STATE_RUNNING (old.fld .FWU_STATE_RUNNING)).setWord .FWU_VER_A 0 0 (old.word .FWU_VER_A)).setWord .FWU_VER_B 0 0 (old.word .FWU_VER_B)
  let s := (s.setFld .FWU_SETTINGS_VERSION (old.fld .FWU_SETTINGS_VERSION)).drawerShow
  let s := (List.range 4).foldl (fun (s : State) r => s.rlmShow r) s
  s.setFld .GLB_RESET_CAUSE_STARTS (satAt 0xFFFF (old.fld .GLB_RESET_CAUSE_STARTS + 1))

/-- The whole die resets: 0 power-on, 1 RESET_N, 2 register. The Drawer, the fuses and the persisted settings are kept, and what the supervisor
and the tray hold. -/
def State.restart (s : State) (cause : Nat) : State :=
  let fresh : State :=
    { free := s.free, out := s.out, pending := s.pending, drawer := s.drawer
      mem := { cells := s.mem.cells.filter (fun e => keptAt e.1), bad := s.mem.bad.filter (fun k => keptAt (8 * k)) }
      realms := (s.realms.filter (fun e => e.2.created != 0)).map (fun e => (e.1, { created := e.2.created }))
      sec := { owner := s.sec.owner, grants := s.sec.grants, imgA := s.sec.imgA, imgB := s.sec.imgB }
      boot := { powered := s.boot.powered, head := s.boot.head, bench := s.boot.bench, settings := s.settingsNow, resetHeld := (s.side 1).effect }
      pwr := { side := s.pwr.side, aux := s.pwr.aux, shutdown := s.pwr.shutdown, stuckDue := s.pwr.stuckDue, alert := s.pwr.alert,
               lanes := { record := s.pwr.lanes.record } } }
  let fresh := (List.range 153).foldl (fun (f : State) p => f.setTile p { colmap := (s.tile p).colmap.filter (fun e => decide (256 ≤ e.2)) }) fresh
  let fresh := ((fresh.storeShow s).strapsTake.newNonce).sideShow
  let fresh := fresh.setFld .GLB_RESET_CAUSE_LAST cause
  (if (s.side 2).effect then fresh.survEnter 4 else fresh).modAlert

/-- POWER_ON_RESET: both rails are within their limits, and the straps are sampled. -/
def execPowerOnReset (head bench : Bool) (s : State) : Res :=
  .next ((({ s with boot := { s.boot with powered := true, head := head, bench := bench }, pwr := { s.pwr with aux := true } } : State)).restart 0)

/-- The supervisor removes power from the die. -/
def State.powerOff (s : State) : State := ({ s with boot := { s.boot with powered := false } } : State).restart 0

/-- MAIN_LOSS: P12V stays below 10.8 V for more than 5 ms or falls below 9.6 V (R479). -/
def execMainLoss (s : State) : Res := .next (if s.boot.powered then s.powerOff else s)

/-- JUNCTION_SHUTDOWN: at 125 °C the supervisor removes power; it is reported at the next start (R494, R500). -/
def execJunctionShutdown (s : State) : Res := .next (if s.boot.powered then s.powerOff.onPwr (fun p => { p with shutdown := true }) else s)

/-! ### Changes of the inputs -/

/-- A filtered change: the input, its effect, and the report of a fast input. -/
def State.sideChange (s : State) (i : Nat) (level : Bool) (t : Nat) : Bool × State :=
  let x := s.side i
  if x.level = level then (false, s)
  else
    let y := x.change level t
    let s := s.setSide i y.2
    let s :=
      if y.2.fast && (!x.fast || decide (x.evAt + 100000 ≤ t)) then
        let s := s.setSide i { y.2 with count := 0, evAt := t }
        let s := if x.fast || !s.up then s else s.setSts .PWR_STS [4]
        s.sideEvent (i + 2 ^ 3 + y.2.count % 2 ^ 16 * 2 ^ 16)
      else s
    (y.1, s.sideAct i x.effect (fun s => s.restart 1))

/-- RESET_N_CHANGE: its filtered level changes; `t` is the supervisor's sample count. -/
def execResetNChange (asserted : Bool) (t : Nat) (s : State) : Res := .next (s.sideChange 1 asserted t).2

/-- FREEZE_N_ASSERT: a filtered change to asserted is a freeze trigger (R381). -/
def execFreezeNAssert (t : Nat) (s : State) : Res :=
  let x := s.sideChange 0 true t
  .next (if x.1 && x.2.up then x.2.freeze 0 else x.2)

/-- FREEZE_N_DEASSERT: it ends the stuck state and counts as a change. -/
def execFreezeNDeassert (t : Nat) (s : State) : Res := .next (s.sideChange 0 false t).2

/-- ALERT_N_CHANGE: survival power is held while it is asserted (R490). -/
def execAlertNChange (asserted : Bool) (t : Nat) (s : State) : Res := .next (s.sideChange 2 asserted t).2

/-- SIDEBAND_STUCK: an input has stayed asserted for 10 s; with the BENCH strap tied none is ever stuck (R498). -/
def execSidebandStuck (i : Nat) (s : State) : Res :=
  .next (
    let x := s.side i
    if 3 ≤ i ∨ !x.level ∨ x.stuck ∨ s.boot.bench then s
    else
      let s := (s.setSide i { x with stuck := true, effect := false }).sideAct i x.effect id
      if i = 1 then s.onPwr (fun p => { p with stuckDue := true })
      else if s.up then (s.setSts .PWR_STS [3]).sideEvent (i + 2 ^ 2) else s)

/-- SIDEBAND_FAST_END: 100 ms have passed in which no 1 ms held more than two changes; the level is acted on again (R499). -/
def execSidebandFastEnd (i : Nat) (s : State) : Res :=
  .next (
    let x := s.side i
    if 3 ≤ i ∨ !x.fast then s
    else (s.setSide i { x with fast := false, changes := [], count := 0, effect := x.level && !x.stuck }).sideAct i x.effect (fun s => s.restart 1))

/-! ### The power-on sequence (R448, R451, R452) -/

/-- A step of the sequence, taken while the die is up and STAGE shows the stage before it. -/
def State.bootStep (s : State) (stage : Nat) (ok : Bool) (f : State → State) : Res :=
  .next (if s.up && s.fld .GLB_STATE_STAGE == stage && ok then f s else s)

/-- REF_STABLE: step 2. -/
def execRefStable (s : State) : Res :=
  s.bootStep 0 true (fun s => ((s.onBoot (fun b => { b with refStable := true })).setFld .CLK_STATE_REF_OK 1).setFld .GLB_STATE_STAGE 1)

/-- PLL_STABLE: step 3. The Gauge counts from 0, the host interface is released, and a chain master holds MASTER and address 0. -/
def execPllStable (s : State) : Res :=
  s.bootStep 1 s.boot.refStable (fun s =>
    let s := ({ s with gauge := 0 } : State).onBoot (fun b => { b with pllStable := true })
    let s := (s.setFld .CLK_STATE_PLL_OK 0xF).setFld .GLB_STATE_STAGE 2
    if s.boot.head then ((s.setFld .GAU_STATE_STATE gauMaster).setFld .STV_STATE_ADDR 0).setFld .STV_STATE_ADDR_VALID 1 else s)

/-- What the supervisor kept for firmware to report (R498, R500). -/
def State.keptReports (s : State) : State :=
  let s := if s.pwr.shutdown then ((s.onPwr (fun p => { p with shutdown := false })).thermEvent 4 1).thermReport 4 else s
  if s.pwr.stuckDue then ((s.onPwr (fun p => { p with stuckDue := false })).setSts .PWR_STS [3]).sideEvent (1 + 2 ^ 2) else s

/-- The running image starts: its version and microcode. -/
def State.imageStart (s : State) : State :=
  let s := (s.setWord .GLB_FW_VER 0 0 (BitVec.ofNat 32 s.running.version)).setFld .FWU_STATE_REJECTED (b2n s.other.rejected)
  let s := (List.range 153).foldl (fun (s : State) p => s.setWord .TIL_UCODE_ID p 0 (BitVec.ofNat 32 s.running.ucode)) s
  ((s.onBoot (fun b => { b with imageOk := true })).setFld .GLB_STATE_STAGE 3).keptReports

/-- IMAGE_VERIFIED: step 4: `ok` and `okOther` say whether the images of the running and of the other slot pass their tag and measurement. -/
def execImageVerified (ok okOther : Bool) (s : State) : Res :=
  s.bootStep 2 s.boot.pllStable (fun s =>
    if ok && s.running.present then s.imageStart
    else if okOther && s.other.present && !s.other.rejected && decide (s.fld .SEC_ID_SVN ≤ s.other.svn) then
      ((s.setFld .FWU_STATE_RUNNING (1 - s.fld .FWU_STATE_RUNNING)).setSts .GLB_STS [5]).imageStart
    else s.setFld .GLB_STATE_STAGE 5)

/-- The start fails (R451). -/
def State.startFail (s : State) : State := (((s.onFlt (fun f => { f with failed := true })).setFld .GLB_STATE_STAGE 6).stvState).evalState

/-- LPDDR5_TRAINED: step 5; `failed` are the channels that fail training. One is retired into the reserve; a second fails the start. -/
def execLpddr5Trained (failed : List Nat) (s : State) : Res :=
  s.bootStep 3 (s.boot.imageOk && !s.boot.trained) (fun s =>
    match (failed.filter (fun c => decide (c < 64))).eraseDups with
    | [] => s.onBoot (fun b => { b with trained := true })
    | [c] =>
      let s := ((s.setFld .FLT_SPARES_CHAN_USED 1).setFld .FLT_SPARES_CHAN c).report 1 0x0012 2 c 3 [] 0 false true
      s.onBoot (fun b => { b with trained := true })
    | c :: _ => (s.report 3 0x0008 2 c 3 [] 0).startFail)

/-- MEMORY_CLEAR_DONE: step 6: LPDDR5 is zero, the stores are scrubbed, and every tile but `fails` passes its self-test. -/
def execMemoryClearDone (fails : List Nat) (s : State) : Res :=
  s.bootStep 3 (s.boot.trained && !s.boot.cleared) (fun s =>
    let s := s.onMem (fun m => m.clear lpddrBase (drawerBase - lpddrBase))
    let s := ((List.range 153).filter fails.contains).foldl (fun (s : State) p => (s.addScore (unitKey 0 p) 400 0).retireTile p false) s
    s.onBoot (fun b => { b with cleared := true }))

/-- The settings store's word of a configuration register: its covered bits; the lane stays off until software installs a package (R452). -/
def restoredWord (k : Nat) (w : Word) : Word :=
  let r := Reg.ofKey k
  let m := (r.row.map RegRow.covered).getD 0
  let m := if r = .CTL_CTRL then m &&& ~~~1 else m
  (regDefault k &&& ~~~m) ||| (w &&& m)

/-- Firmware restores the persisted configuration registers, with what follows from them (R452). -/
def State.restoreRegs (s : State) : State :=
  let s := { s with regs := s.boot.settings.foldl (fun (t : Tab Word) (e : Nat × Word) => Tab.set regDefault e.1 (restoredWord e.1 e.2) t) s.regs }
  let s := s.onLane (fun l => { l with grid := (s.word .CTL_GRID_LO).toNat + (s.word .CTL_GRID_HI).toNat * 2 ^ 32 })
  let s := (List.range 4).foldl (fun (s : State) p => s.setPort p { s.port p with cfg := (s.word .CTL_PORT_CFG 0 p).toNat }) s
  let s := ((List.range 153).filter (fun p => s.flag .TIL_CTRL_HALT p)).foldl (fun (s : State) p => s.haltWrite p true) s
  s.gateApply.vidShow

/-- The realms whose grants the store holds return to ACTIVE, with empty key slots (R390). -/
def State.restoreRealms (s : State) : State :=
  s.sec.grants.foldl (fun (s : State) e => s.rlmEnter e.1 (grantRealm e.2 (s.realm e.1).created .active)) s

/-- What passes with no command waiting: one tick of the Gauge while its clock runs (log entry 1). -/
def State.idle (s : State) : State := if s.running_ then { s with gauge := s.gauge + 1 } else s

/-! ### Host link reset (R446, R447) -/

/-- A live request ends with CANCELLED, and no end record is written (R447). -/
def State.endRequestMute (s : State) (slot : Nat) : State :=
  let s := s.markEnded slot stCancelled 2
  match s.req slot with
  | some q => s.setReq slot { q with endWritten := true }
  | none => s

/-- HOST_LINK_RESET: PERST_N, a hot reset, a link-down or a function-level reset. -/
def execHostLinkReset (s : State) : Res :=
  .next (if !(s.up && s.boot.pllStable) then s
    else
      -- no record is written: every completion ring is dead before the rings stop
      let s : State := { s with rings := s.rings.map (fun e => (e.1, { e.2 with cqDead := true })) }
      let s := (List.range 4).foldl (fun (s : State) r => s.endRings r) s
      let s := (s.srv.reqs.filter (fun e => e.2.live)).foldl (fun (s : State) e => s.endRequestMute e.1) s
      let s : State := { s with rings := [], evRings := [], regs := s.regs.filter (fun e => (Reg.ofKey e.1).block != 4),
                                sqc := s.sqc.filter (fun e => (Reg.ofKey e.1).block != 4) }
      let s := s.dropAllKeys.onBoot (fun b => { b with linkUp := false, msix := [] })
      (s.bumpSat .GLB_RESET_CAUSE_LINK_RESETS 1).setSts .GLB_STS [4])

end Sys2Proof.Machine
end

