-- ==== Sys2Proof/Machine/Kvm.lean ====
section
/-! DEFINITION. The commands of the memory hub: page fetches, spills, reclamation, and its command register (R155-R171). -/

namespace Sys2Proof.Machine

/-- SPILL_START: the free granules of a realm's pool are below LOW and the hub chooses pages (R155, R156). -/
def execSpillStart (r : Nat) (s : State) : Res :=
  s.whenReady (fun s =>
    if r < 4 ∧ s.flag .KVM_CTRL_SPILL_EN ∧ 256 * s.freeGran r < s.poolSize r * s.fld .KVM_RLM_SPILL_LOW 0 r
    then s.spillPages r s.kvm.ents.length else s)

/-- SPILL_COPY_DONE: the copy of an entry's frame is complete and sealed (R157, R158, R417). -/
def execSpillCopyDone (e : Nat) (s : State) : Res := s.whenReady (fun s => s.spillDone e)

/-- PAGE_FETCH_DONE: the copy back of an entry is complete; `wait` cycles were waited for it in sum (R157). -/
def execPageFetchDone (e wait : Nat) (s : State) : Res := s.whenReady (fun s => s.fetchDone e wait)

/-- DEFERRED_RECLAIM: an entry that no older operator can read returns to the free pool (R166). -/
def execDeferredReclaim (e : Nat) (s : State) : Res := s.whenReady (fun s => s.onKvm (fun k => k.reclaim e))

/-- Every entry that waits is tested (R166). -/
def State.reclaimAll (s : State) : State := s.onKvm (fun k => (k.ents.map (·.1)).foldl Kvm.reclaim k)

/-- RECLAIM_NOW (R166, R171). -/
def execReclaimNow (w : Win) (s : State) : Res := s.fwCommand w .KVM_CMD 0 2 State.reclaimAll

/-- KVM_ERR_ENTRY and the four counters clear (R171). -/
def State.kvmCntClr (s : State) : State :=
  [Reg.KVM_ERR_ENTRY, .KVM_PERF_SPILL, .KVM_PERF_FETCH, .KVM_PERF_FETCH_WAIT, .KVM_PERF_COW].foldl (fun s r => s.setWord r 0 0 0) s

/-- KVM_CNT_CLR (R171). -/
def execKvmCntClr (w : Win) (s : State) : Res := s.fwCommand w .KVM_CMD 0 1 State.kvmCntClr

end Sys2Proof.Machine
end

