-- ==== Sys2Proof/Machine/Regs.lean ====
section
/-! DEFINITION. Register accesses, register requests, sequence clears, the configuration CRC, the reset by register (R446, R453-R468). -/

namespace Sys2Proof.Machine

/-! ### The configuration CRC (R461-R465) -/

/-- The selector behind which the registers of R462 lie, by its register. -/
def Reg.selector (r : Reg) : Sel :=
  if r = .CLK_TILE_SEL then .clkTile
  else if r = .KVM_RLM_SEL then .kvmRlm
  else if r = .KVM_PROF_SEL then .kvmProf
  else if r = .SRV_RLM_SEL then .srvRlm
  else if r = .SRV_ACC_SEL then .srvAcc
  else if r = .CTL_PORT_SEL then .ctlPort
  else if r = .VID_RLM_SEL then .vidRlm
  else if r = .DET_RLM_SEL then .detRlm
  else .none

/-- Values of a selector with covered registers behind it. -/
def Sel.values : Sel → Nat
  | .clkTile => 9
  | .kvmProf => 64
  | .srvAcc => 1024
  | .kvmRlm | .srvRlm | .ctlPort | .vidRlm | .detRlm => 4
  | _ => 0

/-- Physical units of a block (R462). -/
def blockUnits (b : Nat) : Nat := if b = 5 then 9 else if b = 6 then 153 else 1

/-- The covered registers of a unit, in the reading order. -/
def unitKeys (b u : Nat) : List Nat :=
  ((pageRows b).map (fun x =>
    match x.reg.selector with
    | .none => if x.sel = .none ∧ x.covered ≠ 0 then [x.reg.key u 0] else []
    | c => ((List.range c.values).map (fun v => ((pageRows b).filter (fun y => decide (y.sel = c) && decide (y.covered ≠ 0))).map (fun y => y.reg.key u v))).flatten)).flatten

/-- Every covered register, in the reading order of R462. -/
def coveredKeys : List Nat := ((List.range 17).map (fun b => ((List.range (blockUnits b)).map (unitKeys b)).flatten)).flatten

/-- The covered bits of a register. -/
def keyMask (k : Nat) : Word := ((Reg.ofKey k).row.map RegRow.covered).getD 0

def coveredWord (t : Tab Word) (k : Nat) : Word := Tab.get regDefault t k &&& keyMask k

/-- The configuration CRC of a register table (R462). -/
def configCrc (t : Tab Word) : Nat := crc32c ((coveredKeys.map (fun k => leBytes 4 (coveredWord t k).toNat)).flatten)

/-- Firmware keeps its copy of every covered field (R464). -/
def State.commitCopy (s : State) : State := s.onBoot (fun b => { b with committed := s.regs.filter (fun e => persisted e.1), hasCommit := true })

def State.crcHeld (s : State) : Bool := s.flag .GLB_CRC_CTRL_CFG_CRC_HOLD || s.flag .GLB_CRC_CTRL_FW_HOLD

/-- A computation starts; one commanded while another runs follows it. -/
def State.crcStart (s : State) (commit : Bool) : State :=
  match s.boot.crc with
  | some c => s.onBoot (fun b => { b with crc := some { c with next := some (commit || c.next.getD false) } })
  | none => (s.onBoot (fun b => { b with crc := some { start := s.gauge, commit := commit, held := s.crcHeld } })).setFld .GLB_STATE_CRC_BUSY 1

/-- A write of the GLB_ page: firmware's and the management window's act directly (R457, R466). -/
def State.glbCommand (s : State) (w : Win) (f : State → State) : Res := .next (s.direct 0 w f)

/-- CRC_NOW starts a computation at once. -/
def execCrcNow (w : Win) (s : State) : Res := s.glbCommand w (fun s => s.crcStart false)

/-- CRC_COMMIT starts a computation whose result becomes the reference. -/
def execCrcCommit (w : Win) (s : State) : Res := s.glbCommand w (fun s => s.crcStart true)

/-- CRC_PERIODIC: a computation at every multiple of 65,536 gt. -/
def execCrcPeriodic (s : State) : Res :=
  s.whenReady (fun s =>
    let s : State := { s with gauge := ceilDiv s.gauge 65536 * 65536 }
    if s.boot.crc.isSome then s else s.crcStart false)

/-- A register for which its chapter prescribes an order of writes is never restored (R463). -/
def ordered (r : Reg) : Bool :=
  r == .CLU_LB_BASE || r == .CLU_LB_SIZE || r == .CLU_S2D_SCRATCH || (r.block == 7 && r != .KVM_CTRL && r != .KVM_STS_EN)
  || r == .SRV_RLM_MDL_BASE || r == .SRV_RLM_MDL_SIZE || r == .CTL_CTRL || r == .CTL_GRID_LO || r == .CTL_GRID_HI || r == .CTL_CKPT_BASE

def keyUnit (k : Nat) : Nat := k / 1024 % 1024
def keySel (k : Nat) : Nat := k % 1024

/-- The first differing register is captured (R463). -/
def State.crcCapture (s : State) (k : Nat) : State :=
  if s.flag .GLB_CRC_DIFF_VALID then s
  else
    let s := (s.setFld .GLB_CRC_DIFF_OFFSET (Reg.ofKey k).off).setFld .GLB_CRC_DIFF_BLOCK (Reg.ofKey k).block
    ((s.setFld .GLB_CRC_DIFF_UNIT (keyUnit k)).setFld .GLB_CRC_DIFF_SELECT (keySel k)).setFld .GLB_CRC_DIFF_VALID 1

/-! ### What a write does (R10, R11, and the register tables of every chapter) -/

/-- Several command bits of one write, lowest first. -/
def State.pulses (s : State) (v : Nat) (fs : List (State → State)) : State :=
  fs.zipIdx.foldl (fun (s : State) (e : (State → State) × Nat) => if bit v e.2 then e.1 s else s) s

/-- A hold of GLB_CRC_CTRL is set or cleared: since when it stands. -/
def holdClock (on : Bool) (old : Option Nat) (now : Nat) : Option Nat := if on then some (old.getD now) else none

/-- GLB_CRC_CTRL is written; FW_HOLD by firmware alone (R464-R466). -/
def State.crcCtrlWrite (s : State) (w : Win) (v : Nat) : State :=
  let v := if w = .fw then v % 16 else v % 16 / 4 * 4 + v % 2 + 2 * s.fld .GLB_CRC_CTRL_FW_HOLD
  let s := s.setWord .GLB_CRC_CTRL 0 0 (BitVec.ofNat 32 v)
  let s := s.setFld .GLB_STATE_CRC_HELD (b2n s.crcHeld)
  s.onBoot (fun b =>
    { b with holdSince := holdClock (bit v 0) b.holdSince s.gauge, fwHoldSince := holdClock (bit v 1) b.fwHoldSince s.gauge
             stuckSet := b.stuckSet && bit v 0, fwStuckSet := b.fwStuckSet && bit v 1
             crc := b.crc.map (fun c => { c with held := c.held || s.crcHeld }) })

/-- A descriptor other than a JOB shows the mode that stands when its record is written (R200). -/
def Ring.clearDet (x : Ring) : Ring := { x with descs := x.descs.map (fun d => if d.ty = 1 then d else { d with det := false }) }

/-- GLB_CFG is written: a change of DET_MODE sets DET_STS.MODE_CHANGE (R329). -/
def State.modeWrite (s : State) (v : Nat) : State :=
  if bit v 0 == s.flag .GLB_CFG_DET_MODE then s
  else
    let s := (s.setFld .GLB_CFG_DET_MODE (v % 2)).setSts .DET_STS [7]
    if bit v 0 then s else { s with rings := s.rings.map (fun e => (e.1, e.2.clearDet)) }

/-- The reference is written: firmware keeps its copy at that write (R464). -/
def State.crcRefWrite (s : State) (v : Nat) : State := (s.setWord .GLB_CFG_CRC_REF 0 0 (BitVec.ofNat 32 v)).commitCopy

/-- CRC_REF_WRITE: a write of GLB_CFG_CRC_REF commits the value written. -/
def execCrcRefWrite (w : Win) (v : Nat) (s : State) : Res := s.glbCommand w (fun s => s.crcRefWrite v)

/-- RESET_ARM arms a module reset for 1 ms; management window only (R446). -/
def State.resetArm (s : State) (w : Win) : State := if w = .mgmt then s.onBoot (fun b => { b with armedUntil := some (s.gauge + 320000) }) else s

/-- RESET_GO resets the module when armed. -/
def State.resetGo (s : State) (w : Win) : State :=
  if w = .mgmt && (s.boot.armedUntil.map (fun t => decide (s.gauge ≤ t))).getD false then s.restart 2 else s

def execResetArm (w : Win) (s : State) : Res := s.glbCommand w (fun s => s.resetArm w)
def execResetGo (w : Win) (s : State) : Res := s.glbCommand w (fun s => s.resetGo w)

/-- FLT_CTRL is written; a write that clears CHAN_RESERVE is ignored while a channel is retired or a realm region lies in the reserve (R386). -/
def State.fltCtrlWrite (s : State) (v : Nat) : State :=
  let inUse := s.flag .FLT_SPARES_CHAN_USED || (List.range 4).any (fun r => (s.realm r).st != .absent && (s.realm r).regions.any (fun x => decide (3472 < x.1 + x.2)))
  if s.flag .FLT_CTRL_CHAN_RESERVE && !bit v 1 && inUse then s else s.setWord .FLT_CTRL 0 0 (BitVec.ofNat 32 v &&& 0xFF07)

/-- THM_CTRL as its fields take values: T_THROTTLE outside 85-105 acts as 100, RAMP 0, 6 and 7 as 5. -/
def thmCtrl (v : Nat) : Nat :=
  let t := v % 256
  let r := bits v 8 3
  v % 2 ^ 24 / 2 ^ 11 * 2 ^ 11 + (if r = 0 ∨ 5 < r then 5 else r) * 2 ^ 8 + (if t < 85 ∨ 105 < t then 100 else t)

/-- The state a command answers. -/
def Res.stateOr (x : Res) (s : State) : State := match x with
  | .next t => t
  | _ => s

/-- SEC_REQ of a realm is written: its fields, and the request of OP with GO (R398, R418). -/
def State.secReqWrite (s : State) (r v : Nat) (env : RegEnv) : State :=
  let op := bits v 1 3
  let mode := bits v 4 1
  let use := bits v 5 1
  let slot := bits v 8 8
  let x : Res :=
    if !bit v 0 then .next (s.setWord .SEC_REQ 0 r (BitVec.ofNat 32 v &&& 0xFF3E))
    else if op = 0 then execProvision r mode use slot s
    else if op = 1 then execClear r slot s
    else if op = 2 then execAttest r s
    else if op = 3 then execCerts r env.chain s
    else s.reqGo r op mode use slot id
  x.stateOr s

/-- Read-write bits are taken, the other bits kept (R10, R11). -/
def State.putReg (s : State) (x : RegRow) (u sel : Nat) (mask : Word) (v : Nat) : State :=
  let m := x.rw &&& mask
  s.setWord x.reg u sel ((s.word x.reg u sel &&& ~~~m) ||| (BitVec.ofNat 32 v &&& m))

/-- A sequence clear; once CRC_MISMATCH is cleared GLB_CRC_DIFF holds no capture (R460, R463). -/
def State.sqcWrite (s : State) (r : Reg) (u v : Nat) : State :=
  let q := (s.sqcOf r u).write v
  let s := s.setSqc r u q
  if r = .GLB_STS ∧ (Tab.find 0 q.setBits).isNone then s.setFld .GLB_CRC_DIFF_VALID 0 else s

/-- The command registers. -/
def State.cmdWrite (s : State) (w : Win) (r : Reg) (u v : Nat) (env : RegEnv) : State :=
  match r.block with
  | 0 => s.pulses v [fun s => s.crcStart false, fun s => s.crcStart true, fun s => s.resetArm w, fun s => s.resetGo w]
  | 1 => s.pulses v [fun s => s.trim env.dir env.ok]
  | 2 => s.pulses v [State.realign]
  | 3 => s.pulses v [State.enumStart, State.launchSend, State.actSend, State.stvCntClr]
  | 4 => s.pulses v [fun s => s.ringReset u (s.fld .RING_SEL_RING u), fun s => s.eqReset u,
                     fun s => (s.setWord .RING_EQ_DROP u 0 0).setWord .RING_PERF_DONE u 0 0]
  | 5 => s.pulses v [fun s => s.lbFlush u, fun s => s.cluCntClr u]
  | 6 => s.pulses v [fun s => s.tilCntClr u, fun s => s.scrubStart u]
  | 7 => s.pulses v [State.kvmCntClr, State.reclaimAll]
  | 8 => s.pulses v [State.srvCntClr, State.accRefill]
  | 9 => s.pulses v [fun s => s.install env.pkg, fun s => s.laneRepair 0, fun s => s.laneRepair 1, State.swapArm, State.swapCancel, State.ackLost,
                     State.ctlCntClr, fun s => s.laneRetire 0, fun s => s.laneRetire 1, State.qFlush]
  | 10 => s.pulses v [State.vidCntClr, State.strmKill]
  | 11 => s.pulses v [fun s => s.genRun (s.genSet w), State.detCntClr, State.swatchAbort]
  | 12 => s.pulses v [State.fltCntClr, State.retireCmd, fun s => s.repairCmd env.ok, fun s => s.freeze 1]
  | 13 => s.pulses v [fun s => s.secGo env.err, State.secCntClr]
  | 14 => s.pulses v [State.fwuLoad, State.fwuAbort]
  | _ => s

/-- A write that takes effect, on the register of a unit behind a selector value; `mask` holds the bits its writer may write. -/
def State.writeAt (s : State) (w : Win) (x : RegRow) (u sel : Nat) (mask : Word) (v : Nat) (env : RegEnv) : State :=
  let r := x.reg
  if x.sqc ≠ 0 then s.sqcWrite r u v
  else if r = .SEC_REQ then s.secReqWrite sel v env
  else if x.w1p ≠ 0 then s.cmdWrite w r u (BitVec.ofNat 32 v &&& mask &&& x.w1p).toNat env
  else if r = .GLB_CFG then s.modeWrite v
  else if r = .GLB_CRC_CTRL then s.crcCtrlWrite w v
  else if r = .GLB_CFG_CRC_REF then s.crcRefWrite v
  else if r = .CLK_CTRL then ((s.putReg x u sel 6 v).lowPowerSet (bit v 0))
  else if r = .CLK_GATE then s.gateWrite false v
  else if r = .CLK_TILE_GATE then s.gateWrite true v
  else if r = .GAU_CTRL then
    let s := s.putReg x u sel mask v
    if bit v 0 || s.gau == gauMaster then s else s.gauEnter gauFree
  else if r = .STV_CTRL then
    let s := s.putReg x u sel mask v
    if bit v 0 then s else s.setFld .STV_STATE_ATTACH 0
  else if r = .CLU_CTRL then s.cluCtrlAll v
  else if r = .TIL_CVT then s.tilCvtAll v
  else if r = .TIL_CTRL then (s.putReg x u sel mask v).haltWrite u (bit v 1)
  else if r = .CTL_CTRL then s.laneEnWrite v
  else if r = .CTL_GRID_HI then s.gridWrite v
  else if (r = .CTL_GRID_LO ∨ r = .CTL_CKPT_BASE) ∧ s.flag .CTL_CTRL_LANE_EN then s
  else if r = .VID_CTRL then (s.putReg x u sel mask v).vidShow
  else if r = .FLT_CTRL then s.fltCtrlWrite v
  else if r = .THM_CTRL then s.putReg x u sel mask (thmCtrl v)
  else if r = .PWR_CTRL then s.putReg x u sel mask (if v % 4 = 3 then v - 1 else v)
  else s.putReg x u sel mask v

/-! ### Windows, pages and rights (R453-R458) -/

/-- The pages from offset 0x0_0000 on, by block. -/
def topPages : List Nat := [0, 1, 2, 3, 13, 14, 12, 11, 7, 8, 9, 10, 15, 16]

/-- The block and unit of a page of a window (R455). -/
def State.pageOf (s : State) (w : Win) (off : Nat) : Option (Nat × Nat) :=
  let n := off / 4096
  let whole : Bool := match w with
    | .realm _ => false
    | _ => true
  if n < 14 then some (topPages.getD n 0, 0)
  else if n < 0x10 then none
  else if n < 0x14 then (match w with
    | .realm r => if r = n - 0x10 then some (4, r) else none
    | _ => some (4, n - 0x10))
  else if n < 0x20 then none
  else if n < 0x28 then (let c := s.physCluster (n - 0x20); if c < 9 then some (5, c) else none)
  else if n = 0x28 then (if whole = true then some (5, 8) else none)
  else if n < 0x80 then none
  else if n < 0x100 then (if s.physCluster ((n - 0x80) / 16) < 9 then some (6, s.physTile (n - 0x80)) else none)
  else if whole = true ∧ n < 0x100 + 153 then some (6, n - 0x100)
  else none

/-- The register that an offset selects by its bits [7:2] (R458). -/
def pageReg (block off : Nat) : Reg := ⟨block, off % 256 / 4 * 4⟩

/-- The value of the selector in front of a register, as the window reaches it. -/
def State.selOf (s : State) (w : Win) (x : RegRow) (u : Nat) : Nat :=
  match x.sel with
  | .none =>
    if x.reg.block = 11 ∧ 0x28 ≤ x.reg.off ∧ x.reg.off ≤ 0x3C then s.genSet w
    else if x.reg.block = 13 ∧ 0x38 ≤ x.reg.off ∧ x.reg.off ≤ 0x48 then (match w with
      | .realm r => r
      | _ => s.fld .SEC_RLM_SEL_REALM)
    else 0
  | .clkTile => s.fld .CLK_TILE_SEL_CLU
  | .cluLb => s.fld .CLU_LB_SEL_BUF u
  | .ctlPort => s.fld .CTL_PORT_SEL_PORT
  | .ctlQ => s.fld .CTL_Q_SEL_QUEUE
  | .detRlm => s.fld .DET_RLM_SEL_REALM
  | .fltUnit => s.fld .FLT_UNIT_SEL_KIND * 256 + s.fld .FLT_UNIT_SEL_INDEX
  | .kvmProf => s.fld .KVM_PROF_SEL_PROF
  | .kvmRlm => s.fld .KVM_RLM_SEL_REALM
  | .pwrRlm => (match w with
    | .realm r => r
    | _ => s.fld .PWR_RLM_SEL_REALM)
  | .ring => s.fld .RING_SEL_RING u
  | .secRlm => s.fld .SEC_RLM_SEL_REALM
  | .srvAcc => s.fld .SRV_ACC_SEL_ACC
  | .srvMdl => s.fld .SRV_MDL_SEL_MODEL
  | .srvRlm => s.fld .SRV_RLM_SEL_REALM
  | .stvMap => s.fld .STV_MAP_SEL_ADDR
  | .thmSpot => s.fld .THM_SPOT_SEL_SPOT
  | .tilColmap => s.fld .TIL_COLMAP_SEL_BANK u + 32 * s.fld .TIL_COLMAP_SEL_GROUP u
  | .vidRlm => s.fld .VID_RLM_SEL_REALM
  | .vidStrm => s.fld .VID_STRM_SEL_STREAM + 256 * s.fld .VID_STRM_SEL_REALM

/-- Does a realm own a serving account (R262)? -/
def State.ownsAccount (s : State) (r acc : Nat) : Bool := s.flag .SRV_ACC_RATE_ASSIGNED 0 acc && s.fld .SRV_ACC_CFG_REALM 0 acc == r

/-- The bits of a register that realm software may write (R262, R324, R355, R418, R530). -/
def State.realmMask (s : State) (r : Nat) (x : RegRow) (u sel : Nat) : Word :=
  let g := x.reg
  let all : Word := 0xFFFFFFFF
  match g.block with
  | 4 => if u = r then all else 0
  | 6 => if s.ownsTile r u ∧ (g = .TIL_STS ∨ g = .TIL_CMD ∨ g = .TIL_COLMAP_SEL) then all else 0
  | 8 => if g = .SRV_ACC_SEL then all else if (g = .SRV_ACC_CFG ∨ g = .SRV_ACC_RATE) ∧ s.ownsAccount r sel then ~~~x.covered else 0
  | 9 => if s.laneOwner ≠ r then 0 else if g = .CTL_CMD then 0x20 else if g = .CTL_STS then all else 0
  | 10 => if g = .VID_STRM_SEL then all else 0
  | 11 => if 0x28 ≤ g.off ∧ g.off ≤ 0x3C then all else if g = .DET_CMD then 1 else 0
  | 13 => if 0x38 ≤ g.off ∧ g.off ≤ 0x48 then all else 0
  | _ => 0

/-- Writes through the management window that take effect directly (R418, R420, R445, R457). -/
def mgmtDirect (r : Reg) : Bool :=
  r.block == 0 || r.block == 4 || r.block == 14
  || r == .SEC_CMD_ADDR_LO || r == .SEC_CMD_ADDR_HI || r == .SEC_CMD
  || r == .STV_CMD || (r.block == 3 && decide (Reg.STV_LAUNCH_ID.off ≤ r.off) && decide (r.off ≤ Reg.STV_ACT_HI.off))

/-- Firmware and the management window do not write a realm's request set (R418). -/
def realmOnly (r : Reg) : Bool := r.block == 13 && decide (0x38 ≤ r.off) && decide (r.off ≤ 0x48)

/-- Firmware writes a register, by itself or for a request. -/
def State.fwWrite (s : State) (x : RegRow) (u v : Nat) (env : RegEnv) : State :=
  if realmOnly x.reg then s else s.writeAt .fw x u (s.selOf .fw x u) 0xFFFFFFFF v env

/-- The word of the MSI-X table at an offset of the management window: 260 entries of 16 bytes (R453, R455). -/
def msixWord (w : Win) (off : Nat) : Option Nat :=
  if w = .mgmt ∧ 0xE000 ≤ off ∧ off < 0xE000 + 260 * 16 then some ((off - 0xE000) / 4) else none

/-- One 32-bit write through a window. -/
def State.write32 (s : State) (w : Win) (off v : Nat) (env : RegEnv) : State :=
  match s.pageOf w off with
  | none => (match msixWord w off with
    | some k => if s.boot.pllStable then s.onBoot (fun b => { b with msix := Tab.set (fun _ => 0) k (BitVec.ofNat 32 v) b.msix }) else s
    | none => s)
  | some (b, u) =>
    match (pageReg b off).row with
    | none => s
    | some x =>
      if !s.pageUp b || s.blockGated b u then s
      else match w with
        | .fw => s.fwWrite x u v env
        | .mgmt =>
          if mgmtDirect x.reg then s.writeAt .mgmt x u (s.selOf .mgmt x u) 0xFFFFFFFF v env
          else if realmOnly x.reg then s
          else s.request x.reg u v
        | .realm r =>
          let sel := s.selOf w x u
          let m := s.realmMask r x u sel
          if !s.windowOpen r || m == 0 then s else s.writeAt w x u sel m v env

/-- Is an access of a size and alignment that a register window takes (R456)? -/
def accessOk (off size : Nat) : Bool := (size == 4 && off % 4 == 0) || (size == 8 && off % 8 == 0)

/-- A write through a register window: 64 bits are two writes of 32, the lower offset first (R456). -/
def State.regWrite (s : State) (w : Win) (off size v : Nat) (env : RegEnv) : State :=
  if !s.up then s
  else if !accessOk off size then s.setSts .GLB_STS [3]
  else if size = 4 then s.write32 w off (v % 2 ^ 32) env
  else (s.write32 w off (v % 2 ^ 32) env).write32 w (off + 4) (v / 2 ^ 32 % 2 ^ 32) env

/-- REGISTER_WRITE: a write of `size` bytes at an offset of the management window, of a realm's window, or by firmware at the offset of
the management window's layout. -/
def execRegisterWrite (w : Win) (off size v : Nat) (env : RegEnv) (s : State) : Res := .next (s.regWrite w off size v env)

/-- REGISTER_REQUEST_APPLY: firmware applies the oldest request; it waits during a warm restart of firmware (R457). -/
def execRegisterRequestApply (env : RegEnv) (s : State) : Res :=
  s.whenUp (fun s =>
    if s.flt.mpDown then s
    else match s.boot.requests with
      | [] => s
      | q :: t =>
        let s := (s.onBoot (fun b => { b with requests := t })).setFld .GLB_STATE_REQ_PEND (satAt 255 t.length)
        match (Reg.mk q.block q.off).row with
        | none => s
        | some x => if !s.pageUp q.block || s.blockGated q.block q.unit then s else s.fwWrite x q.unit q.value env)

/-- Does an offset of a window select a sequence-cleared register? -/
def State.sqcAt (s : State) (w : Win) (off : Nat) : Option (Reg × Nat) :=
  (s.pageOf w off).bind (fun e => ((pageReg e.1 off).row.filter (fun x => decide (x.sqc ≠ 0))).map (fun x => (x.reg, e.2)))

/-- SQC_WRITE: a 32-bit write of a sequence-cleared register (R460). -/
def execSqcWrite (w : Win) (off v : Nat) (s : State) : Res :=
  .next (if (s.sqcAt w off).isSome && off % 4 == 0 then s.regWrite w off 4 v {} else s)

/-- Sequence-cleared registers that realm software reads. -/
def State.realmReadsSqc (s : State) (r : Nat) (g : Reg) (u : Nat) : Bool :=
  s.windowOpen r && (match g.block with
    | 4 => u == r
    | 5 => ((s.logCluster u).map (fun l => (List.range 16).any (fun t => s.tileRealm (16 * l + t) == some r))).getD false
    | 6 => s.ownsTile r u
    | 9 => s.laneOwner == r
    | _ => false)

/-- SQC_READ: a read of a sequence-cleared register (R459); one through the management window waits for the writes before it (R457). -/
def execSqcRead (w : Win) (off : Nat) (s : State) : Res :=
  .next (match s.sqcAt w off with
    | none => s
    | some (g, u) =>
      if !s.pageUp g.block || s.blockGated g.block u || off % 4 != 0 then s
      else
        let may := match w with
          | .fw => true
          | .mgmt => s.boot.requests.isEmpty
          | .realm r => s.realmReadsSqc r g u
        if may then s.setSqc g u { s.sqcOf g u with read := true } else s)

/-! ### The end of a computation (R463) -/

/-- A committed value is written back. -/
def State.restoreReg (s : State) (k : Nat) : State :=
  let r := Reg.ofKey k
  let v := (s.word r (keyUnit k) (keySel k) &&& ~~~keyMask k) ||| coveredWord s.boot.committed k
  match r.row with
  | none => s
  | some x =>
    if r = .CLU_CTRL ∨ r = .TIL_CVT then s.setWord r (keyUnit k) (keySel k) v
    else if r = .CLK_TILE_GATE then (s.setWord r 0 (keySel k) v).gateApply
    else s.writeAt .fw x (keyUnit k) (keySel k) 0xFFFFFFFF v.toNat {}

/-- The computation differs from the reference. -/
def State.crcDiffers (s : State) : State :=
  let ks := coveredKeys.filter (fun k => coveredWord s.regs k != coveredWord s.boot.committed k)
  let s := match ks with
    | [] => s
    | k :: _ => s.crcCapture k
  let s := s.setSts .GLB_STS [0]
  if !s.flag .GLB_CRC_CTRL_RESTORE || ks.isEmpty then s
  else
    let s := (ks.filter (fun k => !ordered (Reg.ofKey k))).foldl (fun (s : State) k => s.restoreReg k) s
    if ks.any (fun k => ordered (Reg.ofKey k)) then s else s.setSts .GLB_STS [1]

/-- CRC_DONE: the result is shown; it becomes the reference, or is compared with it. -/
def execCrcDone (s : State) : Res :=
  s.whenUp (fun s =>
    match s.boot.crc with
    | none => s
    | some c =>
      let v := configCrc s.regs
      let s := ((s.onBoot (fun b => { b with crc := none })).setFld .GLB_STATE_CRC_BUSY 0).setWord .GLB_CFG_CRC_VAL 0 0 (BitVec.ofNat 32 v)
      let s :=
        if c.commit then s.crcRefWrite v
        else if s.flag .GLB_CRC_CTRL_CHECK_EN && !c.held && !s.crcHeld && s.boot.hasCommit && v != (s.word .GLB_CFG_CRC_REF).toNat then s.crcDiffers
        else s
      match c.next with
      | none => s
      | some commit => s.crcStart commit)

/-- HOLD_STUCK: a hold, that of firmware with `fw`, stays set for 10 s (R465). -/
def execHoldStuck (fw : Bool) (s : State) : Res :=
  s.whenUp (fun s =>
    match if fw then s.boot.fwHoldSince else s.boot.holdSince with
    | none => s
    | some t =>
      if (if fw then s.boot.fwStuckSet else s.boot.stuckSet) then s
      else
        let s : State := { s with gauge := max s.gauge (t + 3200000000) }
        (s.onBoot (fun b => if fw then { b with fwStuckSet := true } else { b with stuckSet := true })).setSts .GLB_STS [2])

/-! ### The last step of bring-up (R448, R452) -/

/-- SETTINGS_RESTORED: step 7, `us` microseconds after t0: the settings are restored, realms are ACTIVE, READY is set; account levels rise
from here on (R235). -/
def execSettingsRestored (us : Nat) (s : State) : Res :=
  s.bootStep 3 s.boot.cleared (fun s =>
    let s := s.restoreRegs.restoreRealms
    let s := s.onSrv (fun v => { v with refills := s.gauge / 65536 })
    let s := (s.setFld .GLB_STATE_READY 1).setFld .GLB_STATE_STAGE 4
    let s := s.setWord .GLB_START_TIME 0 0 (BitVec.ofNat 32 us)
    (s.crcRefWrite (configCrc s.regs)).evalState)

end Sys2Proof.Machine
end

