-- ==== Sys2Proof/Machine/View.lean ====
section
/-! DEFINITION. What a read of a register returns, to each window (R10, R216, R262, R324, R355, R384, R405, R418, R453-R458, R466, R501, R530). No command
of the table is a plain read: these functions say what the registers show in a state. -/

namespace Sys2Proof.Machine

/-- A word put together from fields: lowest bit, width, value. -/
def pack (l : List (Nat × Nat × Nat)) : Word := BitVec.ofNat 32 ((l.map (fun e => e.2.2 % 2 ^ e.2.1 * 2 ^ e.1)).sum)

def tileCode (x : TileSt) : Nat := match x with
  | .idle => 0
  | .running => 1
  | .halted => 2
  | .fault => 3

def modelCode (x : ModelSt) : Nat := match x with
  | .absent => 0
  | .loading => 1
  | .resident => 2
  | .evicting => 3

def vidCode (x : VidSt) : Nat := match x with
  | .closed => 0
  | .opened => 1
  | .draining => 2
  | .error => 3

/-- The logical tile, within its cluster, of a stripe of a line buffer's group (R109). -/
def State.stripeTile (s : State) (l : LineBuf) (i : Nat) : Nat :=
  (((s.job l.owner.desc).bind (fun j => (j.op l.owner.op).tiles[i]?)).bind s.logTile).getD i % 16

/-- The CLU_ registers that follow the cluster's work (R110-R122). -/
def State.viewClu (s : State) (r : Reg) (c sel : Nat) (w : Word) : Word :=
  let x := s.cluster c
  if r = .CLU_ID then pack [(0, 4, c), (8, 3, (s.logCluster c).getD 0), (11, 1, b2n (s.logCluster c).isSome)]
  else if r = .CLU_STATE then pack [(0, 1, b2n x.tceRun.isSome), (4, 4, min 15 x.tceQueue.length), (8, 5, x.groups.length), (13, 1, b2n x.s2dRun.isSome)]
  else match Tab.find sel x.bufs with
    | none => w
    | some l =>
      if r = .CLU_LB_CFG then
        pack [(0, 1, 1), (1, 1, l.dir), (4, 3, l.layer), (8, 4, s.stripeTile l l.prod), (12, 4, s.stripeTile l l.cons), (16, 9, l.depth)]
      else if r = .CLU_LB_GEOM then pack [(0, 8, l.rowLines), (8, 15, l.slotBase)]
      else if r = .CLU_LB_COUNT then pack [(0, 16, l.prodCnt), (16, 16, l.consCnt)]
      else if r = .CLU_LB_STALL then BitVec.ofNat 32 l.stall
      else w

/-- The TIL_ registers that follow the tile and the maps. -/
def State.viewTil (s : State) (r : Reg) (p sel : Nat) (w : Word) : Word :=
  if r = .TIL_ID then pack [(0, 5, p % 17), (8, 4, p / 17), (16, 7, (s.logTile p).getD 0), (23, 1, b2n (s.logTile p).isSome)]
  else if r = .TIL_STATE then pack [(0, 2, tileCode (s.tile p).st), (8, 4, (s.tile p).queued)]
  else if r = .TIL_COLMAP ∧ sel / 32 < 9 then (match Tab.find sel (s.tile p).colmap with
    | some v => pack [(0, 6, v % 256 - 1), (6, 1, 1), (7, 1, b2n (decide (256 ≤ v)))]
    | none => 0)
  else w

def State.entsIn (s : State) (st : PageSt) : Nat := (s.kvm.ents.filter (fun e => e.2.st == st)).length

/-- The KVM_ registers that follow the page map (R148, R166). -/
def State.viewKvm (s : State) (r : Reg) (sel : Nat) (w : Word) : Word :=
  if r = .KVM_STATE then pack [(0, 21, s.freeEnts), (21, 1, b2n (s.entsIn .spilling != 0)), (22, 1, b2n (s.entsIn .fetching != 0))]
  else if r = .KVM_EPOCH then pack [(0, 16, s.kvm.cur), (16, 16, s.kvm.oldest)]
  else if r = .KVM_DEFER then pack [(0, 21, s.entsIn .deferred)]
  else if r = .KVM_RLM_USE then pack [(0, 21, s.heldEnts sel)]
  else if r = .KVM_RLM_FREE then pack [(0, 26, s.freeGran sel)]
  else w

/-- The SRV_ registers that follow the slots, accounts and models. -/
def State.viewSrv (s : State) (r : Reg) (sel : Nat) (w : Word) : Word :=
  if r = .SRV_STATE then pack [(0, 4, (s.srv.steps.map (fun e => 2 ^ e.1)).sum), (4, 17, s.srv.reqs.length)]
  else if r = .SRV_RLM_USE then pack [(0, 17, (s.srv.reqs.filter (fun e => e.2.realm == sel)).length)]
  else if r = .SRV_ACC_LEVEL then BitVec.ofNat 32 (ofSigned 32 (Tab.get (fun _ => 0) s.srv.levels sel))
  else if r = .SRV_MDL_STATE then
    (let m := s.srv.model sel
     if m.st = .absent then 0
     else pack [(0, 3, modelCode m.st), (3, 2, m.realm), (6, 6, m.profile), (12, 16, satAt 0xFFFF (s.modelLive sel))])
  else w

/-- The VID_ registers behind VID_STRM_SEL. -/
def State.viewVid (s : State) (r : Reg) (sel : Nat) (w : Word) : Word :=
  match Tab.find (256 * (sel / 256) + sel % 256) s.vid.strms with
  | none => w
  | some x =>
    if r = .VID_STRM_STATE then
      pack [(0, 2, vidCode x.st), (2, 2, x.cls), (4, 2, x.params.codec), (6, 1, x.params.op), (8, 4, x.queue.length + b2n x.cur.isSome),
            (12, 6, x.lastQp), (18, 6, x.pending.length)]
    else if r = .VID_STRM_FRAME then BitVec.ofNat 32 x.lastNo
    else if r = .VID_STRM_MARK then
      (let b := s.fld .VID_STRM_BUF_BUF
       if b < x.params.frames then BitVec.ofNat 32 (x.mark b) else 0)
    else w

/-- FLT_UNIT_HEALTH of the unit that FLT_UNIT_SEL names. -/
def State.viewHealth (s : State) (k : Nat) : Word :=
  let kind := k / 256
  let i := k % 256
  let u := s.unit k
  let score := match kind with
    | 0 => s.tileScore i
    | 1 => s.cluScore i
    | 4 => s.modScore
    | _ => 1000
  let use := match kind with
    | 0 => if s.tileRetired i then 2 else if ((s.logTile i).map s.laneHolds).getD ((halfPlaces s).contains i && s.flag .CTL_CTRL_LANE_EN) then 3
           else if (s.logTile i).isSome then 0 else 1
    | 1 => if s.cluRetired i then 2 else if (s.logCluster i).isSome then 0 else 1
    | 2 => if s.flag .FLT_SPARES_CHAN_USED && s.fld .FLT_SPARES_CHAN == i then 2 else 0
    | 3 => if bit (s.fld .FLT_SPARES_VID_RETIRED) i then 2 else 0
    | _ => 0
  if 4 < kind then 0 else pack [(0, 10, score), (10, 2, use), (16, 8, satAt 255 u.contained), (24, 8, satAt 255 u.ceHour)]

/-- The word that a register shows, to firmware's read of it. -/
def State.view (s : State) (w : Win) (r : Reg) (u sel : Nat) : Word :=
  let x := s.word r u sel
  if ((r.row.map RegRow.sqc).getD 0) ≠ 0 then BitVec.ofNat 32 (s.sqcOf r u).value
  else if r = .GAU_COUNT_LO then BitVec.ofNat 32 s.gauge
  else match r.block with
    | 3 => if r = .STV_MAP then (match Tab.find sel s.stave.map with
        | some m => pack [(0, 1, 1), (1, 3, m.state), (4, 3, m.gauge), (8, 24, m.serial)]
        | none => x) else x
    | 4 =>
      if r = .RING_POS then pack [(0, 15, (s.ring u sel).head), (16, 15, (s.ring u sel).cqTail), (31, 1, b2n (s.ring u sel).stopped)]
      else if r = .RING_EQ_POS then pack [(0, 16, (s.evRing u).tail), (16, 16, (s.evRing u).head)]
      else x
    | 5 => s.viewClu r u sel x
    | 6 => s.viewTil r u sel x
    | 7 => s.viewKvm r sel x
    | 8 => s.viewSrv r sel x
    | 9 => if r = .CTL_Q_STS then
        pack [(0, 6, (s.queue sel).words.length), (8, 1, b2n (s.queue sel).gap.isSome), (16, 16, s.fld .CTL_Q_STS_GAPS 0 sel)] else x
    | 10 => s.viewVid r sel x
    | 11 =>
      if r = .DET_STATE then Fld.DET_STATE_GEN_BUSY.into (b2n (s.genOf (s.genSet w)).busy) (Fld.DET_STATE_DET.into (s.fld .GLB_CFG_DET_MODE) x)
      else if r = .DET_MODE_WORD then BitVec.ofNat 32 s.modeNow
      else x
    | 12 => if r = .FLT_UNIT_HEALTH then s.viewHealth sel else x
    | 15 => if r = .THM_COOL_FLOW then Fld.THM_COOL_FLOW_AGE.into (match s.pwr.lastAt with
        | some t => satAt 0xFFFF ((s.gauge - t) / 320000)
        | none => 0xFFFF) x else x
    | _ => x

/-- Is the register one that only takes writes, or pulses (R10)? -/
def readsZero (x : RegRow) : Bool := x.w1p != 0 && x.rw == 0

/-- Does a realm own a tile of a physical cluster, or with `whole` every one? -/
def State.ownsCluster (s : State) (r c : Nat) (whole : Bool) : Bool :=
  ((s.logCluster c).map (fun l =>
    let own := fun t => s.tileRealm (16 * l + t) == some r
    if whole then (List.range 16).all own else (List.range 16).any own)).getD false

/-- The registers that realm software reads; every other read of its window returns zero. -/
def State.realmReads (s : State) (r : Nat) (g : Reg) (u sel : Nat) : Bool :=
  match g.block with
  | 0 => decide (g.off ≤ Reg.GLB_STATE.off) || g == .GLB_STRAPS
  | 1 => g == .CLK_ID
  | 2 => g == .GAU_ID || g == .GAU_STATE || g == .GAU_COUNT_LO || g == .GAU_COUNT_HI || g == .GAU_LAUNCH_ID || g == .GAU_LAUNCH_LO || g == .GAU_LAUNCH_HI
  | 3 => g == .STV_ID || g == .STV_STATE
  | 4 => u == r
  | 5 => s.ownsCluster r u (g == .CLU_LB_STALL || decide (Reg.CLU_PERF_TCE_BUSY.off ≤ g.off))
  | 6 => s.ownsTile r u
  | 7 => g == .KVM_ID || g == .KVM_EPOCH
  | 8 => g == .SRV_ID || ((g == .SRV_ACC_CFG || g == .SRV_ACC_RATE || g == .SRV_ACC_LEVEL) && s.ownsAccount r sel)
  | 9 => s.laneOwner == r
  | 10 => g == .VID_ID || g == .VID_CAPACITY || ((g == .VID_STRM_STATE || g == .VID_STRM_FRAME || g == .VID_STRM_MARK) && sel / 256 == r)
  | 11 => g == .DET_ID || g == .DET_STATE || g == .DET_MODE_WORD || (decide (0x28 ≤ g.off) && decide (g.off ≤ 0x3C))
      || ((g == .DET_SWATCH_CNT || g == .DET_SWATCH_ERR || g == .DET_SWATCH_TAG || g == .DET_SWATCH_INFO) && (s.det.swatch.map (fun x => x.realm == r)).getD false)
  | 12 => g == .FLT_ID || g == .FLT_STATE || g == .FLT_POLICY || g == .FLT_SPARES
  | 13 => g == .SEC_ID || g == .SEC_STATE || g == .SEC_NONCE_LO || g == .SEC_NONCE_HI || (decide (0x38 ≤ g.off) && decide (g.off ≤ 0x48))
  | 14 => g == .FWU_ID || g == .FWU_STATE
  | 15 => g == .THM_ID
  | 16 => g == .PWR_ID || g == .PWR_STATE || g == .PWR_RLM_POWER
  | _ => false

/-- What a 32-bit read through a window returns. -/
def State.read32 (s : State) (w : Win) (off : Nat) : Word :=
  match s.pageOf w off with
  | none => (match msixWord w off with
    | some k => Tab.get (fun _ => 0) s.boot.msix k
    | none => 0)
  | some (b, u) =>
    match (pageReg b off).row with
    | none => 0
    | some x =>
      let sel := s.selOf w x u
      if !s.pageUp b || s.blockGated b u || readsZero x then 0
      else match w with
        | .realm r =>
          if !s.windowOpen r || !s.realmReads r x.reg u sel then 0
          else if x.reg = .GAU_COUNT_LO then BitVec.ofNat 32 (s.gauge / 32 * 32)
          else s.view w x.reg u sel
        | _ => s.view w x.reg u sel

/-- What a read of `size` bytes returns: a 64-bit read the register at the lower offset in the low half (R456). -/
def State.regRead (s : State) (w : Win) (off size : Nat) : Nat :=
  if !s.up || !accessOk off size then 0
  else if size = 4 then (s.read32 w off).toNat
  else (s.read32 w off).toNat + (s.read32 w (off + 4)).toNat * 2 ^ 32

end Sys2Proof.Machine
end

