-- ==== Sys2Proof/Machine/Dispatch.lean ====
section
/-! DEFINITION. One arm for every command. -/

namespace Sys2Proof.Machine

/-- A command's effect on everything but the queue. -/
def exec (i : Instr) (s : State) : Host.Outcome State Fault Refusal :=
  match i with
  | .nop r n ix => Sys2Proof.Machine.execNop r n ix s
  | .job r n ix => Sys2Proof.Machine.execJob r n ix s
  | .dma r n ix => Sys2Proof.Machine.execDma r n ix s
  | .scatterKv r n ix => Sys2Proof.Machine.execScatterKv r n ix s
  | .serveRequest r n ix err => Sys2Proof.Machine.execServeRequest r n ix err s
  | .cancel r n ix => Sys2Proof.Machine.execCancel r n ix s
  | .prefixRegister r n ix => Sys2Proof.Machine.execPrefixRegister r n ix s
  | .prefixRelease r n ix => Sys2Proof.Machine.execPrefixRelease r n ix s
  | .modelLoad r n ix prof geom policy keep draft => Sys2Proof.Machine.execModelLoad r n ix prof geom policy keep draft s
  | .modelEvict r n ix => Sys2Proof.Machine.execModelEvict r n ix s
  | .videoFrame r n ix parts => Sys2Proof.Machine.execVideoFrame r n ix parts s
  | .fence r n ix => Sys2Proof.Machine.execFence r n ix s
  | .launchAt r n ix => Sys2Proof.Machine.execLaunchAt r n ix s
  | .launchCountReached r n ix => Sys2Proof.Machine.execLaunchCountReached r n ix s
  | .snapshot r n ix => Sys2Proof.Machine.execSnapshot r n ix s
  | .snapshotBoundary r n ix => Sys2Proof.Machine.execSnapshotBoundary r n ix s
  | .snapshotImageWritten r n ix => Sys2Proof.Machine.execSnapshotImageWritten r n ix s
  | .restore r n ix => Sys2Proof.Machine.execRestore r n ix s
  | .swatchBegin r n ix => Sys2Proof.Machine.execSwatchBegin r n ix s
  | .swatchEnd r n ix => Sys2Proof.Machine.execSwatchEnd r n ix s
  | .sqTail r n v width => Sys2Proof.Machine.execSqTail r n v width s
  | .cqHead r n v width => Sys2Proof.Machine.execCqHead r n v width s
  | .eqHead r v width => Sys2Proof.Machine.execEqHead r v width s
  | .descriptorFetch r n err cqErr => Sys2Proof.Machine.execDescriptorFetch r n err cqErr s
  | .descriptorStart r n ix => Sys2Proof.Machine.execDescriptorStart r n ix s
  | .jobTimeout r n ix => Sys2Proof.Machine.execJobTimeout r n ix s
  | .msixMessage r n => Sys2Proof.Machine.execMsixMessage r n s
  | .eqOverflow r => Sys2Proof.Machine.execEqOverflow r s
  | .matmul r n ix k env => Sys2Proof.Machine.execMatmul r n ix k env s
  | .segSum r n ix k env => Sys2Proof.Machine.execSegSum r n ix k env s
  | .segMax r n ix k env => Sys2Proof.Machine.execSegMax r n ix k env s
  | .segMin r n ix k env => Sys2Proof.Machine.execSegMin r n ix k env s
  | .segMean r n ix k env => Sys2Proof.Machine.execSegMean r n ix k env s
  | .scatterAdd r n ix k env => Sys2Proof.Machine.execScatterAdd r n ix k env s
  | .msg r n ix k env => Sys2Proof.Machine.execMsg r n ix k env s
  | .topk r n ix k env => Sys2Proof.Machine.execTopk r n ix k env s
  | .sort r n ix k env => Sys2Proof.Machine.execSort r n ix k env s
  | .unique r n ix k env => Sys2Proof.Machine.execUnique r n ix k env s
  | .gridBuild r n ix k env => Sys2Proof.Machine.execGridBuild r n ix k env s
  | .knn r n ix k env => Sys2Proof.Machine.execKnn r n ix k env s
  | .conv r n ix k env => Sys2Proof.Machine.execConv r n ix k env s
  | .maxpool r n ix k env => Sys2Proof.Machine.execMaxpool r n ix k env s
  | .avgpool r n ix k env => Sys2Proof.Machine.execAvgpool r n ix k env s
  | .globalAvg r n ix k env => Sys2Proof.Machine.execGlobalAvg r n ix k env s
  | .eltwise r n ix k env => Sys2Proof.Machine.execEltwise r n ix k env s
  | .random r n ix k env => Sys2Proof.Machine.execRandom r n ix k env s
  | .attn r n ix k env => Sys2Proof.Machine.execAttn r n ix k env s
  | .group r n ix k env => Sys2Proof.Machine.execGroup r n ix k env s
  | .tceDispatch c env => Sys2Proof.Machine.execTceDispatch c env s
  | .s2dRepack c => Sys2Proof.Machine.execS2dRepack c s
  | .haloRowWrite c b => Sys2Proof.Machine.execHaloRowWrite c b s
  | .haloRowRead c b => Sys2Proof.Machine.execHaloRowRead c b s
  | .lbTimeout c b => Sys2Proof.Machine.execLbTimeout c b s
  | .pageFetchDone e wait => Sys2Proof.Machine.execPageFetchDone e wait s
  | .spillStart r => Sys2Proof.Machine.execSpillStart r s
  | .spillCopyDone e => Sys2Proof.Machine.execSpillCopyDone e s
  | .deferredReclaim e => Sys2Proof.Machine.execDeferredReclaim e s
  | .reclaimNow w => Sys2Proof.Machine.execReclaimNow w s
  | .kvmCntClr w => Sys2Proof.Machine.execKvmCntClr w s
  | .tilCntClr w p => Sys2Proof.Machine.execTilCntClr w p s
  | .scrubNow w p => Sys2Proof.Machine.execScrubNow w p s
  | .scrubPass p ces ues => Sys2Proof.Machine.execScrubPass p ces ues s
  | .columnSpareRewriteDone p => Sys2Proof.Machine.execColumnSpareRewriteDone p s
  | .halt w p on => Sys2Proof.Machine.execHalt w p on s
  | .tilCvtWrite w p v => Sys2Proof.Machine.execTilCvtWrite w p v s
  | .cluCtrlWrite w c v => Sys2Proof.Machine.execCluCtrlWrite w c v s
  | .lbFlush w c => Sys2Proof.Machine.execLbFlush w c s
  | .cluCntClr w c => Sys2Proof.Machine.execCluCntClr w c s
  | .ringReset w r => Sys2Proof.Machine.execRingReset w r s
  | .eqReset w r => Sys2Proof.Machine.execEqReset w r s
  | .ringCntClr w r => Sys2Proof.Machine.execRingCntClr w r s
  | .queueItemArrive q ws => Sys2Proof.Machine.execQueueItemArrive q ws s
  | .gapMarkerEnter q => Sys2Proof.Machine.execGapMarkerEnter q s
  | .queueWordRead q flip => Sys2Proof.Machine.execQueueWordRead q flip s
  | .select r => Sys2Proof.Machine.execSelect r s
  | .sample r outs => Sys2Proof.Machine.execSample r outs s
  | .stepRetry r => Sys2Proof.Machine.execStepRetry r s
  | .commitPoint r cancels => Sys2Proof.Machine.execCommitPoint r cancels s
  | .slotFree slot => Sys2Proof.Machine.execSlotFree slot s
  | .accountLevelRefill => Sys2Proof.Machine.execAccountLevelRefill s
  | .deadlinePass slot => Sys2Proof.Machine.execDeadlinePass slot s
  | .modelLoadDone m => Sys2Proof.Machine.execModelLoadDone m s
  | .modelEvictDone m => Sys2Proof.Machine.execModelEvictDone m s
  | .srvCntClr w => Sys2Proof.Machine.execSrvCntClr w s
  | .accRefill w => Sys2Proof.Machine.execAccRefill w s
  | .install w pkg => Sys2Proof.Machine.execInstall w pkg s
  | .repair w h => Sys2Proof.Machine.execRepair w h s
  | .laneRetire w h => Sys2Proof.Machine.execLaneRetire w h s
  | .swapArm w => Sys2Proof.Machine.execSwapArm w s
  | .swapCancel w => Sys2Proof.Machine.execSwapCancel w s
  | .ackLost w => Sys2Proof.Machine.execAckLost w s
  | .ctlCntClr w => Sys2Proof.Machine.execCtlCntClr w s
  | .qFlush w => Sys2Proof.Machine.execQFlush w s
  | .laneEnWrite w v => Sys2Proof.Machine.execLaneEnWrite w v s
  | .gridWrite w v => Sys2Proof.Machine.execGridWrite w v s
  | .periodStart at_ => Sys2Proof.Machine.execPeriodStart at_ s
  | .laneFrameRx port q hdr ws => Sys2Proof.Machine.execLaneFrameRx port q hdr ws s
  | .ptpFrameRx port domain sync => Sys2Proof.Machine.execPtpFrameRx port domain sync s
  | .ingressRead q flips => Sys2Proof.Machine.execIngressRead q flips s
  | .periodLaunch => Sys2Proof.Machine.execPeriodLaunch s
  | .evaluationDone outs bytes check lat => Sys2Proof.Machine.execEvaluationDone outs bytes check lat s
  | .holdFrames => Sys2Proof.Machine.execHoldFrames s
  | .claim h c => Sys2Proof.Machine.execClaim h c s
  | .stateCopyReceive good => Sys2Proof.Machine.execStateCopyReceive good s
  | .takeover => Sys2Proof.Machine.execTakeover s
  | .halfScrubDone h => Sys2Proof.Machine.execHalfScrubDone h s
  | .halfSelftestDone h pass => Sys2Proof.Machine.execHalfSelftestDone h pass s
  | .halfLoadDone h => Sys2Proof.Machine.execHalfLoadDone h s
  | .shadowCompare outs bytes => Sys2Proof.Machine.execShadowCompare outs bytes s
  | .checkpointWrite ok => Sys2Proof.Machine.execCheckpointWrite ok s
  | .linkChange p up => Sys2Proof.Machine.execLinkChange p up s
  | .upHoldExpiry p => Sys2Proof.Machine.execUpHoldExpiry p s
  | .quarantineEnd p => Sys2Proof.Machine.execQuarantineEnd p s
  | .tsUnlock => Sys2Proof.Machine.execTsUnlock s
  | .partDispatch core => Sys2Proof.Machine.execPartDispatch core s
  | .partDone core o => Sys2Proof.Machine.execPartDone core o s
  | .strmKill w => Sys2Proof.Machine.execStrmKill w s
  | .vidCntClr w => Sys2Proof.Machine.execVidCntClr w s
  | .genRun w => Sys2Proof.Machine.execGenRun w s
  | .genDone r => Sys2Proof.Machine.execGenDone r s
  | .detCntClr w => Sys2Proof.Machine.execDetCntClr w s
  | .swatchAbort w => Sys2Proof.Machine.execSwatchAbort w s
  | .digestDone r n ix err => Sys2Proof.Machine.execDigestDone r n ix err s
  | .signatureDone r n ix fail => Sys2Proof.Machine.execSignatureDone r n ix fail s
  | .swatch => Sys2Proof.Machine.execSwatch s
  | .swatchUnitAge => Sys2Proof.Machine.execSwatchUnitAge s
  | .swatchPeerSilence => Sys2Proof.Machine.execSwatchPeerSilence s
  | .errorHandling found ok row chan => Sys2Proof.Machine.execErrorHandling found ok row chan s
  | .tileRecoveryDone p pass => Sys2Proof.Machine.execTileRecoveryDone p pass s
  | .channelCopyDone => Sys2Proof.Machine.execChannelCopyDone s
  | .retireHalted kind index => Sys2Proof.Machine.execRetireHalted kind index s
  | .knownAnswerPass fails => Sys2Proof.Machine.execKnownAnswerPass fails s
  | .healthHour => Sys2Proof.Machine.execHealthHour s
  | .stateDwellExpiry => Sys2Proof.Machine.execStateDwellExpiry s
  | .messageReject second p half => Sys2Proof.Machine.execMessageReject second p half s
  | .mgmtWarmRestart settings => Sys2Proof.Machine.execMgmtWarmRestart settings s
  | .fltCntClr w => Sys2Proof.Machine.execFltCntClr w s
  | .retire w => Sys2Proof.Machine.execRetire w s
  | .fltRepair w pass => Sys2Proof.Machine.execFltRepair w pass s
  | .freeze w => Sys2Proof.Machine.execFreeze w s
  | .ownerSet w err => Sys2Proof.Machine.execOwnerSet w err s
  | .ownerClear w err => Sys2Proof.Machine.execOwnerClear w err s
  | .realmCreate w err => Sys2Proof.Machine.execRealmCreate w err s
  | .realmDestroy w err => Sys2Proof.Machine.execRealmDestroy w err s
  | .realmClearDone r => Sys2Proof.Machine.execRealmClearDone r s
  | .fwActivate w err => Sys2Proof.Machine.execFwActivate w err s
  | .fwDisarm w err => Sys2Proof.Machine.execFwDisarm w err s
  | .debugArm w err => Sys2Proof.Machine.execDebugArm w err s
  | .debugDisarm w err => Sys2Proof.Machine.execDebugDisarm w err s
  | .debugExpiry => Sys2Proof.Machine.execDebugExpiry s
  | .secCntClr w => Sys2Proof.Machine.execSecCntClr w s
  | .provision r mode use slot => Sys2Proof.Machine.execProvision r mode use slot s
  | .clear r slot => Sys2Proof.Machine.execClear r slot s
  | .attest r => Sys2Proof.Machine.execAttest r s
  | .certs r chain => Sys2Proof.Machine.execCerts r chain s
  | .load w => Sys2Proof.Machine.execLoad w s
  | .fwuAbort w => Sys2Proof.Machine.execFwuAbort w s
  | .verifyDone err => Sys2Proof.Machine.execVerifyDone err s
  | .applyDone err meas size ucode => Sys2Proof.Machine.execApplyDone err meas size ucode s
  | .activation => Sys2Proof.Machine.execActivation s
  | .microcodeLoad p => Sys2Proof.Machine.execMicrocodeLoad p s
  | .confirm => Sys2Proof.Machine.execConfirm s
  | .confirmWindowExpiry => Sys2Proof.Machine.execConfirmWindowExpiry s
  | .fallback lost => Sys2Proof.Machine.execFallback lost s
  | .drawerAccrual => Sys2Proof.Machine.execDrawerAccrual s
  | .retrim w dir ok => Sys2Proof.Machine.execRetrim w dir ok s
  | .rcTrim dir ok => Sys2Proof.Machine.execRcTrim dir ok s
  | .frequencyMonitorWindow bad => Sys2Proof.Machine.execFrequencyMonitorWindow bad s
  | .refLoss => Sys2Proof.Machine.execRefLoss s
  | .refBack => Sys2Proof.Machine.execRefBack s
  | .clockRampDone => Sys2Proof.Machine.execClockRampDone s
  | .lowPowerWrite w on => Sys2Proof.Machine.execLowPowerWrite w on s
  | .gateWrite w tiles v => Sys2Proof.Machine.execGateWrite w tiles v s
  | .gatePendApply => Sys2Proof.Machine.execGatePendApply s
  | .realign w => Sys2Proof.Machine.execRealign w s
  | .gaugeRead w => Sys2Proof.Machine.execGaugeRead w s
  | .staveFrameRx odd body arr t => Sys2Proof.Machine.execStaveFrameRx odd body arr t s
  | .gaugeHoldover => Sys2Proof.Machine.execGaugeHoldover s
  | .frameMark latency => Sys2Proof.Machine.execFrameMark latency s
  | .ringOpen => Sys2Proof.Machine.execRingOpen s
  | .attach => Sys2Proof.Machine.execAttach s
  | .enum w => Sys2Proof.Machine.execEnum w s
  | .enumRoundEnd => Sys2Proof.Machine.execEnumRoundEnd s
  | .launchSend w => Sys2Proof.Machine.execLaunchSend w s
  | .launch => Sys2Proof.Machine.execLaunch s
  | .actSend w => Sys2Proof.Machine.execActSend w s
  | .activate => Sys2Proof.Machine.execActivate s
  | .state => Sys2Proof.Machine.execState s
  | .stateSend => Sys2Proof.Machine.execStateSend s
  | .stvCntClr w => Sys2Proof.Machine.execStvCntClr w s
  | .crcNow w => Sys2Proof.Machine.execCrcNow w s
  | .crcCommit w => Sys2Proof.Machine.execCrcCommit w s
  | .crcPeriodic => Sys2Proof.Machine.execCrcPeriodic s
  | .crcDone => Sys2Proof.Machine.execCrcDone s
  | .crcRefWrite w v => Sys2Proof.Machine.execCrcRefWrite w v s
  | .holdStuck fw => Sys2Proof.Machine.execHoldStuck fw s
  | .resetArm w => Sys2Proof.Machine.execResetArm w s
  | .resetGo w => Sys2Proof.Machine.execResetGo w s
  | .registerWrite w off size v env => Sys2Proof.Machine.execRegisterWrite w off size v env s
  | .registerRequestApply env => Sys2Proof.Machine.execRegisterRequestApply env s
  | .sqcWrite w off v => Sys2Proof.Machine.execSqcWrite w off v s
  | .sqcRead w off => Sys2Proof.Machine.execSqcRead w off s
  | .powerOnReset head bench => Sys2Proof.Machine.execPowerOnReset head bench s
  | .refStable => Sys2Proof.Machine.execRefStable s
  | .pllStable => Sys2Proof.Machine.execPllStable s
  | .imageVerified ok okOther => Sys2Proof.Machine.execImageVerified ok okOther s
  | .lpddr5Trained failed => Sys2Proof.Machine.execLpddr5Trained failed s
  | .memoryClearDone fails => Sys2Proof.Machine.execMemoryClearDone fails s
  | .settingsRestored us => Sys2Proof.Machine.execSettingsRestored us s
  | .resetNChange asserted t => Sys2Proof.Machine.execResetNChange asserted t s
  | .freezeNAssert t => Sys2Proof.Machine.execFreezeNAssert t s
  | .alertNChange asserted t => Sys2Proof.Machine.execAlertNChange asserted t s
  | .sidebandStuck ix => Sys2Proof.Machine.execSidebandStuck ix s
  | .sidebandFastEnd ix => Sys2Proof.Machine.execSidebandFastEnd ix s
  | .hostLinkReset => Sys2Proof.Machine.execHostLinkReset s
  | .linkTraining dead heard far width => Sys2Proof.Machine.execLinkTraining dead heard far width s
  | .laneFail lane => Sys2Proof.Machine.execLaneFail lane s
  | .laneRecordClear => Sys2Proof.Machine.execLaneRecordClear s
  | .mainDip volt => Sys2Proof.Machine.execMainDip volt s
  | .mainReturn => Sys2Proof.Machine.execMainReturn s
  | .dipRecoveryExpiry => Sys2Proof.Machine.execDipRecoveryExpiry s
  | .mainLoss => Sys2Proof.Machine.execMainLoss s
  | .auxLost => Sys2Proof.Machine.execAuxLost s
  | .coolantRecordRead b => Sys2Proof.Machine.execCoolantRecordRead b s
  | .coolantIbi b => Sys2Proof.Machine.execCoolantIbi b s
  | .coolantStale => Sys2Proof.Machine.execCoolantStale s
  | .survivalExit => Sys2Proof.Machine.execSurvivalExit s
  | .junctionRead rs => Sys2Proof.Machine.execJunctionRead rs s
  | .junctionShutdown => Sys2Proof.Machine.execJunctionShutdown s
  | .powerMeasure power volt => Sys2Proof.Machine.execPowerMeasure power volt s
  | .envelopeUpdate demand rlm => Sys2Proof.Machine.execEnvelopeUpdate demand rlm s
  | .freezeNDeassert t => Sys2Proof.Machine.execFreezeNDeassert t s
  | .pllUnlock loop => Sys2Proof.Machine.execPllUnlock loop s

end Sys2Proof.Machine
end

