-- ==== Sys2Proof/Safety.lean ====
section
/-! DEFINITION. The terms in which claims about the module are stated: what a step leaves unchanged, which registers and bytes it may change,
when a completion record can be written, and what a status bit shows. -/

namespace Sys2Proof.Machine

/-- The parts of the state. -/
inductive Part where
  | gauge | free | mem | regs | sqc | evSeq | queues | rings | evRings | nextUid | jobs | tiles | clusters | cluMap | tileMap | kvm | srv | realms | keys | laneTiles | laneParts | lane | vid | boot | flt | drawer | det | clk | stave | sec | pwr | out | pending
  deriving DecidableEq, Repr

/-- A part is the same in two states. -/
def Part.same (p : Part) (s t : State) : Prop :=
  match p with
  | .gauge => s.gauge = t.gauge
  | .free => s.free = t.free
  | .mem => s.mem = t.mem
  | .regs => s.regs = t.regs
  | .sqc => s.sqc = t.sqc
  | .evSeq => s.evSeq = t.evSeq
  | .queues => s.queues = t.queues
  | .rings => s.rings = t.rings
  | .evRings => s.evRings = t.evRings
  | .nextUid => s.nextUid = t.nextUid
  | .jobs => s.jobs = t.jobs
  | .tiles => s.tiles = t.tiles
  | .clusters => s.clusters = t.clusters
  | .cluMap => s.cluMap = t.cluMap
  | .tileMap => s.tileMap = t.tileMap
  | .kvm => s.kvm = t.kvm
  | .srv => s.srv = t.srv
  | .realms => s.realms = t.realms
  | .keys => s.keys = t.keys
  | .laneTiles => s.laneTiles = t.laneTiles
  | .laneParts => s.laneParts = t.laneParts
  | .lane => s.lane = t.lane
  | .vid => s.vid = t.vid
  | .boot => s.boot = t.boot
  | .flt => s.flt = t.flt
  | .drawer => s.drawer = t.drawer
  | .det => s.det = t.det
  | .clk => s.clk = t.clk
  | .stave => s.stave = t.stave
  | .sec => s.sec = t.sec
  | .pwr => s.pwr = t.pwr
  | .out => s.out = t.out
  | .pending => s.pending = t.pending

/-- Every part but those listed is the same after as before. -/
def State.sameBut (s t : State) (ps : List Part) : Prop := ∀ p : Part, p ∉ ps → p.same s t

/-- The parts that event records touch: the event rings in host memory and their state, RING_EQ_DROP, RING_STS, the sources' SEQ and
firmware's event queue (R204-R207). -/
def eventParts : List Part := [.mem, .regs, .sqc, .evSeq, .queues, .evRings]

/-- Every register word but those under the keys listed reads as before. -/
def State.regsBut (s t : State) (ks : List Nat) : Prop := ∀ k, k ∉ ks → Tab.get regDefault t.regs k = Tab.get regDefault s.regs k

/-- Every byte outside host memory reads as before: no store of the module has changed. -/
def State.storesKept (s t : State) : Prop := ∀ a, lpddrBase ≤ a → t.mem.cells.read a = s.mem.cells.read a

/-- Every byte outside a range reads as before. -/
def State.bytesKept (s t : State) (a n : Nat) : Prop := ∀ b, (b < a ∨ a + n ≤ b) → t.mem.cells.read b = s.mem.cells.read b

/-- A status bit of a sequence-cleared register is set (R459). -/
def State.stsBit (s : State) (r : Reg) (b : Nat) (u : Nat := 0) : Bool := (Tab.find b (s.sqcOf r u).setBits).isSome

/-- The completion record of a started descriptor can be written: it holds its slot, the host takes the record, the ring pair is not
stopped by an earlier error, and the module has not FAILED (R176, R209, R365). -/
def State.recordable (s : State) (r n : Nat) (d : Desc) : Prop :=
  s.descUid r n d.uid = some d ∧ d.reserved = true ∧ d.cqErr = false ∧ (s.ring r n).cqDead = false ∧ s.flt.failed = false

/-- A descriptor has completed with a status: it has left its ring pair, CQ_TAIL has advanced by one slot, and, for a descriptor without the EVENT
flag, STATUS of the record in the slot that was at CQ_TAIL reads so (R176-R178, R199). -/
def State.completed (s t : State) (r n : Nat) (d : Desc) (status : Nat) : Prop :=
  (t.ring r n).descs = (s.ring r n).descs.filter (fun e => e.uid != d.uid)
  ∧ (t.ring r n).cqTail = ((s.ring r n).cqTail + 1) % s.cqSize r n
  ∧ (bit d.flags 3 = false →
      t.mem.cells.read (hostBase + s.cqBase r n + s.recBytes r n * ((s.ring r n).cqTail % s.cqSize r n) + 5) = BitVec.ofNat 8 status)

/-- A started descriptor has been acted on: its command runs once. -/
def State.acted (s : State) (r n : Nat) (d : Desc) : State := s.updDesc r n d.uid (fun d => { d with acted := true })

/-- The operators of one shape of run: the command, the OPCODE and what the operator computes (R188, R189). CONV and GROUP have shapes of their own. -/
def plainOperators : List ((Nat → Nat → Nat → Nat → OpEnv → Sys2Proof.Instr) × Nat × (State → OpCtx → List Nat → OpRes)) :=
  [(.matmul, 0x01, opMatmul), (.segSum, 0x02, opSegSum false), (.segMax, 0x03, opSegPick true), (.segMin, 0x04, opSegPick false),
   (.segMean, 0x05, opSegSum true), (.scatterAdd, 0x06, opScatterAdd), (.msg, 0x07, opMsg), (.topk, 0x08, opTopk), (.sort, 0x09, opSort),
   (.unique, 0x0A, opUnique), (.gridBuild, 0x0B, opGridBuild), (.knn, 0x0C, opKnn), (.maxpool, 0x11, opPool 0x11), (.avgpool, 0x12, opPool 0x12),
   (.globalAvg, 0x13, opPool 0x13), (.eltwise, 0x20, opEltwise), (.random, 0x21, opRandom), (.attn, 0x40, opAttn)]

/-- Does a block's page answer an access to a unit (R428, R450, R451)? -/
def State.openTo (s : State) (b u : Nat) : Bool := s.pageUp b && !s.blockGated b u

/-- The commands that are writes to a page of firmware's: the command by its window, the register, the unit behind the page, and the word it carries as the
register request of R457 holds it. -/
def firmwareCommands (a b : Nat) (on : Bool) (pkg : Option LanePkg) : List ((Win → Sys2Proof.Instr) × Reg × Nat × (State → Nat)) :=
  [(fun w => .kvmCntClr w, .KVM_CMD, 0, fun _ => 1), (fun w => .reclaimNow w, .KVM_CMD, 0, fun _ => 2),
   (fun w => .lbFlush w a, .CLU_CMD, a, fun _ => 1), (fun w => .cluCntClr w a, .CLU_CMD, a, fun _ => 2), (fun w => .cluCtrlWrite w a b, .CLU_CTRL, a, fun _ => b),
   (fun w => .halt w a on, .TIL_CTRL, a, fun s => ((s.setFld .TIL_CTRL_HALT (b2n on) a).word .TIL_CTRL a).toNat), (fun w => .tilCvtWrite w a b, .TIL_CVT, a, fun _ => b),
   (fun w => .srvCntClr w, .SRV_CMD, 0, fun _ => 1), (fun w => .accRefill w, .SRV_CMD, 0, fun _ => 2),
   (fun w => .detCntClr w, .DET_CMD, 0, fun _ => 2), (fun w => .swatchAbort w, .DET_CMD, 0, fun _ => 4),
   (fun w => .install w pkg, .CTL_CMD, 0, fun _ => 1), (fun w => .swapArm w, .CTL_CMD, 0, fun _ => 8), (fun w => .swapCancel w, .CTL_CMD, 0, fun _ => 0x10),
   (fun w => .ctlCntClr w, .CTL_CMD, 0, fun _ => 0x40), (fun w => .qFlush w, .CTL_CMD, 0, fun _ => 0x200), (fun w => .laneEnWrite w b, .CTL_CTRL, 0, fun _ => b),
   (fun w => .gridWrite w b, .CTL_GRID_HI, 0, fun _ => b), (fun w => .vidCntClr w, .VID_CMD, 0, fun _ => 1), (fun w => .strmKill w, .VID_CMD, 0, fun _ => 2),
   (fun w => .fltCntClr w, .FLT_CMD, 0, fun _ => 1), (fun w => .retire w, .FLT_CMD, 0, fun _ => 2), (fun w => .fltRepair w on, .FLT_CMD, 0, fun _ => 4),
   (fun w => .freeze w, .FLT_CMD, 0, fun _ => 8), (fun w => .retrim w a on, .CLK_CMD, 0, fun _ => 1),
   (fun w => .lowPowerWrite w on, .CLK_CTRL, 0, fun s => (s.word .CLK_CTRL).toNat / 2 * 2 + b2n on),
   (fun w => .gateWrite w on b, if on then .CLK_TILE_GATE else .CLK_GATE, 0, fun _ => b), (fun w => .realign w, .GAU_CMD, 0, fun _ => 1)]

/-- An operator has started on a tile: its settings are sampled, and the tile runs it (R50, R189). -/
def State.startedOp (s : State) (d : Desc) (k lt : Nat) (env : OpEnv) : State :=
  (s.disturb (s.physTile lt) env).opStart d.uid k (s.physTile lt) [s.physTile lt] lt

/-- The commands of the root of trust, with the OP of their blocks (R389). -/
def rotCommands : List ((Win → Bool → Sys2Proof.Instr) × Nat) :=
  [(.ownerSet, opOwnerSet), (.ownerClear, opOwnerClear), (.realmCreate, opRealmCreate), (.realmDestroy, opRealmDestroy), (.fwActivate, opFwActivate),
   (.fwDisarm, opFwDisarm), (.debugArm, opDebugArm), (.debugDisarm, opDebugDisarm)]

/-- The parts that the report of an error touches. -/
def reportParts : List Part := .flt :: .stave :: .sec :: .pwr :: .out :: eventParts

/-- The parts that a completion touches. -/
def recordParts : List Part := .rings :: eventParts

/-- A field lies within its word. -/
def Fld.fits (f : Fld) : Prop := f.lo + f.width ≤ 32

/-- The commands that the supervisor acts on, outside the die: the rails, power-on, and the sideband inputs. No other command wakes a frozen module (R382, R446). -/
def supervisorCommand : Sys2Proof.Instr → Bool
  | .powerOnReset .. | .resetNChange .. | .freezeNAssert .. | .freezeNDeassert .. | .alertNChange .. | .sidebandStuck .. | .sidebandFastEnd .. | .mainLoss
  | .junctionShutdown => true
  | _ => false

/-- The module is frozen, and no command of the supervisor's waits. -/
def State.frozenInv (s : State) : Prop := s.flt.frozen = true ∧ ∀ c ∈ s.pending, supervisorCommand c = false

/-- Registers whose writes have an effect besides that on their word, or a rule of their own. -/
def ruledRegs : List Reg := [.SEC_REQ, .GLB_CFG, .GLB_CRC_CTRL, .GLB_CFG_CRC_REF, .CLK_CTRL, .CLK_GATE, .CLK_TILE_GATE, .GAU_CTRL, .STV_CTRL, .CLU_CTRL, .TIL_CVT, .TIL_CTRL, .CTL_CTRL,
  .CTL_GRID_HI, .CTL_GRID_LO, .CTL_CKPT_BASE, .VID_CTRL, .FLT_CTRL, .THM_CTRL, .PWR_CTRL]

end Sys2Proof.Machine
end

