-- ==== Sys2Proof/Certificates/Slice0/Obligations.lean ====
section
/-! DEFINITION. The statements for the provers, each named for what it says. -/

open Sys2Proof Sys2Proof.Machine

/-- A step runs the command at the front of the queue on the state with the queue's rest; on an empty queue the Gauge counts one tick while the
clock runs (log entry 1, the model's choice). -/
def Obligations.StepTakesTheFront : Prop :=
  (∀ (c : Instr) (rest : List Instr) (s : State), step { s with pending := c :: rest } = exec c { s with pending := rest })
  ∧ ∀ s : State, s.pending = [] → step s = .next (if s.up && s.boot.pllStable then { s with gauge := s.gauge + 1 } else s)

/-- A doorbell write in range moves its index and nothing else; one that moves TAIL past the free slots, or HEAD past TAIL, is dropped: the
index stays, DB_INVALID is set (R174, R176, R180, R181). -/
def Obligations.DoorbellsMoveTheIndices : Prop :=
  ∀ (r n v : Nat) (s : State), s.ready = true → s.active r = true → n < 64 →
    (v < 2 ^ 15 → s.flag .RING_SIZE_ENABLE r n = true →
      exec (.sqTail r n v 32) s = .next
        (if v < s.sqSize r n ∧ (v + s.sqSize r n - (s.ring r n).tail) % s.sqSize r n
              + ((s.ring r n).tail + s.sqSize r n - (s.ring r n).head) % s.sqSize r n ≤ s.sqSize r n - 1
         then s.setRing r n { s.ring r n with tail := v } else s.dbInvalid r n v)
      ∧ exec (.cqHead r n v 32) s = .next
        (if v < s.cqSize r n ∧ (v + s.cqSize r n - (s.ring r n).cqHead) % s.cqSize r n
              ≤ ((s.ring r n).cqTail + s.cqSize r n - (s.ring r n).cqHead) % s.cqSize r n
         then s.setRing r n { s.ring r n with cqHead := v } else s.dbInvalid r n v))
    ∧ (v < 2 ^ 16 → s.flag .RING_EQ_CFG_ENABLE r = true →
      exec (.eqHead r v 32) s = .next
        (if v < s.eqSize r ∧ (v + s.eqSize r - (s.evRing r).head) % s.eqSize r
              ≤ ((s.evRing r).tail + s.eqSize r - (s.evRing r).head) % s.eqSize r
         then s.setEvRing r { s.evRing r with head := v } else s.dbInvalid r 64 v))
    ∧ (s.dbInvalid r n v).ring r n = s.ring r n ∧ (s.dbInvalid r n v).sameBut s eventParts
    ∧ (s.dbInvalid r n v).stsBit .RING_STS 0 r = true

/-- A started NOP and a started FENCE do nothing and complete with OK (R185, R196). A started LAUNCH_AT completes with OK when its COUNT has passed, and waits else; one that waits completes with OK when the
Gauge reaches COUNT. Its completion sets the count that the next descriptor of the ring is held to (R197). -/
def Obligations.NopFenceAndLaunchAtComplete : Prop :=
  ∀ (r n i : Nat) (s : State) (d : Desc), s.ready = true → s.recordable r n d →
    (s.starting r n i 0x00 = some d → ∃ t, exec (.nop r n i) s = .next t ∧ s.completed t r n d stOk ∧ s.sameBut t (.rings :: eventParts))
    ∧ (s.starting r n i 0x0B = some d → ∃ t, exec (.fence r n i) s = .next t ∧ s.completed t r n d stOk ∧ s.sameBut t (.rings :: eventParts))
    ∧ (s.starting r n i 0x0C = some d →
      (d.num 8 8 < s.gauge → ∃ t, exec (.launchAt r n i) s = .next t ∧ s.completed t r n d stOk ∧ (t.ring r n).launch = some (d.num 8 8)
        ∧ s.sameBut t (.rings :: eventParts))
      ∧ (s.gauge ≤ d.num 8 8 → exec (.launchAt r n i) s = .next (s.updDesc r n d.uid (fun d => { d with acted := true }))))
    ∧ (s.desc r n i = some d → d.started.isSome = true → d.acted = true → d.ty = 0x0C →
      ∃ t, exec (.launchCountReached r n i) s = .next t ∧ s.completed t r n d stOk ∧ (t.ring r n).launch = some (d.num 8 8)
        ∧ t.gauge = max s.gauge (d.num 8 8) ∧ s.sameBut t (.gauge :: .rings :: eventParts))

/-- DESCRIPTOR_FETCH takes the 64 bytes at the fetch position of an enabled ring into the oldest free place and advances the position; a read
error stops the ring pair instead (R175). DESCRIPTOR_START gives a fetched descriptor, whose turn it is, a completion slot; one that fails a check of R186
completes at once with that status, and one whose record is already known completes with it. -/
def Obligations.DescriptorsAreFetchedAndStarted : Prop :=
  ∀ (r n : Nat) (s : State), s.ready = true → s.active r = true → s.flt.failed = false → (s.ring r n).stopped = false →
    (n < 64 → s.flag .RING_SIZE_ENABLE r n = true → s.flag .RING_CTRL_FETCH_EN r = true → (s.ring r n).fetch ≠ (s.ring r n).tail →
      ((s.ring r n).descs.filter (fun d => !d.extra)).length < 32 → ∀ cqErr : Bool,
      (∃ t d, exec (.descriptorFetch r n false cqErr) s = .next t
        ∧ t.ring r n = { s.ring r n with fetch := ((s.ring r n).fetch + 1) % s.sqSize r n, descs := (s.ring r n).descs ++ [d] }
        ∧ d.slot = (s.ring r n).fetch ∧ d.raw = s.bytes (hostBase + s.sqBase r n + 64 * (s.ring r n).fetch) 64 ∧ d.started = none
        ∧ s.sameBut t [.rings, .nextUid])
      ∧ exec (.descriptorFetch r n true cqErr) s
          = .next (((s.setRing r n { s.ring r n with stopped := true }).setSts .RING_STS [1] r).emit 15 0x20 0x0002 r n))
    ∧ ∀ (i : Nat) (d : Desc), s.desc r n i = some d → s.descUid r n d.uid = some d → d.started = none → s.cqFree r n ≠ 0 → s.mayStart r n d = true →
      d.cqErr = false → (s.ring r n).cqDead = false →
      ∃ t, exec (.descriptorStart r n i) s = .next t ∧
        match d.result with
        | some x => s.completed t r n d x.status ∧ s.sameBut t (.rings :: eventParts)
        | none =>
          if d.early = true ∨ s.descCheck r n d = stOk then
            (t.descUid r n d.uid).map (fun e => (e.started, e.reserved, e.raw)) = some (some s.gauge, true, d.raw) ∧ s.sameBut t [.rings]
          else s.completed t r n d (s.descCheck r n d) ∧ s.sameBut t (.rings :: eventParts)

/-- The command bits of a RING_ page act when firmware, the management window or the realm itself writes them: EQ_RESET puts both indices of the event
ring and RING_EQ_DROP to 0 and PHASE back to 1; CNT_CLR clears RING_EQ_DROP and RING_PERF_DONE; RESET leaves the selected ring pair empty with its indices
at 0 and sets RING_STS.RESET_DONE (R207, R210, R218). -/
def Obligations.RingPageCommandsAct : Prop :=
  ∀ (w : Win) (r : Nat) (s : State), s.pageUp 4 = true → r < 4 → (w = .fw ∨ w = .mgmt ∨ (w = .realm r ∧ s.windowOpen r = true)) →
    (∃ t, exec (.eqReset w r) s = .next t ∧ t.evRing r = { tail := 0, head := 0, phase := true } ∧ t.word .RING_EQ_DROP r = 0
      ∧ s.sameBut t [.evRings, .regs] ∧ s.regsBut t [Reg.RING_EQ_DROP.key r 0] ∧ ∀ q, q ≠ r → t.evRing q = s.evRing q)
    ∧ (∃ t, exec (.ringCntClr w r) s = .next t ∧ t.word .RING_EQ_DROP r = 0 ∧ t.word .RING_PERF_DONE r = 0
      ∧ s.sameBut t [.regs] ∧ s.regsBut t [Reg.RING_EQ_DROP.key r 0, Reg.RING_PERF_DONE.key r 0])
    ∧ (∃ t, exec (.ringReset w r) s = .next t ∧ t.ring r (s.fld .RING_SEL_RING r) = { fetch := 0, tail := 0, cqTail := 0, cqHead := 0, phase := true, descs := [] }
      ∧ t.stsBit .RING_STS 4 r = true)

/-- MSIX_MESSAGE sends the message of a ring pair or event ring whose delay runs, vector 65 r + n, and ends the delay (R182). EQ_OVERFLOW writes the record of a
run of drops once two slots are free, and the run is over (R207). -/
def Obligations.MessagesAndOverflowRecords : Prop :=
  ∀ (r n : Nat) (s : State), s.ready = true → r < 4 →
    (n < 64 → (s.ring r n).irqDue.isSome = true →
      exec (.msixMessage r n) s = .next ((s.setRing r n { s.ring r n with irqDue := none }).send (.msix (65 * r + n))))
    ∧ ((s.evRing r).irqDue.isSome = true →
      exec (.msixMessage r 64) s = .next ((s.setEvRing r { s.evRing r with irqDue := none }).send (.msix (65 * r + 64))))
    ∧ (s.flag .RING_EQ_CFG_ENABLE r = true → (s.evRing r).runCount ≠ 0 → s.eqUsed r + 2 ≤ s.eqSize r →
      ∃ t, exec (.eqOverflow r) s = .next t ∧ (t.evRing r).runCount = 0 ∧ (t.evRing r).tail = ((s.evRing r).tail + 1) % s.eqSize r
        ∧ (t.evRing r).head = (s.evRing r).head ∧ s.sameBut t eventParts)

/-- An item enters an internal queue whole, in order behind what waits there, when the chain has room for all its words and no gap marker is pending; otherwise
none of it enters and the gap register counts it (R212, R213). -/
def Obligations.ItemsEnterQueuesWholeOrNotAtAll : Prop :=
  ∀ (q : Nat) (ws : List Nat) (s : State), s.up = true → 1 ≤ ws.length → ws.length ≤ 8 →
    ((s.queue q).gap = none → (s.queue q).words.length + ws.length ≤ 32 →
      ∃ t, exec (.queueItemArrive q ws) s = .next t ∧ (t.queue q).words = (s.queue q).words ++ itemWords ws ∧ (t.queue q).gap = none
        ∧ (itemWords ws).length = ws.length ∧ s.sameBut t [.queues] ∧ ∀ p, p ≠ q → t.queue p = s.queue p)
    ∧ ((s.queue q).gap = none → 32 < (s.queue q).words.length + ws.length →
      ∃ t, exec (.queueItemArrive q ws) s = .next t ∧ (t.queue q).words = (s.queue q).words ∧ (t.queue q).gap = some 1
        ∧ s.sameBut t [.queues] ∧ ∀ p, p ≠ q → t.queue p = s.queue p)
    ∧ (∀ c, (s.queue q).gap = some c → 32 ≤ (s.queue q).words.length →
      ∃ t, exec (.queueItemArrive q ws) s = .next t ∧ (t.queue q).words = (s.queue q).words ∧ (t.queue q).gap = some (min 0xFFFFFFFF (c + 1))
        ∧ s.sameBut t [.queues] ∧ ∀ p, p ≠ q → t.queue p = s.queue p)

/-- A pending gap marker enters the chain once an entry is free, with the count of the gap register, which is then empty (R213). A read takes the front word of a
queue, unless the reader is discarding and the word is no SINGLE or FIRST, and the words behind it move up; a word that has lost its parity starts the discarding (R215). -/
def Obligations.QueueWordsLeaveInOrder : Prop :=
  ∀ (q : Nat) (s : State), s.up = true →
    (∀ c, (s.queue q).gap = some c → (s.queue q).words.length < 32 →
      ∃ t, exec (.gapMarkerEnter q) s = .next t ∧ (t.queue q).words = (s.queue q).words ++ [queueWord (c % 2 ^ 32 + q % 256 * 2 ^ 32) 0 true]
        ∧ (t.queue q).gap = none ∧ s.sameBut t [.queues] ∧ ∀ p, p ≠ q → t.queue p = s.queue p)
    ∧ (∀ (w : BitVec 72) (rest : List (BitVec 72)) (flip : Bool), q ≠ fwQueue → (s.queue q).words = w :: rest → (s.queue q).gap = none →
      ∃ t, exec (.queueWordRead q flip) s = .next t ∧ (t.queue q).words = rest
        ∧ (t.queue q).skipping = (if (s.queue q).skipping && !wordFirst w then true else flip || !wordParityOk w)
        ∧ s.sameBut t [.queues] ∧ ∀ p, p ≠ q → t.queue p = s.queue p)
    ∧ (∀ (w : BitVec 72) (rest : List (BitVec 72)), (s.queue fwQueue).words = w :: rest → (s.queue fwQueue).skipping = false → wordParityOk w = true → wordGap w = false →
      ∃ t, exec (.queueWordRead fwQueue false) s = .next t ∧ (t.queue fwQueue).skipping = false ∧ s.sameBut t [.queues])

/-- A started JOB whose program passes the checks of R188 begins to run with the records of its program, none of them started, from the count at which
it started; one that fails a check completes with that check's status (R187, R188). A running JOB whose time reaches MAX_GT ends with JOB_TIMEOUT (R187). -/
def Obligations.JobsStartWithTheirProgram : Prop :=
  ∀ (r n i : Nat) (s : State) (d : Desc), s.ready = true → s.desc r n i = some d →
    (s.starting r n i 1 = some d → (∀ x ∈ s.det.snaps, x.target ≠ d.uid) →
      ((s.jobCheck r d).1 = stOk → ∃ t j, exec (.job r n i) s = .next t ∧ t.job d.uid = some j ∧ j.realm = r ∧ j.ring = n
        ∧ j.recs = (s.jobCheck r d).2 ∧ (∀ k, (j.op k).st = .waiting) ∧ j.start = s.gauge ∧ j.maxGt = d.num 0x28 8 ∧ j.ending = none
        ∧ s.sameBut t [.rings, .jobs])
      ∧ ((s.jobCheck r d).1 ≠ stOk → s.recordable r n d →
        ∃ t, exec (.job r n i) s = .next t ∧ s.completed t r n d (s.jobCheck r d).1 ∧ s.sameBut t (.rings :: eventParts)))
    ∧ ∀ j, s.jobAt r n i = some (d, j) → j.maxGt ≠ 0 → j.finished = false → (∀ x ∈ s.det.snaps, x.target = d.uid → x.image = none) →
        exec (.jobTimeout r n i) s = .next (({ s with gauge := max s.gauge (j.start + j.maxGt) }).endJob d.uid stTimeout)

/-- A DMA without a key between places its realm reaches moves BYTES and completes with OK: outside host memory every byte of the destination reads as the byte of the source did
and every other byte as before (R46, R185). A sealed DMA completes with the status of the sealed transfer (R399). -/
def Obligations.DmaMovesItsBytes : Prop :=
  ∀ (r n i : Nat) (s : State) (d : Desc) (a b : Nat), r < 4 → n < 64 → s.ready = true → s.workHeld = false → s.starting r n i 2 = some d → s.recordable r n d →
    s.dmaPlace r (bits (d.byte 0x1C) 0 4) (d.byte 0x1D) (d.num 8 8) (d.num 0x18 4) = some a →
    s.dmaPlace r (bits (d.byte 0x1C) 4 4) (d.byte 0x1D) (d.num 0x10 8) (d.num 0x18 4) = some b →
    (d.num 0x1E 2 = noKey → ∃ t, exec (.dma r n i) s = .next t ∧ s.completed t r n d stOk ∧ s.sameBut t (.rings :: eventParts)
      ∧ (lpddrBase ≤ b → ∀ k < d.num 0x18 4, t.mem.cells.read (b + k) = s.mem.cells.read (a + k))
      ∧ ∀ x, lpddrBase ≤ x → (x < b ∨ b + d.num 0x18 4 ≤ x) → t.mem.cells.read x = s.mem.cells.read x)
    ∧ ∀ k, d.num 0x1E 2 ≠ noKey → s.keySlot r (d.num 0x1E 2) = some k →
      ∃ t, exec (.dma r n i) s = .next t
        ∧ s.completed t r n d (s.sealedDma r (d.num 0x1E 2) k (bits (d.byte 0x1C) 0 4 == 0) a b (d.num 0x18 4)).1
        ∧ s.sameBut t (.rings :: .keys :: eventParts)

/-- A SCATTER_KV appends its rows all or nothing: with OK the skein is longer by every row named and its staging area is free again; one that its tree path, the limit or the
pool refuses leaves every skein and every byte of the module's stores as they were (R148, R150). -/
def Obligations.ScatterKvIsAllOrNothing : Prop :=
  ∀ (r n i : Nat) (s : State) (d : Desc), s.ready = true → s.starting r n i 3 = some d →
    ∃ (t : State) (st : Nat), exec (.scatterKv r n i) s = .next (t.done r n d.uid st)
      ∧ (st = stTreePath ∨ st = stKvLimit ∨ st = stKvNoPage → t.kvm.skeins = s.kvm.skeins ∧ s.storesKept (t.done r n d.uid st))
      ∧ (st = stOk → ∃ (k q : Skein) (rows : List Nat), s.kvm.skein (d.num 8 4) = some k
          ∧ scatterRows k (d.byte 0x0C == 1) (d.num 0x0E 2) ((List.range (d.byte 0x0D)).map (fun k => d.byte (0x10 + k))) = some rows
          ∧ t.kvm.skein (d.num 8 4) = some q ∧ q.len = k.len + rows.length ∧ q.staged = 0 ∧ q.parents = [])

/-- A fetched CANCEL acts out of turn: on no match it ends with NOT_FOUND; of the outstanding descriptor of the ring it names that was fetched first with its tag, and the request
with it that was admitted first, it ends the earlier one: the descriptor with CANCELLED and the CANCEL with OK, but a VIDEO frame that has started is not found; or the request, whose tokens the
CANCEL answers (R198, R241, R242, R318). -/
def Obligations.CancelEndsItsTarget : Prop :=
  ∀ (r n i : Nat) (s : State) (d : Desc), s.ready = true → s.active r = true → s.desc r n i = some d → d.ty = 5 → d.acted = false →
    s.descCheck r n d = stOk →
    let s1 := s.updDesc r n d.uid (fun d => { d with acted := true })
    let target := s.cancelTarget r (d.byte 8) (d.num 0x0C 4) d.uid
    let req := s.cancelReq r (d.byte 8) (d.num 0x0C 4)
    (target = none → req = none → exec (.cancel r n i) s = .next (s1.done r n d.uid stNotFound))
    ∧ (∀ slot q, req = some (slot, q) → (∀ e, target = some e → q.order ≤ e.uid) → exec (.cancel r n i) s = .next (s1.cancelRequest r n d.uid slot q))
    ∧ (∀ e, target = some e → (∀ x, req = some x → e.uid < x.2.order) →
        exec (.cancel r n i) s = .next
          (if e.ty = 0x0A ∧ e.started.isSome = true then s1.done r n d.uid stNotFound else (s1.cancelDesc r (d.byte 8) e false).done r n d.uid stOk))

/-- The operators MATMUL, SEG_SUM, SEG_MAX, SEG_MIN, SEG_MEAN, SCATTER_ADD, MSG, TOPK, SORT, UNIQUE, GRID_BUILD, KNN, MAXPOOL, AVGPOOL, GLOBAL_AVG, ELTWISE, RANDOM and ATTN: one whose turn it is
starts on the tile that R330 picks and runs there, the tile RUNNING it; it stays as it is while that tile takes no operator, and ends with DESC_ACCESS when the realm has none (R50, R51, R188, R189). -/
def Obligations.OperatorsRunOnATile : Prop :=
  ∀ e ∈ plainOperators, ∀ (r n i k : Nat) (env : OpEnv) (s : State) (d : Desc) (j : Job), s.ready = true → s.workHeld = false → s.active r = true →
    s.jobAt r n i = some (d, j) → (j.rcd k).opcode = e.2.1 → j.mayStart k = true →
    (∀ lt, s.pickTile j (d.byte 0x1C) (j.rcd k) env = .tile lt →
      exec (e.1 r n i k env) s = .next ((s.startedOp d k lt env).opRun d d.uid k (s.physTile lt) env e.2.2)
      ∧ ((s.startedOp d k lt env).tile (s.physTile lt)).st = .running
      ∧ ((s.startedOp d k lt env).tile (s.physTile lt)).cur = some ⟨d.uid, k⟩)
    ∧ (s.pickTile j (d.byte 0x1C) (j.rcd k) env = .busy → exec (e.1 r n i k env) s = .next s)
    ∧ (s.pickTile j (d.byte 0x1C) (j.rcd k) env = .none →
      exec (e.1 r n i k env) s = .next ((s.updJob d.uid (fun j => j.setOp k { st := .running })).opEnd ⟨d.uid, k⟩ stDescAccess []))

/-- A run that meets no error ends its operator with the status it computed, and the module's stores hold what they held with the operator's output rows written over it, and nothing
else (R46, R52, R187). -/
def Obligations.OperatorsWriteTheirOutputs : Prop :=
  ∀ (f : State → OpCtx → List Nat → OpRes) (s : State) (d : Desc) (k p : Nat) (env : OpEnv) (j : Job) (x : OpRes), s.job d.uid = some j → j.digest = none →
    x = f s (j.ctx (j.rcd k) (j.op k) (d.num 0x20 8) p env) (s.block d (j.rcd k)) →
    x.waits = [] → x.ue = [] → s.partWrites x.writes = [] → env.datapath = false → x.pages = [] → x.kvPoison = [] → x.access = false →
    let t := s.opRun d d.uid k p env f
    (s.applyWrites x.writes).storesKept t ∧ ∀ j', t.job d.uid = some j' → (j'.op k).st = .ended x.status

/-- CONV starts on the path of R105: the thin-channel path hands it to the engine of the tile's cluster, which runs it or queues it; the space-to-depth path occupies its tile and waits for the
scratch region; the others run on their tile. The engine's command ends the operator with its status once it meets no error, its output rows written, and S2D_REPACK marks the packed plane done
(R101-R108). -/
def Obligations.ConvolutionsTakeTheirPath : Prop :=
  ∀ (s : State), s.ready = true → s.workHeld = false →
    (∀ (r n i k lt : Nat) (env : OpEnv) (d : Desc) (j : Job) (c : ConvIn), s.active r = true → s.jobAt r n i = some (d, j) → (j.rcd k).opcode = 0x10 → j.mayStart k = true →
      s.pickTile j (d.byte 0x1C) (j.rcd k) env = .tile lt →
      c = s.convIn (j.ctx (j.rcd k) { stoch := s.stochasticOn (j.rcd k) (s.physTile lt), ovfSat := s.flag .TIL_CVT_OVF_SAT (s.physTile lt) } (d.num 0x20 8) (s.physTile lt) env) (s.block d (j.rcd k)) →
      ∃ t, exec (.conv r n i k env) s = .next t
        ∧ (c.bad = 0 → c.path = 1 → (s.cluster (s.physTile lt / 17)).tceRun = none → (t.cluster (s.physTile lt / 17)).tceRun = some ⟨d.uid, k⟩)
        ∧ (c.bad = 0 → c.path = 1 → (s.cluster (s.physTile lt / 17)).tceRun.isSome = true → (s.cluster (s.physTile lt / 17)).tceQueue.length < 15 →
            (t.cluster (s.physTile lt / 17)).tceQueue = (s.cluster (s.physTile lt / 17)).tceQueue ++ [⟨d.uid, k⟩])
        ∧ (c.bad = 0 → c.path = 2 → (t.tile (s.physTile lt)).cur = some ⟨d.uid, k⟩
            ∧ (if (s.cluster (s.physTile lt / 17)).s2dRun = none then (t.cluster (s.physTile lt / 17)).s2dRun = some ⟨d.uid, k⟩
               else (t.cluster (s.physTile lt / 17)).s2dQueue = (s.cluster (s.physTile lt / 17)).s2dQueue ++ [⟨d.uid, k⟩])))
    ∧ (∀ (c : Nat) (env : OpEnv) (key : OpKey) (d : Desc) (j : Job) (x : OpRes), (s.cluster c).tceRun = some key → s.opOwner key = some (d, j) → j.digest = none →
      env.bad = [] → env.ce = [] → env.datapath = false →
      let s1 := (s.setCluster c { s.cluster c with tceRun := (s.cluster c).tceQueue.head?, tceQueue := (s.cluster c).tceQueue.drop 1 }).bumpWrap .CLU_PERF_TCE_BUSY_COUNT env.busy c
      x = opConv s1 (j.ctx (j.rcd key.op) (j.op key.op) (d.num 0x20 8) (j.op key.op).home env) (s1.block d (j.rcd key.op)) →
      x.ue = [] → s1.partWrites x.writes = [] → x.kvPoison = [] → x.access = false →
      ∃ t, exec (.tceDispatch c env) s = .next t ∧ (s1.applyWrites x.writes).storesKept t ∧ ∀ j', t.job key.desc = some j' → (j'.op key.op).st = .ended x.status)
    ∧ (∀ (c : Nat) (key : OpKey) (d : Desc) (j : Job), (s.cluster c).s2dRun = some key → s.opOwner key = some (d, j) → (j.op key.op).repacked = false →
      ∃ t, exec (.s2dRepack c) s = .next t ∧ (t.job key.desc).map (fun j => (j.op key.op).repacked) = some true ∧ s.sameBut t [.mem, .jobs])

/-- A GROUP whose tiles are all free and whose line buffers all fit starts: every tile of it is RUNNING it, each of its clusters lists it and holds the buffers placed there (R109, R115). One whose tiles are not all
free, or whose buffers do not fit, waits. -/
def Obligations.GroupsStartOnAllTheirTiles : Prop :=
  ∀ (r n i k : Nat) (env : OpEnv) (s : State) (d : Desc) (j : Job) (tls : List (List Nat)) (g : GroupIn) (o : OpRun), s.ready = true → s.workHeld = false → s.active r = true →
    s.jobAt r n i = some (d, j) → (j.rcd k).opcode = 0x41 → j.mayStart k = true →
    s.groupTiles j (d.byte 0x1C) (j.rcd k) (GroupHdr.parse (s.block d (j.rcd k))).clusters (GroupHdr.parse (s.block d (j.rcd k))).stripes = some tls →
    let ps := (tls.map (fun l => l.map s.physTile)).flatten
    let p := ((tls.map (fun l => l.map s.physTile)).headD []).headD 0
    o = { stoch := s.stochasticOn (j.rcd k) p, ovfSat := s.flag .TIL_CVT_OVF_SAT p } →
    g = s.groupIn (j.ctx (j.rcd k) o (d.num 0x20 8) p env) (s.block d (j.rcd k)) → g.bad = 0 →
    (ps.all s.tileFree = false → exec (.group r n i k env) s = .next s)
    ∧ let placed := s.groupPlaces g ⟨d.uid, k⟩ (GroupHdr.parse (s.block d (j.rcd k))).stripes ((tls.map (fun l => l.map s.physTile)).map (fun l => l.headD 0 / 17))
      let t := ((s.disturb p env).opStart d.uid k p ps ((tls.headD []).headD 0)).groupHold ⟨d.uid, k⟩ placed
      let run := opGroup t (j.ctx (j.rcd k) o (d.num 0x20 8) p env) (t.block d (j.rcd k))
      (ps.all s.tileFree = true → placed.any (fun y => y.2.isNone) = true → exec (.group r n i k env) s = .next s)
      ∧ (ps.all s.tileFree = true → placed.any (fun y => y.2.isNone) = false →
          (∃ c < tls.length, g.plan (c * (GroupHdr.parse (s.block d (j.rcd k))).stripes) (GroupHdr.parse (s.block d (j.rcd k))).stripes ≠ []) →
          env.datapath = false → run.ue = [] → t.partWrites run.writes = [] →
          exec (.group r n i k env) s = .next t ∧ (∀ q ∈ ps, (t.tile q).st = .running ∧ (t.tile q).cur = some ⟨d.uid, k⟩) ∧ ∀ y ∈ placed, ⟨d.uid, k⟩ ∈ (t.cluster y.1).groups)

/-- A producer with a free slot writes its next halo row into slot n mod DEPTH and raises PROD_CNT; one without stalls until there is one. A consumer that lacks rows waits; a stall or wait that lasts
longer than CLU_LB_TIMEOUT sets CLU_STS.LB_TIMEOUT and ends its group with LB_TIMEOUT.
An LB_FLUSH leaves the cluster with no line buffer and no running group, and sets CLU_STS.LB_ABORT where a group ran (R112, R118-R120). -/
def Obligations.LineBuffersCarryRows : Prop :=
  (∀ (c : Nat) (s : State), s.openTo 5 c = true → ∃ t, exec (.lbFlush .fw c) s = .next t ∧ (t.cluster c).bufs = [] ∧ (t.cluster c).groups = [] ∧ ((s.cluster c).groups ≠ [] → t.stsBit .CLU_STS 1 c = true))
  ∧ ∀ (c b : Nat) (s : State) (l : LineBuf), s.ready = true → s.workHeld = false → Tab.find b (s.cluster c).bufs = some l →
    (l.prodCnt < l.rows → l.depth ≤ l.prodCnt - l.consCnt →
      exec (.haloRowWrite c b) s = .next (s.setBuf c b { l with waitSince := l.waitSince.or (some s.gauge) }))
    ∧ (∀ d j x, l.prodCnt < l.rows → l.prodCnt - l.consCnt < l.depth → s.groupCtx l.owner = some (d, j, x) →
      ∃ t l', exec (.haloRowWrite c b) s = .next t ∧ Tab.find b (t.cluster c).bufs = some l' ∧ l'.prodCnt = l.prodCnt + 1 ∧ l'.consCnt = l.consCnt ∧ l'.waitSince = none
        ∧ s.sameBut t [.mem, .regs, .clusters])
    ∧ (∀ d j x, s.groupCtx l.owner = some (d, j, x) → l.done = false →
      let need := (s.groupIn x (s.block d (j.rcd l.owner.op))).need l
      (l.prodCnt < need.1 → exec (.haloRowRead c b) s = .next (s.setBuf c b { l with waitSince := l.waitSince.or (some s.gauge) }))
      ∧ (need.1 ≤ l.prodCnt → need.2 < l.rows → c < 9 →
        ∃ t l', exec (.haloRowRead c b) s = .next t ∧ Tab.find b (t.cluster c).bufs = some l' ∧ l'.consCnt = need.2 ∧ l'.band = l.band + 1 ∧ l'.prodCnt = l.prodCnt
          ∧ s.sameBut t [.regs, .clusters]))
    ∧ (∀ u, l.waitSince = some u → s.fld .CLU_LB_TIMEOUT_LIMIT c ≠ 0 →
      ∃ t, exec (.lbTimeout c b) s = .next t
        ∧ t = ((({ s with gauge := max s.gauge (u + 256 * s.fld .CLU_LB_TIMEOUT_LIMIT c + 1) }).setSts .CLU_STS [0] c).contain 0x0004 1 c 1 b).opEnd l.owner stLbTimeout [])

/-- A write of realm software to a page of firmware's changes nothing; one through the management window waits behind the register requests before it and changes nothing else but the count that
GLB_STATE shows; while a page does not answer, no write to it does anything (R428, R450, R457). -/
def Obligations.FirmwarePagesAreFirmwares : Prop :=
  ∀ (a b : Nat) (on : Bool) (pkg : Option LanePkg), ∀ e ∈ firmwareCommands a b on pkg, ∀ s : State,
    (s.openTo e.2.1.block e.2.2.1 = true →
      (∀ r, exec (e.1 (.realm r)) s = .next s)
      ∧ ∃ t, exec (e.1 .mgmt) s = .next t ∧ t.boot.requests = s.boot.requests ++ [⟨e.2.1.block, e.2.1.off, e.2.2.1, e.2.2.2 s⟩]
        ∧ t.fld .GLB_STATE_REQ_PEND = satAt 255 (s.boot.requests.length + 1) % 256 ∧ s.sameBut t [.boot, .regs] ∧ s.regsBut t [Reg.GLB_STATE.key 0 0])
    ∧ (s.openTo e.2.1.block e.2.2.1 = false → ∀ w, exec (e.1 w) s = .next s)

/-- CNT_CLR of a page takes its counters to zero and changes nothing else: the registers of TIL_CMD, CLU_CMD, KVM_CMD, SRV_CMD, CTL_CMD, VID_CMD, DET_CMD, FLT_CMD, SEC_CMD and STV_CMD, each written by
firmware (R53, R120, R171). -/
def Obligations.CounterClearsClearCounters : Prop :=
  ∀ (s : State) (u : Nat), ∀ e ∈ ([(.tilCntClr .fw u, 6, u, [.TIL_ECC_CNT, .TIL_ECC_ADDR, .TIL_PERF_BUSY, .TIL_PERF_CONFLICT, .TIL_PERF_IDXWAIT], []),
      (.cluCntClr .fw u, 5, u, [.CLU_PERF_TCE_BUSY, .CLU_PERF_LB_STALL, .CLU_PERF_LB_WAIT, .CLU_PERF_RECOMP], [.clusters]),
      (.kvmCntClr .fw, 7, 0, [.KVM_ERR_ENTRY, .KVM_PERF_SPILL, .KVM_PERF_FETCH, .KVM_PERF_FETCH_WAIT, .KVM_PERF_COW], []),
      (.srvCntClr .fw, 8, 0, [.SRV_PERF_TOKENS, .SRV_PERF_PAUSE, .SRV_PERF_REFUSE], []),
      (.vidCntClr .fw, 10, 0, [.VID_PERF_BUSY, .VID_PERF_PREEMPT, .VID_PERF_REENC, .VID_PERF_FRAMES], []),
      (.detCntClr .fw, 11, 0, [.DET_PERF_HASH, .DET_PERF_SIGN, .DET_PERF_SNAP], [.det]),
      (.fltCntClr .fw, 12, 0, [.FLT_PERF_CE, .FLT_PERF_CONTAINED, .FLT_PERF_REJECT], []),
      (.secCntClr .fw, 13, 0, [.SEC_PERF_REJECT], []), (.stvCntClr .fw, 3, 0, [.STV_PERF_CRC, .STV_PERF_MSG], [])]
      : List (Instr × Nat × Nat × List Reg × List Part)),
    s.openTo e.2.1 e.2.2.1 = true → (e.2.1 = 6 → u < 153) →
    ∃ t, exec e.1 s = .next t ∧ (∀ r ∈ e.2.2.2.1, t.word r e.2.2.1 = 0) ∧ s.sameBut t (.regs :: e.2.2.2.2) ∧ s.regsBut t (e.2.2.2.1.map (fun r => r.key e.2.2.1 0))

/-- Below LOW the hub spills pages: each chosen page turns from RESIDENT to SPILLING, none until the free granules fall below LOW. The end of a copy makes the entry SPILLED with a new spill count; the end of a fetch
makes it RESIDENT, poisoned when its tag fails; a released entry that no older reader can reach returns to the free pool (R155, R157, R158, R166). -/
def Obligations.PagesSpillAndComeBack : Prop :=
  ∀ (e : Nat) (s : State), s.ready = true →
    (∀ r, r < 4 → s.poolSize r * s.fld .KVM_RLM_SPILL_LOW 0 r ≤ 256 * s.freeGran r → exec (.spillStart r) s = .next s)
    ∧ (∀ r c a, r < 4 → s.flag .KVM_CTRL_SPILL_EN = true → 256 * s.freeGran r < s.poolSize r * s.fld .KVM_RLM_SPILL_LOW 0 r → s.kvm.ents ≠ [] →
        256 * (s.freeGran r + s.spillingGran r) < s.poolSize r * s.fld .KVM_RLM_SPILL_HIGH 0 r → spillFirst (s.spillable r) = some c →
        s.spillTo r (s.kvm.ent c.1).gran = some a →
        exec (.spillStart r) s = .next ((s.onKvm (fun k => k.setEnt c.1 { k.ent c.1 with st := .spilling, tier := a.1, slot := a.2 })).spillPages r (s.kvm.ents.length - 1)))
    ∧ ((s.kvm.ent e).st = .spilling → ∃ t, exec (.spillCopyDone e) s = .next t ∧ (t.kvm.ent e).st = .spilled ∧ (t.kvm.ent e).spillCount = s.kvm.spills % 2 ^ 32
        ∧ t.kvm.spills = s.kvm.spills + 1 ∧ (t.kvm.ent e).slot = (s.kvm.ent e).slot)
    ∧ ((s.kvm.ent e).st = .fetching → ∀ w, ∃ t, exec (.pageFetchDone e w) s = .next t ∧ (t.kvm.ent e).st = .resident
        ∧ ((t.kvm.ent e).poison = true ↔ (s.kvm.ent e).poison = true ∨ s.mem.isBad (s.slotAddr (s.kvm.ent e).realm (s.kvm.ent e)) ((s.kvm.ent e).gran * 4096) = true
            ∨ gcmOpen (s.spillKey (s.kvm.ent e).realm) (spillNonce (s.kvm.ent e).sealedBy (s.kvm.ent e).spillCount) []
                (s.bytes (s.slotAddr (s.kvm.ent e).realm (s.kvm.ent e)) ((s.kvm.ent e).gran * 4096)) (s.kvm.ent e).tag = none))
    ∧ ((s.kvm.ent e).st = .deferred → (∀ x ∈ s.kvm.readers, epochAfter x (s.kvm.ent e).epoch = true) →
        ∃ t, exec (.deferredReclaim e) s = .next t ∧ (t.kvm.ent e).st = .free ∧ s.sameBut t [.kvm] ∧ ∀ k, k ≠ e → t.kvm.ent k = s.kvm.ent k)
    ∧ ((∃ x ∈ s.kvm.readers, epochAfter x (s.kvm.ent e).epoch = false) → exec (.deferredReclaim e) s = .next s)
    ∧ (s.openTo 7 0 = true → ∃ t, exec (.reclaimNow .fw) s = .next t ∧ t.kvm = (s.kvm.ents.map (·.1)).foldl Kvm.reclaim s.kvm ∧ s.sameBut t [.kvm])

/-- TIL_CTRL.HALT takes an IDLE tile to HALTED, a cleared HALT brings a HALTED one back to IDLE, and neither touches a RUNNING one (R51). SCRUB_NOW starts a pass unless one runs (R47); a pass that finds no error ends
and changes nothing else; the end of a column's rewrite sets TIL_STS.SPARED (R48). TIL_CVT and CLU_CTRL are written on every physical unit at once (R54, R121). -/
def Obligations.TilesHaltScrubAndConvert : Prop :=
  ∀ (p v : Nat) (s : State), p < 153 →
    (s.openTo 6 p = true →
      ((s.tile p).st = .idle → ∃ t, exec (.halt .fw p true) s = .next t ∧ (t.tile p).st = .halted ∧ t.fld .TIL_CTRL_HALT p = 1 ∧ s.sameBut t [.regs, .tiles])
      ∧ ((s.tile p).st = .halted → ∃ t, exec (.halt .fw p false) s = .next t ∧ (t.tile p).st = .idle ∧ t.fld .TIL_CTRL_HALT p = 0 ∧ s.sameBut t [.regs, .tiles])
      ∧ (∀ on, (s.tile p).st = .running → ∃ t, exec (.halt .fw p on) s = .next t ∧ t.tile p = s.tile p ∧ t.fld .TIL_CTRL_HALT p = b2n on ∧ s.sameBut t [.regs])
      ∧ (∃ t, exec (.scrubNow .fw p) s = .next t ∧ (t.tile p).scrubbing = true ∧ s.sameBut t [.tiles])
      ∧ (∃ t, exec (.tilCvtWrite .fw p v) s = .next t ∧ (∀ q < 153, t.word .TIL_CVT q = BitVec.ofNat 32 (v % 4)) ∧ s.sameBut t [.regs]
          ∧ s.regsBut t ((List.range 153).map (fun q => Reg.TIL_CVT.key q 0))))
    ∧ (s.openTo 5 (p / 17) = true → ∃ t, exec (.cluCtrlWrite .fw (p / 17) v) s = .next t ∧ (∀ q < 9, t.word .CLU_CTRL q = BitVec.ofNat 32 (v % 8)) ∧ s.sameBut t [.regs]
          ∧ s.regsBut t ((List.range 9).map (fun q => Reg.CLU_CTRL.key q 0)))
    ∧ (s.up = true → s.flag .TIL_CTRL_SCRUB_EN p = true → s.tileGated p = false →
        ∃ t, exec (.scrubPass p [] []) s = .next t ∧ t.tile p = { s.tile p with scrubbing := false, colCe := [] } ∧ s.sameBut t [.tiles])
    ∧ (s.up = true → (s.tile p).rewrite.isSome = true →
        ∃ t, exec (.columnSpareRewriteDone p) s = .next t ∧ (t.tile p).rewrite = none ∧ t.stsBit .TIL_STS 6 p = true ∧ s.sameBut t (.tiles :: eventParts))

/-- A started SERVE_REQUEST completes at once. A read error of its block refuses it with DESC_ACCESS, a failed check of R224 with that check's status; every refusal counts in
SRV_PERF_REFUSE. A request that passes every check takes a free slot: it is READY (WAIT_MODEL while its model loads) with the tokens, the account and the limits its descriptor gives,
and no token generated; the record's RESULT holds the slot and its generation (R223, R224, R246). -/
def Obligations.RequestsAreAdmittedOrRefused : Prop :=
  ∀ (r n i : Nat) (s : State) (d : Desc), s.ready = true → s.workHeld = false → s.gated gServing = false → s.starting r n i 4 = some d →
    let a := s.acted r n d
    let b := parseReqBlock (s.bytes (hostBase + d.num 0x18 8) 64)
    exec (.serveRequest r n i true) s = .next (a.refuseReq r n d.uid stDescAccess)
    ∧ (a.admitCheck r d b ≠ stOk → exec (.serveRequest r n i false) s = .next (a.refuseReq r n d.uid (a.admitCheck r d b)))
    ∧ (s.recordable r n d → ∀ st, ∃ u : State, a.refuseReq r n d.uid st = u.done r n d.uid st ∧ u.recordable r n { d with acted := true })
    ∧ (a.admitCheck r d b = stOk → d.num 0x10 8 = 0 → ∀ root s1 slot, a.newSkein r (s.srv.model (d.num 8 2)).profile = (root, 0, s1) → Tab.freeKey s1.srv.reqs 65536 0 = some slot →
        ∃ (u : State) (q : SrvReq), exec (.serveRequest r n i false) s
            = .next (u.finish r n d.uid { status := stOk, result := slot + q.gen * 2 ^ 16 })
          ∧ Tab.find slot u.srv.reqs = some q ∧ q.st = (if (s.srv.model (d.num 8 2)).st = .loading then .waitModel else .ready)
          ∧ (q.realm, q.ring, q.tag, q.account, q.model, q.maxNew, q.deadline, q.out, q.root, q.prompt, q.tokens, q.tAdmit)
            = (r, n, d.tag, d.num 0x0A 2, d.num 8 2, d.num 0x24 4, d.num 0x28 8, d.num 0x30 8, root,
               unpack 32 (d.num 0x20 4) (s.bytes (hostBase + d.num 0x18 8 + 0x40) (4 * d.num 0x20 4)), [], s.gauge))

/-- SELECT starts a step of an ACTIVE realm with none running: its slots are waiting requests of one model, that of the first request in the order of R229, in that order, and no more than
SRV_STEP.MAX_SEQS; without a waiting request, and where no step may start, it changes nothing (R226-R230). -/
def Obligations.AStepTakesOneModelInOrder : Prop :=
  ∀ (r : Nat) (s : State), s.ready = true → s.workHeld = false →
    (s.stepOpen r = false ∨ s.waitingReqs r = [] → exec (.select r) s = .next s)
    ∧ (s.stepOpen r = true → ∀ h l, stableSort reqBefore (s.waitingReqs r) = h :: l →
        ∃ t slots, exec (.select r) s = .next t ∧ slots.Sublist (slotsOf (h :: l) h.2.model) ∧ slots.length ≤ s.maxSeqs
          ∧ (slots ≠ [] → (Tab.find r t.srv.steps).map (fun x => (x.model, x.slots, x.phase, x.retry)) = some (h.2.model, slots, .run, 0)))

/-- A running step's SAMPLE judges and scatters its sequences and moves it to COMMIT. A contained error retries it, while the retries of SRV_CTRL last, and sets SRV_STS.STEP_RETRY; after them the step is over
and its requests end with SRV_FAULT. Its commit point commits each sequence, lets the CANCELs that came in act, delivers, and the step is over (R225, R226, R234). -/
def Obligations.StepsRunToTheirCommitPoint : Prop :=
  ∀ (r : Nat) (st : Step) (s : State), s.ready = true → Tab.find r s.srv.steps = some st →
    (s.workHeld = false → st.phase = .run → ∀ outs, ∃ t, exec (.sample r outs) s = .next t ∧ Tab.find r t.srv.steps = some { st with phase := .commit }
      ∧ (s.commitSeqs st.slots outs).sameBut t [.srv])
    ∧ (st.phase = .run → st.retry < bits st.ctl 2 2 → ∃ t, exec (.stepRetry r) s = .next t ∧ Tab.find r t.srv.steps = some { st with retry := st.retry + 1 }
      ∧ t.stsBit .SRV_STS 2 = true ∧ s.sameBut t (.srv :: eventParts) ∧ t.srv.reqs = s.srv.reqs)
    ∧ (st.phase = .run → bits st.ctl 2 2 ≤ st.retry → ∃ t, exec (.stepRetry r) s = .next t ∧ Tab.find r t.srv.steps = none ∧ t.stsBit .SRV_STS 3 = true
      ∧ t.srv.reqs = (st.slots.foldl (fun s slot => s.endRequest slot stSrvFault 4) s).srv.reqs)
    ∧ (s.workHeld = false → st.phase = .commit → s.kvm.mayRise = true → ∀ cs, exec (.commitPoint r cs) s
      = .next (st.slots.foldl (fun s slot => s.deliver slot) (cs.foldl (fun s c => s.cancelAct r c.1 c.2) (s.commitStep r st))))

/-- An ended request whose end record is written leaves its slot once no running step names it, and the slot's generation rises by 1 modulo 2^16 (R243, R246). A waiting request whose deadline passes is LATE from
then on; one of an account with DROP_LATE ends with DEADLINE_DROP (R244). -/
def Obligations.RequestsLeaveTheirSlots : Prop :=
  ∀ (slot : Nat) (q : SrvReq) (s : State), s.ready = true → s.req slot = some q →
    (q.endWritten = true → (∀ e ∈ s.srv.steps, slot ∉ e.2.slots) →
      ∃ t, exec (.slotFree slot) s = .next t ∧ t.req slot = none ∧ Tab.find slot t.srv.gens = some ((q.gen + 1) % 2 ^ 16) ∧ s.sameBut t [.srv])
    ∧ ((∃ e ∈ s.srv.steps, slot ∈ e.2.slots) → exec (.slotFree slot) s = .next s)
    ∧ (q.deadline ≠ 0 → (q.waiting = true ∨ q.st = .waitModel) → q.late = false →
      ∃ u, u.req slot = some { q with late := true } ∧ u.gauge = max s.gauge q.deadline ∧ s.sameBut u [.gauge, .srv]
        ∧ exec (.deadlinePass slot) s = .next (if s.flag .SRV_ACC_CFG_DROP_LATE 0 q.account then u.endRequest slot stDeadlineDrop 3 else u))

/-- At every 65,536th gt the LEVEL of each account with a RATE rises by RATE, to at most 256 times BURST, and no other account's LEVEL changes; ACC_REFILL sets the selected account's LEVEL to 256 times BURST (R235). -/
def Obligations.AccountLevelsRefill : Prop :=
  ∀ s : State,
    (s.ready = true → ∃ t, exec .accountLevelRefill s = .next t ∧ t.gauge = max s.gauge (65536 * (s.srv.refills + 1)) ∧ t.srv.refills = s.srv.refills + 1
      ∧ s.sameBut t [.gauge, .srv] ∧ ∀ a : Nat, t.level a =
        if a < 1024 ∧ s.fld .SRV_ACC_RATE_RATE 0 a ≠ 0 then
          max (min (s.level a) (256 * s.fld .SRV_ACC_CFG_BURST 0 a : Nat)) (min (256 * s.fld .SRV_ACC_CFG_BURST 0 a : Nat) (s.level a + (s.fld .SRV_ACC_RATE_RATE 0 a : Nat)))
        else s.level a)
    ∧ (s.openTo 8 0 = true → ∃ t, exec (.accRefill .fw) s = .next t ∧ s.sameBut t [.srv]
      ∧ ∀ a, t.level a = if a = s.fld .SRV_ACC_SEL_ACC then ((256 * s.fld .SRV_ACC_CFG_BURST 0 a : Nat) : Int) else s.level a)

/-- PREFIX_REGISTER of a handle that its realm holds completes with PREFIX_EXISTS; by root it applies at once to a skein of its realm; by request it waits behind the requests' tokens, or completes with NOT_FOUND when no live
request of the realm bears the tag. PREFIX_RELEASE drops the handle's hold and completes, or completes with NOT_FOUND (R162, R165, R250, R251). -/
def Obligations.PrefixHandlesAreHeldAndReleased : Prop :=
  ∀ (r n i : Nat) (s : State) (d : Desc), s.ready = true →
    let a := s.acted r n d
    (s.starting r n i 6 = some d →
      ((s.kvm.prefixOf r (d.num 8 8)).isSome = true → exec (.prefixRegister r n i) s = .next (a.done r n d.uid stPrefixExists))
      ∧ (s.kvm.prefixOf r (d.num 8 8) = none → d.byte 0x14 = 1 →
          (∀ k, s.kvm.skein (d.num 0x18 4) = some k → k.realm = r → ∃ m,
            exec (.prefixRegister r n i) s = .next (a.registerPrefix r n d.uid (d.num 0x18 4) (d.num 0x10 4) (d.num 8 8) m)
              ∧ ∀ p ∈ s.srv.reqs, p.2.root = d.num 0x18 4 → p.2.live = true → (∀ q ∈ s.srv.reqs, q.2.root = d.num 0x18 4 → q.2.live = true → q = p) → m = p.2.model)
          ∧ ((∀ k, s.kvm.skein (d.num 0x18 4) = some k → k.realm ≠ r) → exec (.prefixRegister r n i) s = .next (a.done r n d.uid stNotFound)))
      ∧ (s.kvm.prefixOf r (d.num 8 8) = none → d.byte 0x14 ≠ 1 →
          let named := oldest (s.srv.reqs.filter (fun e => e.2.realm == r && e.2.live && e.2.ring == d.byte 0x15 && e.2.tag == d.num 0x18 4))
          (named = none → exec (.prefixRegister r n i) s = .next (a.done r n d.uid stNotFound))
          ∧ ∀ e, named = some e → exec (.prefixRegister r n i) s = .next
              ((a.onSrv (fun v => { v with waits := v.waits ++ [⟨r, n, d.uid, e.1, d.num 0x10 4, d.num 8 8⟩] })).applyWaits e.1)))
    ∧ (s.starting r n i 7 = some d →
      (s.kvm.prefixOf r (d.num 8 8) = none → exec (.prefixRelease r n i) s = .next (a.done r n d.uid stNotFound))
      ∧ ∀ p, s.kvm.prefixOf r (d.num 8 8) = some p → ∃ t, exec (.prefixRelease r n i) s = .next t ∧ Tab.find p.1 t.kvm.prefixes = none
          ∧ t.kvm = (s.prefixDrop p.1 p.2).kvm ∧ Tab.find p.1 t.srv.prefixModel = none ∧ (s.recordable r n d → s.completed t r n d stOk))

/-- MODEL_LOAD of an ABSENT model with room in its realm's area enters LOADING with the profile the description gives, and no record is written yet; of another model it completes with MODEL_BUSY, without room with
MODEL_NO_SPACE and SRV_STS.MODEL_FAIL. The end of a load whose package opens under its key makes the model RESIDENT with the package's digest; one that does not ends with MODEL_SEAL. MODEL_EVICT in
MODE 0 makes a RESIDENT model EVICTING, in MODE 1 ABSENT at once unless requests live, and the end of the eviction frees it (R256-R258, R338, R401). -/
def Obligations.ModelsLoadAndEvict : Prop :=
  ∀ (r n i : Nat) (s : State) (d : Desc), r < 4 → s.ready = true →
    let a := s.acted r n d
    let m := d.num 8 2
    (s.workHeld = false → s.gated gServing = false → s.starting r n i 8 = some d → ∀ prof geom policy keep draft,
      ((s.srv.model m).st ≠ .absent → exec (.modelLoad r n i prof geom policy keep draft) s = .next (a.done r n d.uid stModelBusy))
      ∧ ((s.srv.model m).st = .absent → ∀ size, size = ceilDiv (s.num (pkgBase (d.byte 0x0A) + d.num 0x10 8 + 8) 8) 4096 →
          (s.modelPlace r size = none → exec (.modelLoad r n i prof geom policy keep draft) s = .next ((a.srvSts 6).done r n d.uid stModelNoSpace))
          ∧ ∀ p, s.modelPlace r size = some p → ∃ t, exec (.modelLoad r n i prof geom policy keep draft) s = .next t ∧ a.sameBut t (.srv :: eventParts)
            ∧ t.srv.model m = { st := .loading, realm := r, profile := prof % 64, base := s.fld .SRV_RLM_MDL_BASE_BASE 0 r + p, size := size, draft := draft,
                                desc := some (r, n, d.uid), source := d.byte 0x0A, package := d.num 0x10 8, bytes := d.num 0x18 8, pkgKey := d.num 0x0C 2 }))
    ∧ (s.starting r n i 9 = some d →
        let x := s.srv.model m
        ((x.st = .absent ∨ x.realm ≠ r) → exec (.modelEvict r n i) s = .next (a.done r n d.uid stModelAbsent))
        ∧ (x.realm = r → x.st = .evicting ∨ (x.st ≠ .absent ∧ d.byte 0x0A = 1 ∧ s.modelLive m ≠ 0) → exec (.modelEvict r n i) s = .next (a.done r n d.uid stModelBusy))
        ∧ (x.realm = r → x.st = .resident → d.byte 0x0A ≠ 1 → ∃ t, exec (.modelEvict r n i) s = .next t ∧ t.srv.model m = { x with st := .evicting, desc := some (r, n, d.uid) }
            ∧ a.sameBut t (.srv :: eventParts))
        ∧ (x.realm = r → x.st = .resident → d.byte 0x0A = 1 → s.modelLive m = 0 → ∃ t, exec (.modelEvict r n i) s = .next t ∧ (t.srv.model m).st = .absent))
    ∧ (∀ k x, s.srv.model k = x → x.st = .evicting → s.modelLive k = 0 → ∃ t, exec (.modelEvictDone k) s = .next t ∧ (t.srv.model k).st = .absent)
    ∧ (∀ k x, s.srv.model k = x → s.workHeld = false → x.st = .loading →
        (∀ y p, s.keySlot x.realm x.pkgKey = some y → openPackage y.key (s.bytes (pkgBase x.source + x.package) x.bytes) 0 = some p →
          ∃ t, exec (.modelLoadDone k) s = .next t ∧ (t.srv.model k) = { x with st := .resident, digest := chunkDigest p, desc := none })
        ∧ (∀ y, s.keySlot x.realm x.pkgKey = some y → openPackage y.key (s.bytes (pkgBase x.source + x.package) x.bytes) 0 = none →
          exec (.modelLoadDone k) s = .next (((s.loadFail k stModelSeal).emit 0 0x70 0x0004 x.realm (x.pkgKey + stModelSeal * 2 ^ 8)).srvSts 6))
        ∧ (s.keySlot x.realm x.pkgKey = none → x.pkgKey ≠ noKey → exec (.modelLoadDone k) s = .next (s.loadFail k stKeySlot)))

/-- GEN_RUN of a set that is not busy samples the set's five input registers and makes it busy; of a busy set it does nothing. When the set is done DET_GEN_OUT holds the generator's value for the inputs
sampled, whatever the inputs hold by then (R333, R335, R355). -/
def Obligations.GeneratorSetsRun : Prop :=
  ∀ (r : Nat) (s : State),
    (s.pageUp 11 = true → s.windowOpen r = true → ∃ t, exec (.genRun (.realm r)) s = .next t ∧ t.genOf r = (if (s.genOf r).busy then s.genOf r else
        { busy := true, seed := (s.word .DET_GEN_SEED_LO 0 r).toNat + (s.word .DET_GEN_SEED_HI 0 r).toNat * 2 ^ 32, stream := s.fld .DET_GEN_STREAM_STREAM 0 r,
          pos := (s.word .DET_GEN_POS_LO 0 r).toNat + (s.word .DET_GEN_POS_HI 0 r).toNat * 2 ^ 32 })
      ∧ s.sameBut t [.det] ∧ ∀ q, q ≠ r → t.genOf q = s.genOf q)
    ∧ (s.openTo 11 0 = true → exec (.genRun .fw) s = .next (s.genRun (s.fld .DET_RLM_SEL_REALM)))
    ∧ (s.up = true → (s.genOf r).busy = true → ∃ t, exec (.genDone r) s = .next t ∧ (t.genOf r).busy = false
      ∧ t.word .DET_GEN_OUT 0 r = BitVec.ofNat 32 (gen (s.genOf r).seed (s.genOf r).stream (s.genOf r).pos)
      ∧ s.sameBut t [.det, .regs] ∧ s.regsBut t [Reg.DET_GEN_OUT.key 0 r])
    ∧ ((s.genOf r).busy = false → exec (.genDone r) s = .next s)

/-- DIGEST_DONE of a finished JOB without SIGN completes it with its outcome, its record holding the result digest; a JOB with SIGN enters the signature queue instead; a read error sets DET_STS.DIGEST_FAIL and the JOB
completes with DIGEST_TABLE. SIGNATURE_DONE of the oldest signature writes the 64 bytes to SIG_ADDR and then the record, or sets DET_STS.SIGN_FAIL (R338-R342). -/
def Obligations.DigestsAndSignaturesAreFormed : Prop :=
  ∀ (r n i : Nat) (s : State) (d : Desc) (j : Job), s.ready = true → r < 4 → n < 64 → s.jobAt r n i = some (d, j) → j.realm = r → j.ring = n → s.recordable r n d →
    (j.finished = true → j.digest = none →
      (∃ t, exec (.digestDone r n i true) s = .next t ∧ s.completed t r n d stDigestTable ∧ t.stsBit .DET_STS 0 = true ∧ t.job d.uid = none)
      ∧ ∀ j', j' = { j with digest := some (j.resultDigest d (s.classDigest (s.digestTable (d.num 0x10 8)) 3)) } →
        (bit d.flags 2 = false → ∃ u, s.completed u r n d j'.outcome.1 ∧ exec (.digestDone r n i false) s = .next
          (match j'.digest with
            | some h => if j'.outcome.1 = stOk then u.swatchUnit j.realm ⟨0, j.ring, d.tag, h⟩ else u
            | none => u))
        ∧ (bit d.flags 2 = true → ∃ t, exec (.digestDone r n i false) s = .next t ∧ t.job d.uid = some j' ∧ t.det.signs = s.det.signs ++ [(r, n, d.uid)]
            ∧ t.ring r n = s.ring r n ∧ (signQueue ≤ s.det.signs.length → t.stsBit .DET_STS 6 = true)))
    ∧ (∀ h, j.digest = some h → s.det.signs.head? = some (r, n, d.uid) → ∀ fail, ∃ u, s.completed u r n d j.outcome.1
        ∧ (fail = true → u.stsBit .DET_STS 1 = true) ∧ exec (.signatureDone r n i fail) s = .next (if j.outcome.1 = stOk then u.swatchUnit j.realm ⟨0, j.ring, d.tag, h⟩ else u))

/-- SNAPSHOT acts when it is fetched: on an outstanding JOB that can still be taken it holds the target, which starts no further operator, and waits; otherwise it completes with the failed check's status, with
NOT_FOUND or with SNAP_MISSED. At the target's boundary one whose image exceeds LIMIT completes with SNAP_LIMIT and lets its target go on; else the image goes out, NEXT_OP its first operator that has not run. Once
the image stands in host memory the SNAPSHOT completes with OK and DET_STS.SNAP is set (R343-R345). -/
def Obligations.SnapshotsImageTheirTarget : Prop :=
  ∀ (r n i : Nat) (s : State) (d : Desc), s.ready = true →
    (s.desc r n i = some d → d.ty = 0x0D → d.acted = false → s.active r = true →
      let a := s.acted r n d
      (a.descCheck r n d ≠ stOk → exec (.snapshot r n i) s = .next (a.done r n d.uid (a.descCheck r n d)))
      ∧ (a.descCheck r n d = stOk → a.snapTarget r d = none → exec (.snapshot r n i) s = .next (a.done r n d.uid stNotFound))
      ∧ (a.descCheck r n d = stOk → ∀ t j, a.snapTarget r d = some t → t.result = none → (∀ x ∈ s.det.snaps, x.target ≠ t.uid) → s.job t.uid = some j →
          (j.finished = false → j.ending = none → ∃ u, exec (.snapshot r n i) s = .next u ∧ u.job t.uid = some { j with held := true }
            ∧ u.det.snaps = s.det.snaps ++ [{ realm := r, ring := n, uid := d.uid, targetRing := d.byte 0x18, target := t.uid }]
            ∧ s.sameBut u [.rings, .jobs, .det] ∧ u.ring r n = a.ring r n)
          ∧ ((j.finished = true ∨ j.ending.isSome = true) → exec (.snapshot r n i) s = .next (a.done r n d.uid stSnapMissed))))
    ∧ (∀ x t j, s.snapAt r n i = some (d, x) → s.descUid r x.targetRing x.target = some t → s.job x.target = some j → t.result = none → j.finished = false → j.ending = none →
        ((∃ k < j.nOps, (j.op k).st = .running) → exec (.snapshotBoundary r n i) s = .next s)
        ∧ ((∀ k < j.nOps, (j.op k).st ≠ .running) → j.nextOp ≠ j.nOps →
            let need := 4096 + ((s.sectionsOf r (t.byte 0x1C)).map Section.size).sum
            (d.num 0x10 8 < need → ∃ u : State, exec (.snapshotBoundary r n i) s = .next (u.done r n d.uid stSnapLimit) ∧ u.job x.target = some { j with held := false }
              ∧ ∀ y ∈ u.det.snaps, y.uid ≠ d.uid)
            ∧ (need ≤ d.num 0x10 8 → t.num 0x1E 2 = noKey ∨ s.keyOk r 0 (t.num 0x1E 2) = true → ∃ u, exec (.snapshotBoundary r n i) s = .next u
              ∧ (∀ y ∈ u.det.snaps, y.uid = d.uid → y.next = j.nextOp ∧ y.image.isSome = true) ∧ s.sameBut u [.mem, .det, .free])))
    ∧ (∀ x img, s.desc r n i = some d → s.det.snaps.find? (fun y => y.uid == d.uid) = some x → x.image = some img →
        ∃ u : State, exec (.snapshotImageWritten r n i) s
            = .next (u.finish r n d.uid { status := stOk, result := img.length, digest := if bit d.flags 1 then some (sha256 img) else none, modeWord := u.modeNow })
          ∧ u.stsBit .DET_STS 2 = true ∧ (∀ y ∈ u.det.snaps, y.uid ≠ d.uid))

/-- A started RESTORE whose image fails a check of R346 completes with that check's status; while its target ring has no free completion slot it waits. One that passes loads the image and completes, DET_STS.RESTORE is set,
and then its JOB runs from NEXT_OP on the target ring or completes with the check of a JOB that fails. -/
def Obligations.RestoresLoadTheirImage : Prop :=
  ∀ (r n i : Nat) (s : State) (d : Desc), s.ready = true → s.starting r n i 0x0E = some d →
    let a := s.acted r n d
    let h := s.bytes (hostBase + d.num 8 8) 4096
    let c := s.restoreCheck r d
    (c.1 ≠ stOk → exec (.restore r n i) s = .next (a.done r n d.uid c.1))
    ∧ (c.1 = stOk → s.cqFree r (d.byte 0x18) = 0 → exec (.restore r n i) s = .next s)
    ∧ (c.1 = stOk → s.cqFree r (d.byte 0x18) ≠ 0 →
        let l := a.restoreLoad r n d h c.2
        let t := s.restoredDesc d h
        exec (.restore r n i) s = .next (l.restoreRun r (d.byte 0x18) t h)
        ∧ l.stsBit .DET_STS 3 = true ∧ l.nextUid = s.nextUid + 1 ∧ s.sameBut l [.mem, .regs, .sqc, .evSeq, .queues, .rings, .evRings, .nextUid]
        ∧ (t.raw.getD 0 0, (t.raw.drop 4).take 4, t.started, t.extra) = (1, (h.drop 4).take 4, some s.gauge, true)
        ∧ ((l.jobCheck r t).1 ≠ stOk → exec (.restore r n i) s = .next (l.done r (d.byte 0x18) t.uid (l.jobCheck r t).1)))

/-- SWATCH_BEGIN completes with SWATCH_BUSY while another swatch runs, else it begins the handshake with its peer and waits. SWATCH_END that matches no swatch completes with NOT_FOUND, of one that is over with the
verdict. SWATCH_ABORT of firmware ends a handshake with SWATCH_PEER and a running swatch as SWATCH_END does (R349, R353). -/
def Obligations.SwatchesBeginAndEnd : Prop :=
  ∀ (r n i : Nat) (s : State), s.ready = true →
    (∀ d, s.starting r n i 0x0F = some d →
      let a := s.acted r n d
      (∀ w, s.det.swatch = some w → w.phase ≠ .ended → exec (.swatchBegin r n i) s = .next (a.done r n d.uid stSwatchBusy))
      ∧ ((∀ w, s.det.swatch = some w → w.phase = .ended) → ∃ t w, exec (.swatchBegin r n i) s = .next t ∧ t.det.swatch = some w
          ∧ (w.phase, w.realm, w.id, w.peer, w.role, w.steps, w.desc, w.verdict, w.table, w.queue) = (.handshake, r, d.num 0x0C 4, d.byte 8, d.byte 9, d.num 0x10 4, some (n, d.uid), vRunning, [], [])
          ∧ (w.wait, w.age) = (s.swWait, s.swAge) ∧ t.fld .DET_STATE_SWATCH = 1 ∧ t.word .DET_SWATCH_CNT = 0 ∧ t.word .DET_SWATCH_ERR = 0
          ∧ a.sameBut t [.regs, .det, .stave, .sqc, .mem, .evSeq, .queues, .evRings]))
    ∧ (∀ d, s.starting r n i 0x10 = some d →
      let a := s.acted r n d
      ((∀ w, s.det.swatch = some w → w.id ≠ d.num 0x0C 4 ∨ w.realm ≠ r ∨ w.phase = .handshake) → exec (.swatchEnd r n i) s = .next (a.done r n d.uid stNotFound))
      ∧ (∀ w, s.det.swatch = some w → w.id = d.num 0x0C 4 → w.realm = r → w.desc = none →
          (w.phase = .ended → exec (.swatchEnd r n i) s = .next (a.swatchFinish { w with desc := some (n, d.uid) } w.verdict))
          ∧ (w.phase = .running → exec (.swatchEnd r n i) s = .next (a.swatchEnd { w with desc := some (n, d.uid) }))))
    ∧ (s.openTo 11 0 = true →
      (∀ w, s.det.swatch = some w → w.phase = .running → exec (.swatchAbort .fw) s = .next (s.swatchEnd w))
      ∧ (∀ w m u, s.det.swatch = some w → w.phase = .handshake → w.desc = some (m, u) →
          exec (.swatchAbort .fw) s = .next (((s.setSwatch none).swatchShow).done w.realm m u stSwatchPeer))
      ∧ ((∀ w, s.det.swatch = some w → w.phase = .ended) → exec (.swatchAbort .fw) s = .next s))

/-- A unit that comes to a running shadow is matched: with its partner in the table and the same digest it counts in DET_SWATCH_CNT, with another digest the verdict is MISMATCH and DET_STS.SWATCH_FAIL is set, without a partner it
waits in the table. The oldest unit that stands alone for AGE leaves the table unmatched. A peer silent for WAIT ends a handshake with SWATCH_PEER, and gives a shadow without a verdict the verdict PEER (R349-R353). -/
def Obligations.SwatchesMatchUnits : Prop :=
  ∀ (s : State) (w : Swatch), s.ready = true → s.det.swatch = some w →
    (∀ m rx, s.takeMsg 2 = some (m, rx) → w.phase = .running → w.role = 0 → w.verdict = vRunning → w.peer = m.src → w.id = fieldOf m.payload 4 4 → fieldOf m.payload 0 1 = 1 →
      let u : SwUnit := ⟨fieldOf m.payload 1 1, fieldOf m.payload 2 1, fieldOf m.payload 8 4, (m.payload.drop 12).take 32⟩
      let partner := w.table.find? (fun e => e.peer != true && sameKey e.item u)
      (∀ e, partner = some e → e.item.digest ≠ u.digest → ∃ t v, exec .swatch s = .next t ∧ t.det.swatch = some v ∧ v.verdict = vMismatch ∧ v.table = w.table.erase e
          ∧ t.stsBit .DET_STS 5 = true)
      ∧ (partner = none → w.table.length < 1024 → ∃ t v, exec .swatch s = .next t ∧ t.det.swatch = some v ∧ v.verdict = vRunning ∧ v.table = w.table ++ [⟨u, true, s.gauge⟩]
          ∧ s.sameBut t [.det, .stave])
      ∧ (∀ e, partner = some e → e.item.digest = u.digest → ∃ t v, exec .swatch s = .next t ∧ t.det.swatch = some v ∧ v.table = w.table.erase e
          ∧ t.word .DET_SWATCH_CNT = s.word .DET_SWATCH_CNT + 1))
    ∧ (∀ e l, w.table = e :: l → w.phase = .running → w.verdict = vRunning → ∃ t, exec .swatchUnitAge s = .next t ∧ t.det.swatch = some { w with table := l }
      ∧ t.gauge = max s.gauge (e.since + w.age) ∧ t.fld .DET_SWATCH_ERR_UNMATCHED = satAt 0xFFFF (s.fld .DET_SWATCH_ERR_UNMATCHED + 1) % 2 ^ 16
      ∧ s.sameBut t [.gauge, .det, .regs])
    ∧ (w.phase = .ended → exec .swatchPeerSilence s = .next s)
    ∧ (w.phase = .running → w.role = 0 → w.verdict = vRunning → ∃ t v, exec .swatchPeerSilence s = .next t ∧ t.det.swatch = some v ∧ v.verdict = vPeer ∧ t.stsBit .DET_STS 5 = true)
    ∧ (∀ n u, w.phase = .handshake → w.desc = some (n, u) → exec .swatchPeerSilence s
        = .next (((({ s with gauge := max s.gauge (w.lastMsg + w.wait) } : State).setSwatch none).swatchShow).done w.realm n u stSwatchPeer))

/-- REPAIR takes a half from OFF or FAILED to SCRUB, in an enabled lane alone; RETIRE takes one that is not ACTIVE to OFF and its claim to 0. A scrubbed half's tile stores and partition hold zeros and it enters SELFTEST; a
passed self-test leads to LOAD, a failed one to FAILED. A half that has loaded waits for a copy beside a running half; with no other half running it arms, marked START, with the package's initial state, and claims LAST + 1. No
change of one half changes the other's state (R283, R287, R289). -/
def Obligations.HalvesComeInAndGo : Prop :=
  ∀ (h : Nat) (s : State), h ≤ 1 →
    (s.openTo 9 0 = true →
      (s.flag .CTL_CTRL_LANE_EN = true → s.halfSt h = halfOff ∨ s.halfSt h = halfFailed → exec (.repair .fw h) s = .next (s.bringIn h false)
        ∧ ((s.half h).nextPlace = none → ∃ t, exec (.repair .fw h) s = .next t ∧ t.halfSt h = halfScrub ∧ t.halfSt (otherHalf h) = s.halfSt (otherHalf h) ∧ t.half h = {}
          ∧ s.sameBut t (.lane :: reportParts)))
      ∧ ((s.flag .CTL_CTRL_LANE_EN = false ∨ (s.halfSt h ≠ halfOff ∧ s.halfSt h ≠ halfFailed)) → exec (.repair .fw h) s = .next s)
      ∧ (s.halfSt h = halfActive → exec (.laneRetire .fw h) s = .next s)
      ∧ (s.halfSt h ≠ halfActive → ∃ t, exec (.laneRetire .fw h) s = .next t ∧ t.halfSt h = halfOff ∧ t.halfSt (otherHalf h) = s.halfSt (otherHalf h)
          ∧ t.fld (claimFld h) = 0 ∧ (t.half h).accepted = 0 ∧ (t.half h).copy = none ∧ s.sameBut t (.lane :: reportParts)))
    ∧ (s.up = true →
      (s.halfSt h = halfScrub →
        (∃ t, exec (.halfScrubDone h) s = .next t ∧ t.halfSt h = halfSelftest ∧ t.halfSt (otherHalf h) = s.halfSt (otherHalf h)
          ∧ ∀ p ∈ s.halfTiles h, ∀ b, b < 2 ^ 21 → t.mem.cells.read (tileBase p + b) = 0)
        ∧ ∀ pass, exec (.halfSelftestDone h pass) s = .next s)
      ∧ (s.halfSt h = halfSelftest → exec (.halfScrubDone h) s = .next s ∧ ∀ pass, ∃ t, exec (.halfSelftestDone h pass) s = .next t
          ∧ t.halfSt h = (if pass then halfLoad else halfFailed) ∧ t.halfSt (otherHalf h) = s.halfSt (otherHalf h) ∧ s.sameBut t (.lane :: reportParts))
      ∧ (s.halfSt h = halfLoad → (s.half h).loaded = false →
          (s.halfIn halfActive ≠ none ∨ s.halfIn halfStandby ≠ none ∨ (s.half (otherHalf h)).arming ≠ .none →
            exec (.halfLoadDone h) s = .next (s.setHalf h { s.half h with loaded := true }))
          ∧ (s.halfIn halfActive = none → s.halfIn halfStandby = none → (s.half (otherHalf h)).arming = .none →
              (s.flag .CTL_STATE_LOST = true → exec (.halfLoadDone h) s = .next ((s.setHalf h { s.half h with loaded := true }).restartHalf h))
              ∧ (s.flag .CTL_STATE_LOST = false → ∀ p, s.halfPkg h = some p → exec (.halfLoadDone h) s
                  = .next ((s.setHalf h { s.half h with loaded := true, arming := .start, copy := some { period := 0, bytes := p.init } }).announce h s.nextClaim)))))

/-- INSTALL ends with CTL_STATE.INSTALL 3, INSTALL_ERR and CTL_STS.INSTALL_DONE set: 5 while an update or an armed swap stands, 1 without a resident lane package of the owner, 2 outside the limits of R271, 3 for a bad TSN part, 4 in an enabled
lane without a STANDBY half. A package that passes in a disabled lane is installed at once, INSTALL 2; in an enabled one the update begins with the STANDBY half (R271, R292). A write of CTL_GRID_HI sets the grid and ends the running
period, and is dropped while LANE_EN is 1 (R270, R295). -/
def Obligations.LanePackagesInstall : Prop :=
  ∀ (s : State) (pkg : Option LanePkg), s.openTo 9 0 = true →
    let m := s.srv.model (s.fld .CTL_CTRL_LANE_MODEL)
    let busy := s.lane.seq.isSome = true ∨ s.lane.swap.isSome = true
    let ours := m.st = .resident ∧ m.realm = s.laneOwner
    let refused := fun (e : Nat) => ∃ t, exec (.install .fw pkg) s = .next t ∧ t.fld .CTL_STATE_INSTALL = 3 ∧ t.fld .CTL_STATE_INSTALL_ERR = e ∧ t.stsBit .CTL_STS 11 = true
      ∧ s.sameBut t eventParts
    (busy → refused 5)
    ∧ (¬ busy → pkg = none ∨ ¬ ours → refused 1)
    ∧ (¬ busy → ours → ∀ p, pkg = some p →
        (pkgInLimits p = false → refused 2)
        ∧ (pkgInLimits p = true → p.tsnOk = false → refused 3)
        ∧ (pkgInLimits p = true → p.tsnOk = true → s.flag .CTL_CTRL_LANE_EN = true → s.halfIn halfStandby = none → refused 4)
        ∧ (pkgInLimits p = true → p.tsnOk = true → s.flag .CTL_CTRL_LANE_EN = true → s.halfIn halfStandby ≠ none →
            exec (.install .fw pkg) s = .next (((s.setFld .CTL_STATE_INSTALL 1).setFld .CTL_STATE_INSTALL_ERR 0).startSeq (some p) 0))
        ∧ (pkgInLimits p = true → p.tsnOk = true → s.flag .CTL_CTRL_LANE_EN = false → ∃ t, exec (.install .fw pkg) s = .next t ∧ t.lane.pkg = some p ∧ t.lane.period = none
            ∧ t.fld .CTL_STATE_INSTALL = 2 ∧ t.fld .CTL_STATE_INSTALL_ERR = 0 ∧ t.fld .CTL_LAT_LAT_GT = pkgLatency p % 2 ^ Fld.width .CTL_LAT_LAT_GT ∧ t.stsBit .CTL_STS 11 = true
            ∧ s.sameBut t (.lane :: eventParts)))
    ∧ (∀ v, (s.flag .CTL_CTRL_LANE_EN = true → exec (.gridWrite .fw v) s = .next s)
        ∧ (s.flag .CTL_CTRL_LANE_EN = false → ∃ t, exec (.gridWrite .fw v) s = .next t ∧ t.lane = { s.lane with grid := (s.word .CTL_GRID_LO).toNat + v % 2 ^ 32 * 2 ^ 32, period := none }
            ∧ t.word .CTL_GRID_HI = BitVec.ofNat 32 v ∧ s.sameBut t [.lane, .regs] ∧ s.regsBut t [Reg.CTL_GRID_HI.key 0 0]))

/-- SWAP_ARM holds the count of CTL_SWAP when a half is STANDBY; SWAP_CANCEL disarms. ACK_LOST, by firmware or by the owning realm, clears LOST and ends STALE. CNT_CLR zeroes the lane's counters and the queues' GAPS; Q_FLUSH empties the
selected queue. A write of CTL_CTRL that leaves LANE_EN changes that register alone, one that clears it takes both halves to OFF, one that sets it takes the lane's tiles and brings both halves in (R217, R265, R283, R289, R291, R295). -/
def Obligations.LaneSwitchesAndFlags : Prop :=
  ∀ s : State, s.openTo 9 0 = true →
    (s.halfIn halfStandby = none → exec (.swapArm .fw) s = .next s)
    ∧ (s.halfIn halfStandby ≠ none → ∃ t, exec (.swapArm .fw) s = .next t ∧ t.lane = { s.lane with swap := some ((s.word .CTL_SWAP_LO).toNat + (s.word .CTL_SWAP_HI).toNat * 2 ^ 32) } ∧ s.sameBut t [.lane])
    ∧ (∃ t, exec (.swapCancel .fw) s = .next t ∧ t.lane = { s.lane with swap := none } ∧ s.sameBut t [.lane])
    ∧ (∀ w, w = .fw ∨ (w = .realm s.laneOwner ∧ s.windowOpen s.laneOwner = true) → ∃ t, exec (.ackLost w) s = .next t ∧ t.fld .CTL_STATE_LOST = 0 ∧ t.lane.stale = false ∧ s.sameBut t (.lane :: reportParts))
    ∧ (∀ r, r ≠ s.laneOwner → exec (.ackLost (.realm r)) s = .next s)
    ∧ (∃ t, exec (.ctlCntClr .fw) s = .next t ∧ (∀ g ∈ [Reg.CTL_PERF_HOLD, .CTL_PERF_REJECT, .CTL_PERF_MAXLAT], t.word g = 0) ∧ (∀ q < 16, t.fld .CTL_Q_STS_GAPS 0 q = 0) ∧ s.sameBut t [.regs])
    ∧ (∃ t, exec (.qFlush .fw) s = .next t ∧ t.queue (s.fld .CTL_Q_SEL_QUEUE) = (s.queue (s.fld .CTL_Q_SEL_QUEUE)).flush.enterGap (s.fld .CTL_Q_SEL_QUEUE) ∧ s.sameBut t [.queues])
    ∧ (∀ v, let u := s.setWord .CTL_CTRL 0 0 (BitVec.ofNat 32 v &&& 0x00FF031F)
        (bit v 0 = s.flag .CTL_CTRL_LANE_EN → exec (.laneEnWrite .fw v) s = .next u)
        ∧ (bit v 0 = true → s.flag .CTL_CTRL_LANE_EN = false → exec (.laneEnWrite .fw v) s
            = .next (((u.laneHold.bringIn 0 false).bringIn 1 false).onLane (fun l => { l with period := none, paired := false })))
        ∧ (bit v 0 = false → s.flag .CTL_CTRL_LANE_EN = true → ∃ t, exec (.laneEnWrite .fw v) s = .next t ∧ t.halfSt 0 = halfOff ∧ t.halfSt 1 = halfOff ∧ t.laneTiles = [] ∧ t.laneParts = []))

/-- PERIOD_START moves to the next period of the grid, no output live yet; then armed halves become ACTIVE and a planned swap takes place. PERIOD_LAUNCH closes the input slots at the cut-off, or at once when every EXPECT axis
holds a frame. EVALUATION_DONE of a period answered in time hands its outputs to egress and makes its state the half's copy; a check that failed, or an answer after H_k, ends the half's hold by SELF_FAIL. HOLD_FRAMES ends the period
once, after SELF_FAIL of an active half that has not answered. A checkpoint is written where its slot lies, or CTL_STS.CKPT_BAD is set (R270, R274-R276, R282, R284, R288). -/
def Obligations.PeriodsAreAnsweredAndHeld : Prop :=
  ∀ (s : State) (p : LanePkg), s.up = true → s.lane.pkg = some p →
    (∀ at_ k start, k = (match s.lane.period with | some k => k + 1 | none => ceilDiv (s.gauge - s.lane.grid) (pkgLength p)) →
        start = (if s.flag .CTL_CTRL_TIMEBASE then max s.gauge at_ else s.lane.grid + k * pkgLength p) →
      ∃ u, exec (.periodStart at_) s = .next (([0, 1].foldl (fun s h => if (s.half h).arming = .none then s else s.activate h) u).plannedSwap start)
        ∧ u.gauge = max s.gauge start ∧ u.lane.period = some k ∧ u.lane.start = start ∧ u.lane.launchAt = none ∧ u.lane.answered = false ∧ u.lane.heldOut = false
        ∧ (∀ e ∈ u.lane.outs, e.2.live = false) ∧ s.sameBut u [.gauge, .lane, .regs] ∧ s.regsBut u [Reg.CTL_PERIOD_CNT.key 0 0])
    ∧ (∀ k, s.lane.period = some k →
      (s.lane.launchAt = none → ∃ t, exec .periodLaunch s = .next t ∧ t.lane.launchAt = some t.gauge ∧ t.lane.gaps = [] ∧ s.sameBut t [.gauge, .lane]
        ∧ t.gauge = (if (p.axes.filter LaneAxis.expect).all (fun a => (s.axisIn a.axis).got == 1) = true ∧ p.axes.any LaneAxis.expect = true then s.gauge else max s.gauge (s.lane.start + p.cut)))
      ∧ (s.lane.launchAt ≠ none → exec .periodLaunch s = .next s)
      ∧ (∀ h outs bytes check lat, s.halfIn halfActive = some h → s.lane.launchAt ≠ none → s.lane.answered = false →
          (∀ c, (if s.holdAt p < s.gauge then check.or (some 3) else check) = some c → exec (.evaluationDone outs bytes check lat) s = .next (s.selfFail h c))
          ∧ ((if s.holdAt p < s.gauge then check.or (some 3) else check) = none → ∃ t, exec (.evaluationDone outs bytes check lat) s = .next t ∧ t.lane.answered = true
              ∧ t.lane.sent = some { period := k, bytes := bytes.take 65280, outs := outs } ∧ (t.half h).copy = some { period := k, bytes := bytes.take 65280, outs := outs } ∧ (t.half h).mark = .none
              ∧ s.sameBut t [.lane, .regs, .out]))
      ∧ (s.lane.heldOut = true → exec .holdFrames s = .next s)
      ∧ (s.lane.heldOut = false → ∃ t, exec .holdFrames s = .next t ∧ t.lane.heldOut = true))
    ∧ (∀ c claim, s.lane.ckpt = some (c, claim) →
      (s.lane.period.getD 0 ≤ c.period + 64 → exec (.checkpointWrite true) s
          = .next (((s.onLane (fun l => { l with ckpt := none })).store (s.ckptAddr s.ckptOlder) (ckptBytes c claim (s.srv.model (s.fld .CTL_CTRL_LANE_MODEL)).digest)).setFld .CTL_CKPT_STS_PERIOD c.period))
      ∧ ∃ t, exec (.checkpointWrite false) s = .next t ∧ t.stsBit .CTL_STS 10 = true ∧ t.lane.ckpt = none)
    ∧ (s.lane.ckpt = none → ∀ ok, exec (.checkpointWrite ok) s = .next s)

/-- A half's claim of 0 gives up its hold; the egress unit accepts a claim higher than LAST and LAST follows, and ignores any other, setting CTL_STS.CLAIM_BAD; an ACTIVE half that a higher claim overtakes fails. A STANDBY half commits a good
copy; a second bad copy in a row fails it. A half that shadowed a period equal in state and output becomes STANDBY, one that did not fails. The STANDBY half takes over a holder that is silent or has sent no copy of the period, and one that
has its copy waits (R281, R283, R285). -/
def Obligations.ClaimsCopiesAndTakeovers : Prop :=
  ∀ (h : Nat) (s : State), h ≤ 1 → s.up = true →
    (∃ t, exec (.claim h 0) s = .next t ∧ t.fld (claimFld h) = 0 ∧ (t.half h).accepted = 0 ∧ s.sameBut t [.lane, .regs])
    ∧ (∀ c, c ≠ 0 → c < 65536 →
        (claimHigher c (s.fld .CTL_CLAIM_LAST_LAST) = true → s.halfSt (otherHalf h) ≠ halfActive →
          ∃ t, exec (.claim h c) s = .next t ∧ t.fld .CTL_CLAIM_LAST_LAST = c ∧ (t.half h).accepted = c ∧ s.sameBut t [.lane, .regs])
        ∧ (claimHigher c (s.fld .CTL_CLAIM_LAST_LAST) = true → s.halfSt (otherHalf h) = halfActive →
          ∃ t, exec (.claim h c) s = .next t ∧ t.halfSt (otherHalf h) = halfFailed ∧ (t.half h).accepted = c)
        ∧ (claimHigher c (s.fld .CTL_CLAIM_LAST_LAST) = false → ∃ t, exec (.claim h c) s = .next t ∧ t.stsBit .CTL_STS 13 = true ∧ t.lane = s.lane))
    ∧ (∀ c, s.halfIn halfActive = some (otherHalf h) → s.lane.sent = some c →
        (s.halfSt h = halfStandby → ∃ t, exec (.stateCopyReceive true) s = .next t ∧ t.half h = { s.half h with copy := some c, bad := 0 } ∧ s.sameBut t [.lane])
        ∧ (s.halfSt h = halfStandby → (s.half h).bad = 0 → ∃ t, exec (.stateCopyReceive false) s = .next t ∧ t.half h = { s.half h with bad := 1 } ∧ s.sameBut t [.lane])
        ∧ (s.halfSt h = halfStandby → (s.half h).bad = 1 → ∃ t, exec (.stateCopyReceive false) s = .next t ∧ t.halfSt h = halfFailed ∧ t.stsBit .CTL_STS 4 = true)
        ∧ (s.halfSt h = halfLoad → (s.half h).loaded = true → ∃ t, exec (.stateCopyReceive true) s = .next t ∧ t.halfSt h = halfShadow ∧ (t.half h).copy = some c))
    ∧ (∀ c outs bytes, s.halfIn halfShadow = some h → s.lane.sent = some c → (s.half h).copy.any (fun x => x.period == c.period) = false → (s.half h).fresh = false →
        (c.bytes = bytes → c.outs = outs → ∃ u, exec (.shadowCompare outs bytes) s = .next (u.toStandby h) ∧ u.half h = { s.half h with copy := some c } ∧ s.sameBut u [.lane])
        ∧ (c.bytes ≠ bytes ∨ c.outs ≠ outs → ∃ t, exec (.shadowCompare outs bytes) s = .next t ∧ t.halfSt h = halfFailed ∧ t.stsBit .CTL_STS 3 = true))
    ∧ (∀ p k, s.lane.pkg = some p → s.lane.period = some k → s.halfIn halfStandby = some h → (s.half h).arming = .none →
        ((s.half (otherHalf h)).accepted ≠ 0 → (s.half h).copy.map LaneCopy.period = some k → exec .takeover s = .next s)
        ∧ ((s.half (otherHalf h)).accepted = 0 ∨ (s.half h).copy.map LaneCopy.period ≠ some k → ∃ t, exec .takeover s = .next t ∧ (t.half h).arming = .resume ∧ t.stsBit .CTL_STS 0 = true
            ∧ (s.halfSt (otherHalf h) = halfActive → t.halfSt (otherHalf h) = halfFailed)))

/-- A lane frame with a good header and a mapped axis enters its queue whole, or, when the queue has no room, is dropped and counted by the gap register with GAPS and CTL_STS.Q_GAP; any other lane frame is dropped and counted in RX_DROP, as
is a PTP frame of another domain. A synchronisation gives the follower its time and TS_LOCK; TS_UNLOCK takes it away and sets CTL_STS.TS_UNLOCK. The ingress engine puts the words of a read item into its axis's slot. A link that has been up
for UP_HOLD is used; FLAP_LIMIT changes within 10 s quarantine the port, which the end of the quarantine lifts (R212, R213, R269, R270, R278, R279, R290). The slot of an axis counts as read at the item's read (log entry: lane choices). -/
def Obligations.FramesReachTheirSlots : Prop :=
  ∀ (s : State), s.up = true →
    (∀ port q hdr ws, s.portUp port = true → q < 4 → laneHeaderOk hdr ws = true → ((s.lane.pkg.map LanePkg.axes).getD []).any (fun a => a.axis == bits hdr 8 8 && a.queue == q) = true →
      (s.queue (4 * port + q)).gap = none →
      ((s.queue (4 * port + q)).words.length + ws.length + 1 ≤ 32 → ∃ t, exec (.laneFrameRx port q hdr ws) s = .next t ∧ (t.queue (4 * port + q)).words = (s.queue (4 * port + q)).words ++ itemWords (hdr :: ws) ∧ s.sameBut t [.queues])
      ∧ (32 < (s.queue (4 * port + q)).words.length + ws.length + 1 → ∃ t, exec (.laneFrameRx port q hdr ws) s = .next t ∧ (t.queue (4 * port + q)).words = (s.queue (4 * port + q)).words
          ∧ (t.queue (4 * port + q)).gap = some 1 ∧ t.stsBit .CTL_STS 6 = true ∧ t.fld .CTL_Q_STS_GAPS 0 (4 * port + q) = min 65535 (s.fld .CTL_Q_STS_GAPS 0 (4 * port + q) + 1)))
    ∧ (∀ port q hdr ws, s.portUp port = true → q < 4 →
      (laneHeaderOk hdr ws = false ∨ ((s.lane.pkg.map LanePkg.axes).getD []).any (fun a => a.axis == bits hdr 8 8 && a.queue == q) = false) →
      exec (.laneFrameRx port q hdr ws) s = .next (s.rxDrop port) ∧ (s.rxDrop port).fld .CTL_PORT_STS_RX_DROP 0 port = min 65535 (s.fld .CTL_PORT_STS_RX_DROP 0 port + 1))
    ∧ (∀ port (p : LanePkg), s.portUp port = true → s.lane.pkg = some p →
      (∀ d sync, d ≠ p.domain → exec (.ptpFrameRx port d sync) s = .next (s.rxDrop port))
      ∧ (s.flag .CTL_CTRL_TS_ROLE = false → ∃ t, exec (.ptpFrameRx port p.domain true) s = .next t ∧ t.flag .CTL_STATE_TS_LOCK = true ∧ t.lane.tsPort = port ∧ s.sameBut t [.regs, .lane]))
    ∧ (s.flag .CTL_CTRL_TS_ROLE = false → s.flag .CTL_STATE_TS_LOCK = true →
      ∃ t, exec .tsUnlock s = .next t ∧ t.flag .CTL_STATE_TS_LOCK = false ∧ t.stsBit .CTL_STS 9 = true ∧ s.sameBut t eventParts)
    ∧ (∀ q flips w t x', q < 16 → readItem 32 flips (s.queue q) [] = ((w, false) :: t, x') → wordGap w = false → t.any (·.2) = false →
      ∃ u, exec (.ingressRead q flips) s = .next u ∧ u.queue q = x'.enterGap q ∧ s.sameBut u [.queues, .lane]
        ∧ u.axisIn (bits (wordData w) 8 8) = { s.axisIn (bits (wordData w) 8 8) with got := 1, words := t.map (fun e => wordData e.1) })
    ∧ (∀ p, p < 4 → s.portsOff = false →
      (∀ up, (s.port p).link ≠ up → ∃ t, exec (.linkChange p up) s = .next t ∧ (t.port p).link = up ∧ (t.port p).since = s.gauge ∧ s.sameBut t (.lane :: eventParts)
          ∧ (bits (if up = true then (s.port p).cfg else (s.word .CTL_PORT_CFG 0 p).toNat) 4 4 ≠ 0
              → bits (if up = true then (s.port p).cfg else (s.word .CTL_PORT_CFG 0 p).toNat) 4 4 ≤ ((s.port p).changes.filter (fun t => decide (s.gauge < t + 3200000000))).length + 1
              → s.flag .CTL_PORT_STS_QUARANTINE 0 p = false → t.flag .CTL_PORT_STS_QUARANTINE 0 p = true ∧ t.flag .CTL_PORT_STS_LINK_UP 0 p = false ∧ t.stsBit .CTL_STS 8 = true))
      ∧ ((s.port p).link = true → s.flag .CTL_PORT_STS_QUARANTINE 0 p = false → bit (s.port p).cfg 0 = true →
          ∃ t, exec (.upHoldExpiry p) s = .next t ∧ t.flag .CTL_PORT_STS_LINK_UP 0 p = true ∧ t.gauge = max s.gauge ((s.port p).since + bits (s.port p).cfg 8 8 * 320000) ∧ s.sameBut t (.gauge :: eventParts))
      ∧ (s.flag .CTL_PORT_STS_QUARANTINE 0 p = true → ∃ t, exec (.quarantineEnd p) s = .next t ∧ t.flag .CTL_PORT_STS_QUARANTINE 0 p = false ∧ t.gauge = max s.gauge (s.port p).until_
          ∧ (t.port p).changes = [] ∧ s.sameBut t [.gauge, .lane, .regs]))

/-- A VIDEO_FRAME waits behind the frame its stream runs. At its turn it ends with VID_STATE when the stream is not OPEN and with VID_ORDER when its FRAME_NO is not the next one, the stream unchanged; a close of a CLOSED stream completes
with OK; otherwise it becomes the stream's frame in the lowest-numbered free buffer, cut into its parts. A free core takes one part of a frame and runs it; a part that is not the last leaves the frame running, the last one completes it.
STRM_KILL sends an idle stream to ERROR and lets a running part finish (R300, R301, R305, R306, R314). -/
def Obligations.FramesRunOneAtATime : Prop :=
  (∀ (r n i parts : Nat) (s : State) (d : Desc) (x : VidStrm), r < 4 → n < 64 → s.ready = true → s.gated gVideo = false → s.starting r n i 0x0A = some d → d.num 8 2 < 256 → s.recordable r n d →
    (∀ e ∈ (s.ring r n).descs, e.ty = 0x0A → e.num 8 2 = d.num 8 2 → e.uid < d.uid → e.acted = true) → s.strm (vidKey r (d.num 8 2)) = x → x.queue = [] →
    (x.cur ≠ none → ∃ t, exec (.videoFrame r n i parts) s = .next t
        ∧ t.strm (vidKey r (d.num 8 2)) = { x with queue := [{ ring := n, uid := d.uid, no := d.num 0x0C 4, parts := parts }] } ∧ s.sameBut t [.rings, .vid])
    ∧ (x.cur = none →
        (d.num 0x0C 4 ≠ 0 → d.num 0x0C 4 ≠ 0xFFFFFFFF → x.st ≠ .opened →
          ∃ t, exec (.videoFrame r n i parts) s = .next t ∧ s.completed t r n d stVidState ∧ t.strm (vidKey r (d.num 8 2)) = x ∧ s.sameBut t (.vid :: recordParts))
        ∧ (d.num 0x0C 4 ≠ 0 → d.num 0x0C 4 ≠ 0xFFFFFFFF → x.st = .opened → d.num 0x0C 4 ≠ x.nextNo →
          ∃ t, exec (.videoFrame r n i parts) s = .next t ∧ s.completed t r n d stVidOrder ∧ t.strm (vidKey r (d.num 8 2)) = x ∧ s.sameBut t (.vid :: recordParts))
        ∧ (d.num 0x0C 4 = 0xFFFFFFFF → d.num 0x18 4 = 0 → x.st = .closed →
          ∃ t, exec (.videoFrame r n i parts) s = .next t ∧ s.completed t r n d stOk ∧ t.strm (vidKey r (d.num 8 2)) = x ∧ s.sameBut t (.vid :: recordParts))
        ∧ (∀ b, d.num 0x0C 4 ≠ 0 → d.num 0x0C 4 ≠ 0xFFFFFFFF → x.st = .opened → d.num 0x0C 4 = x.nextNo → d.byte 0x0A = x.params.op → d.byte 0x0B = x.cls → x.params.statsEn = false →
          (x.params.op = 0 → x.params.pictureBytes ≤ d.num 0x28 4) → x.freeBuf = some b →
          ∃ t, exec (.videoFrame r n i parts) s = .next t ∧ s.sameBut t [.rings, .vid]
            ∧ (t.strm (vidKey r (d.num 8 2))).cur = some { ring := n, uid := d.uid, no := d.num 0x0C 4, parts := x.params.parts parts, waiting := List.range (x.params.parts parts), readyAt := s.gauge, buffer := b, n := x.n + 1 }
            ∧ (t.strm (vidKey r (d.num 8 2))).mark b = 8 ∧ (t.strm (vidKey r (d.num 8 2))).lastNo = d.num 0x0C 4)))
  ∧ (∀ (core k p : Nat) (s : State) (x : VidStrm) (c : VidRun), s.ready = true → s.workHeld = false → s.coreOpen core = true → s.flag .VID_CTRL_ENABLE = true → s.gated gVideo = false →
      Tab.find core s.vid.cores = none → firstPart (s.readyParts core) = some (k, x) → x.cur = some c → c.waiting.find? (fun q => !c.rerun.contains (q, core)) = some p →
      ∃ t, exec (.partDispatch core) s = .next t ∧ Tab.find core t.vid.cores = some (k, c.uid, p)
        ∧ (t.strm k).cur = some { c with waiting := c.waiting.erase p, running := c.running ++ [p], cores := insertKey core c.cores } ∧ s.sameBut t [.regs, .vid])
  ∧ (∀ (core k uid p : Nat) (o : VidOut) (s : State) (c : VidRun), s.up = true → Tab.find core s.vid.cores = some (k, uid, p) → (s.strm k).cur = some c → c.uid = uid → c.running.contains p = true →
      o.ce = false → o.ue = false → c.killed = false →
      (c.ended + 1 < c.parts → ∃ t, exec (.partDone core o) s = .next t ∧ (t.strm k).cur = some { c with running := c.running.erase p, ended := c.ended + 1 } ∧ Tab.find core t.vid.cores = none
          ∧ s.sameBut t [.regs, .vid])
      ∧ (∀ d, c.parts ≤ c.ended + 1 → s.descUid (k / 256) c.ring c.uid = some d → ∃ u : State, u.vid.strms = s.vid.strms ∧ Tab.find core u.vid.cores = none ∧ s.sameBut u [.regs, .vid]
          ∧ exec (.partDone core o) s = .next (((if (s.strm k).params.op = 1 then u.encodeEnd k (s.strm k) { c with running := c.running.erase p, ended := c.ended + 1 } d o
                else u.decodeEnd k (s.strm k) { c with running := c.running.erase p, ended := c.ended + 1 } d o).vidAfter k).vidShow)))
  ∧ (∀ (s : State) (k : Nat), s.openTo 10 0 = true → k = vidKey (s.fld .VID_STRM_SEL_REALM) (s.fld .VID_STRM_SEL_STREAM) →
      ((s.strm k).cur = none → (s.strm k).queue = [] → (s.strm k).st = .opened → ∃ t, exec (.strmKill .fw) s = .next t ∧ (t.strm k).st = .error ∧ t.stsBit .VID_STS 0 = true)
      ∧ (∀ c, (s.strm k).cur = some c → c.running ≠ [] → ∃ t, exec (.strmKill .fw) s = .next t ∧ (t.strm k).cur = some { c with killed := true } ∧ s.sameBut t [.vid]))

/-- The root of trust reads the block at SEC_CMD_ADDR when no command runs, draws a fresh SEC_NONCE and checks format, nonce and signature in that order, then whether the state refuses the command; the first failure is the result and nothing
else happens. A command that passes is carried out: OWNER_SET stores the key, OWNER_CLEAR of a module without realms drops it, REALM_CREATE and REALM_DESTROY put their realm into CREATING and DESTROYING and stay busy until the clears end,
FW_ACTIVATE and FW_DISARM arm and disarm the staged image, DEBUG_ARM and DEBUG_DISARM set the debug mode (R388-R394, R409, R412). An unreadable block ends READ_ERR (log entry: the order of the checks is the model's reading). -/
def Obligations.CommandBlocksAreChecked : Prop :=
  ∀ (c : Win → Bool → Instr) (op : Nat), (c, op) ∈ rotCommands → ∀ (w : Win) (s u : State) (b : List Nat), (∀ r, w ≠ .realm r) → s.pageUp 13 = true → s.flag .SEC_STATE_CMD_BUSY = false →
    b = s.secBlock → blockOp b = op → u = (s.newNonce).setFld .SEC_CMD_STS_OP op →
    (∃ t, exec (c w true) s = .next t ∧ t.fld .SEC_CMD_STS_CODE = cmdReadErr ∧ t.stsBit .SEC_STS 1 = true ∧ s.sameBut t eventParts)
    ∧ (∀ code, code = (if blockFormatOk b = false then cmdBadFormat else if fieldOf b 8 8 ≠ s.nonce ∨ fieldOf b 16 8 ≠ u.serial then cmdBadNonce else if u.secSigned b = false then cmdBadSig else u.secRefuse op (blockArgs b)) →
      (code ≠ cmdOk → ∃ t, exec (c w false) s = .next t ∧ t.fld .SEC_CMD_STS_CODE = code ∧ t.stsBit .SEC_STS 1 = true ∧ t.nonce = s.drawRandom.1 % 2 ^ 64 ∧ s.sameBut t (.free :: eventParts))
      ∧ (code = cmdOk → ∃ t, exec (c w false) s = .next t
        ∧ (op = opOwnerSet → t.sec.owner = blockArgs b ∧ t.fld .SEC_CMD_STS_CODE = cmdOk ∧ t.stsBit .SEC_STS 0 = true)
        ∧ (op = opOwnerClear → (∀ r < 4, (s.realm r).st = .absent) → t.sec.owner = [] ∧ t.fld .SEC_CMD_STS_CODE = cmdOk)
        ∧ (op = opRealmCreate → t.realm (fieldOf (blockArgs b) 0 1) = grantRealm (blockArgs b) ((s.realm (fieldOf (blockArgs b) 0 1)).created + 1) .creating
            ∧ t.flag .SEC_STATE_CMD_BUSY = true ∧ t.sec.waiting = some (op, fieldOf (blockArgs b) 0 1))
        ∧ (op = opRealmDestroy → (t.realm (fieldOf (blockArgs b) 0 1)).st = .destroying ∧ t.flag .SEC_STATE_CMD_BUSY = true ∧ t.sec.waiting = some (op, fieldOf (blockArgs b) 0 1))
        ∧ (op = opFwActivate → t.fwuSt = fwuArmed ∧ t.sec.count = fieldOf (blockArgs b) 0 8 ∧ t.fld .SEC_CMD_STS_CODE = cmdOk)
        ∧ (op = opFwDisarm → t.fwuSt = fwuStaged ∧ t.fld .SEC_CMD_STS_CODE = cmdOk)
        ∧ (op = opDebugArm → t.sec.debugUntil = fieldOf (blockArgs b) 1 8 ∧ t.fld .SEC_STATE_DEBUG = fieldOf (blockArgs b) 0 1 ∧ t.fld .SEC_CMD_STS_CODE = cmdOk)
        ∧ (op = opDebugDisarm → t.sec.debugUntil = 0 ∧ t.fld .SEC_STATE_DEBUG = 0 ∧ t.fld .SEC_CMD_STS_CODE = cmdOk)))

/-- A realm's request is answered in SEC_REQ_STS: KEY_USE while REQ_EN is 0; CLEAR empties its slot; ATTEST writes the report of 192 bytes and its signature, CERTS the chain, at SEC_REQ_ADDR + 0x100; a PROVISION whose share is no point of the
curve, or whose sealed key does not open, ends with KEY_SEAL, any other leaves a key in the slot and answers 176 bytes. The end of the clears makes a CREATING realm ACTIVE and a DESTROYING one ABSENT. The expiry of the debug mode clears it
(R390, R394, R396, R398, R407-R409). -/
def Obligations.RealmRequestsAreAnswered : Prop :=
  (∀ (r op mode use slot : Nat) (s u : State), s.pageUp 13 = true → s.windowOpen r = true → bit ((s.reqSet r op mode use slot).fld .SEC_STATE_REQ_BUSY) r = false →
    u = (s.reqSet r op mode use slot).setFld .SEC_REQ_STS_DONE 0 0 r →
    (u.flag .SEC_CTRL_REQ_EN = false →
      (op = 1 → mode = 0 → use = 0 → slot < 256 → ∃ t, exec (.clear r slot) s = .next t ∧ t.fld .SEC_REQ_STS_CODE 0 r = stKeyUse ∧ t.flag .SEC_REQ_STS_DONE 0 r = true ∧ s.sameBut t [.regs]))
    ∧ (u.flag .SEC_CTRL_REQ_EN = true →
      (op = 1 → mode = 0 → use = 0 → slot < 256 → ∃ t, exec (.clear r slot) s = .next t ∧ t.keySlot r slot = none ∧ t.fld .SEC_REQ_STS_CODE 0 r = 0 ∧ t.flag .SEC_REQ_STS_DONE 0 r = true
          ∧ (∀ k, k ≠ 256 * r + slot → Tab.find k t.keys = Tab.find k s.keys) ∧ s.sameBut t (.keys :: eventParts))
      ∧ (op = 2 → mode = 0 → use = 0 → slot = 0 → ∃ t x, exec (.attest r) s = .next t ∧ x = u.report192 r (s.bytes (hostBase + u.reqAddr r + 0x40) 32)
          ∧ t.mem = s.mem.store (hostBase + u.reqAddr r + 0x100) (x ++ ecdsaSign u.attestKey x) ∧ t.fld .SEC_REQ_STS_CODE 0 r = 0 ∧ t.fld .SEC_REQ_STS_BYTES 0 r = 256 ∧ s.sameBut t [.mem, .regs])
      ∧ (∀ chain, op = 3 → mode = 0 → use = 0 → slot = 0 → ∃ t, exec (.certs r chain) s = .next t ∧ t.mem = s.mem.store (hostBase + u.reqAddr r + 0x100) chain
          ∧ t.fld .SEC_REQ_STS_CODE 0 r = 0 ∧ t.fld .SEC_REQ_STS_BYTES 0 r = chain.length % 65536 ∧ s.sameBut t [.mem, .regs])
      ∧ (op = 0 → mode < 2 → use < 2 → slot < 256 → (mode = 1 → u.flag .SEC_CTRL_IMPORT_EN = true) →
          (onCurve (bytesPoint ((s.bytes (hostBase + u.reqAddr r) 128).take 64)) = false → ∃ t, exec (.provision r mode use slot) s = .next t ∧ t.fld .SEC_REQ_STS_CODE 0 r = stKeySeal ∧ s.sameBut t eventParts)
          ∧ (onCurve (bytesPoint ((s.bytes (hostBase + u.reqAddr r) 128).take 64)) = true → ∃ t, exec (.provision r mode use slot) s = .next t
              ∧ ((∃ k, t.keySlot r slot = some k ∧ k.use = use ∧ t.fld .SEC_REQ_STS_CODE 0 r = 0 ∧ t.fld .SEC_REQ_STS_BYTES 0 r = 176)
                  ∨ (mode = 1 ∧ t.keySlot r slot = none ∧ t.fld .SEC_REQ_STS_CODE 0 r = stKeySeal))
              ∧ s.sameBut t (.free :: .keys :: eventParts)))))
  ∧ (∀ (r : Nat) (s : State), s.up = true → r < 4 → s.sec.waiting = none →
    ((s.realm r).st = .creating → ∃ t, exec (.realmClearDone r) s = .next t ∧ t.realm r = { s.realm r with st := .active })
    ∧ ((s.realm r).st = .destroying → ∃ t, exec (.realmClearDone r) s = .next t ∧ t.realm r = { created := (s.realm r).created } ∧ Tab.find r t.sec.grants = none))
  ∧ (∀ s : State, s.up = true → s.fld .SEC_STATE_DEBUG ≠ 0 → ∃ t, exec .debugExpiry s = .next t ∧ t.fld .SEC_STATE_DEBUG = 0 ∧ t.gauge = max s.gauge s.sec.debugUntil ∧ s.sameBut t (.gauge :: .sec :: eventParts))

/-- The firmware update runs IDLE, VERIFY, APPLY, CHECK, STAGED, ARMED, TRIAL and back. LOAD in IDLE starts it; ABORT before ARMED empties the other slot and ends with ERR ABORT; VERIFY ends with the first error found, or goes to APPLY; APPLY
ends with READ, TAG or MEAS and an empty slot, or the image is STAGED; the armed count starts it on TRIAL; CONFIRM raises the fused version and ends in IDLE; the end of the window leads to FALLBACK, which ends in IDLE with the other image
rejected. A tile that is idle with no operator of an earlier JOB waiting takes the new microcode. An hour's accrual goes to the Drawer's two budgets up to 720 hours' worth (R411-R417). -/
def Obligations.UpdatesRunTheirStates : Prop :=
  (∀ (w : Win) (s : State), (∀ r, w ≠ .realm r) → s.pageUp 14 = true →
    (s.fwuSt = fwuIdle → ((s.word .FWU_SRC_LO).toNat + (s.word .FWU_SRC_HI).toNat * 2 ^ 32) / 4096 ≠ 0 → ∃ t, exec (.load w) s = .next t ∧ t.fwuSt = fwuVerify ∧ t.fld .FWU_STATE_ERR = 0
        ∧ t.sec.src = ((s.word .FWU_SRC_LO).toNat + (s.word .FWU_SRC_HI).toNat * 2 ^ 32) / 4096 * 4096 ∧ t.sec.size = s.fld .FWU_SRC_BYTES_BYTES ∧ s.sameBut t (.sec :: eventParts))
    ∧ (s.fwuSt ≠ fwuIdle → exec (.load w) s = .next s)
    ∧ (1 ≤ s.fwuSt → s.fwuSt ≤ 4 → ∃ t, exec (.fwuAbort w) s = .next t ∧ t.fwuSt = fwuIdle ∧ t.fld .FWU_STATE_ERR = errAbort ∧ t.other = {} ∧ t.stsBit .FWU_STS 4 = true)
    ∧ (5 ≤ s.fwuSt ∨ s.fwuSt = 0 → exec (.fwuAbort w) s = .next s))
  ∧ (∀ s : State, s.pageUp 14 = true → s.fwuSt = fwuVerify →
    (∃ t, exec (.verifyDone true) s = .next t ∧ t.fwuSt = fwuIdle ∧ t.fld .FWU_STATE_ERR = errRead)
    ∧ (s.fwuVerifyErr (s.bytes (hostBase + s.sec.src) 256) ≠ 0 → ∃ t, exec (.verifyDone false) s = .next t ∧ t.fwuSt = fwuIdle ∧ t.fld .FWU_STATE_ERR = s.fwuVerifyErr (s.bytes (hostBase + s.sec.src) 256))
    ∧ (s.fwuVerifyErr (s.bytes (hostBase + s.sec.src) 256) = 0 → ∃ t, exec (.verifyDone false) s = .next t ∧ t.fwuSt = fwuApply ∧ t.sec.header = s.bytes (hostBase + s.sec.src) 256))
  ∧ (∀ (meas : List Nat) (size ucode : Nat) (s : State) (p : Option (List Nat)), s.pageUp 14 = true → s.fwuSt = fwuApply →
    p = gcmOpen (beBytes 32 (Config.secret 1)) ((s.sec.header.drop 0x60).take 12) (s.sec.header.take 0x70) ((s.fwuEnter fwuCheck 0).bytes (hostBase + s.sec.src + 256) (fieldOf s.sec.header 16 8)) ((s.sec.header.drop 0x70).take 16) →
    (∃ t, exec (.applyDone true meas size ucode) s = .next t ∧ t.fwuSt = fwuIdle ∧ t.fld .FWU_STATE_ERR = errRead ∧ t.other = {})
    ∧ (p = none → ∃ t, exec (.applyDone false meas size ucode) s = .next t ∧ t.fwuSt = fwuIdle ∧ t.fld .FWU_STATE_ERR = errTag ∧ t.other = {})
    ∧ (∀ x, p = some x → fieldOf s.sec.header 5 1 = 1 →
        (sha256 x ≠ (s.sec.header.drop 0x40).take 32 → ∃ t, exec (.applyDone false meas size ucode) s = .next t ∧ t.fwuSt = fwuIdle ∧ t.fld .FWU_STATE_ERR = errMeas ∧ t.other = {})
        ∧ (sha256 x = (s.sec.header.drop 0x40).take 32 → s.fld .GLB_STATE_STAGE ≠ 5 → ∃ t, exec (.applyDone false meas size ucode) s = .next t ∧ t.fwuSt = fwuStaged ∧ t.stsBit .FWU_STS 0 = true
            ∧ t.other = { version := fieldOf s.sec.header 12 4, meas := some (sha256 x), svn := fieldOf s.sec.header 6 1, ucode := ucode % 2 ^ 32, present := true })))
  ∧ (∀ s : State, s.up = true → s.fwuSt = fwuArmed → ∃ t, exec .activation s = .next t ∧ t.fwuSt = fwuTrial ∧ t.stsBit .FWU_STS 1 = true
      ∧ t.fld .FWU_STATE_LEFT = s.confirmWindow ∧ (s.flag .CTL_CTRL_LANE_EN = false → t.fld .FWU_STATE_RUNNING = 1 - s.fld .FWU_STATE_RUNNING ∧ t.gauge = max s.gauge s.sec.count))
  ∧ (∀ (p u : Nat) (s : State), s.up = true → p < 153 → (s.tile p).nextUcode = some u →
      ((s.tile p).st = .idle → s.earlierWaits p = false → ∃ t, exec (.microcodeLoad p) s = .next t ∧ t.word .TIL_UCODE_ID p = BitVec.ofNat 32 u ∧ t.tile p = { s.tile p with nextUcode := none, passed := false } ∧ s.sameBut t [.tiles, .regs])
      ∧ ((s.tile p).st ≠ .idle ∨ s.earlierWaits p = true → exec (.microcodeLoad p) s = .next s))
  ∧ (∀ s : State, s.up = true →
      (s.mayConfirm = true → ∃ t, exec .confirm s = .next t ∧ t.fwuSt = fwuIdle ∧ t.fld .SEC_ID_SVN = s.running.svn % 256 ∧ t.flag .FWU_SETTINGS_OLD_KEPT = false ∧ t.stsBit .FWU_STS 2 = true)
      ∧ (s.mayConfirm = false → exec .confirm s = .next s)
      ∧ (s.fwuSt = fwuTrial → ∃ t, exec .confirmWindowExpiry s = .next t ∧ t.fwuSt = fwuFallback ∧ t.gauge = max s.gauge (s.sec.count + s.sec.window * secondGt))
      ∧ (∀ lost, s.fwuSt = fwuFallback → s.safePoint = true → s.flag .CTL_CTRL_LANE_EN = false → ∃ t, exec (.fallback lost) s = .next t ∧ t.fwuSt = fwuIdle ∧ t.fld .FWU_STATE_ERR = errFallback
          ∧ t.fld .FWU_STATE_RUNNING = 1 - s.fld .FWU_STATE_RUNNING ∧ t.stsBit .FWU_STS 3 = true ∧ t.other.rejected = true)
      ∧ (∃ t, exec .drawerAccrual s = .next t ∧ s.sameBut t [.drawer, .regs]
          ∧ t.drawer.spill = min (720 * (accrual * min 256 (s.fld .FWU_DRAWER_CFG_SPILL_SHARE) / 256)) (s.drawer.spill + accrual * min 256 (s.fld .FWU_DRAWER_CFG_SPILL_SHARE) / 256)))

/-- A trim moves CLK_TRIM.CODE by at most one step towards its source; with no source, or at the end of the code's range, CLK_STS.TRIM_ERR is set. A domain outside its limits in two windows in a row is FATAL and sets CLK_STS. A lost reference
sets HOLDOVER and clears REF_OK, a returned one the reverse, and a loop that loses lock clears its PLL_OK bit. LOW_POWER asked for begins a ramp whose end shows it. A gate takes effect on a block that holds no work and that the lane does not hold;
the others wait with GATE_PEND (R423, R425-R428). The count of a trim's steps and the domains found bad are the commands' operands (log entry 4). -/
def Obligations.ClocksAreTrimmedAndGated : Prop :=
  ∀ s : State, s.up = true →
    (∀ dir ok src, src = (if s.flag .CLK_STATE_REF_OK then 1 else if s.flag .CLK_CTRL_TRIM_STAVE && s.chainDelivers then 2 else 0) → ∀ c ∈ [exec (.retrim .fw dir ok) s, exec (.rcTrim dir ok) s],
      s.openTo 1 0 = true → s.flag .CLK_CTRL_AUTO_TRIM = true →
      ((src = 0 ∨ (dir = 1 ∧ s.fld .CLK_TRIM_CODE = 511) ∨ (dir = 2 ∧ s.fld .CLK_TRIM_CODE = 0)) → ∃ t, c = .next t ∧ t.fld .CLK_TRIM_CODE = s.fld .CLK_TRIM_CODE ∧ t.stsBit .CLK_STS 4 = true ∧ s.sameBut t eventParts)
      ∧ (src ≠ 0 → (dir = 1 → s.fld .CLK_TRIM_CODE < 511) → (dir = 2 → 0 < s.fld .CLK_TRIM_CODE) → ∃ t, c = .next t ∧ t.fld .CLK_TRIM_SRC = src ∧ t.flag .CLK_STATE_RC_TRIMMED = ok ∧ s.sameBut t [.regs]
          ∧ t.fld .CLK_TRIM_CODE = (if dir = 1 then s.fld .CLK_TRIM_CODE + 1 else if dir = 2 then s.fld .CLK_TRIM_CODE - 1 else s.fld .CLK_TRIM_CODE)))
    ∧ (∀ bad, s.boot.pllStable = true → (bad.filter (fun d => decide (d < 10) && d != gaugeDomain)).any (fun d => s.clk.lastBad.contains d) = true → ∃ t, exec (.frequencyMonitorWindow bad) s = .next t ∧ t.stsBit .CLK_STS 3 = true
        ∧ s.sameBut t (.clk :: reportParts))
    ∧ (∀ bad, s.boot.pllStable = true → (bad.filter (fun d => decide (d < 10) && d != gaugeDomain)).any (fun d => s.clk.lastBad.contains d) = false → ∃ t, exec (.frequencyMonitorWindow bad) s = .next t
        ∧ t.clk.lastBad = bad.filter (fun d => decide (d < 10) && d != gaugeDomain) ∧ s.sameBut t [.clk])
    ∧ (s.flag .CLK_STATE_REF_OK = true → ∃ t, exec .refLoss s = .next t ∧ t.flag .CLK_STATE_REF_OK = false ∧ t.flag .CLK_STATE_HOLDOVER = true ∧ t.stsBit .CLK_STS 0 = true ∧ s.sameBut t reportParts)
    ∧ (s.boot.pllStable = true → s.flag .CLK_STATE_REF_OK = false → ∃ t, exec .refBack s = .next t ∧ t.flag .CLK_STATE_REF_OK = true ∧ t.flag .CLK_STATE_HOLDOVER = false ∧ t.stsBit .CLK_STS 1 = true ∧ s.sameBut t eventParts)
    ∧ (∀ loop, loop < 4 → s.boot.pllStable = true → ∃ t, exec (.pllUnlock loop) s = .next t ∧ bit (t.fld .CLK_STATE_PLL_OK) loop = false ∧ t.stsBit .CLK_STS 2 = true ∧ s.sameBut t eventParts)
    ∧ (∀ on, s.openTo 1 0 = true → ∃ t, exec (.lowPowerWrite .fw on) s = .next t ∧ t.flag .CLK_CTRL_LOW_POWER = on ∧ (on ≠ s.flag .CLK_STATE_LOW_POWER → t.flag .CLK_STATE_RAMP_BUSY = true) ∧ s.sameBut t [.clk, .regs])
    ∧ (s.flag .CLK_STATE_RAMP_BUSY = true → ∃ t, exec .clockRampDone s = .next t ∧ t.flag .CLK_STATE_RAMP_BUSY = false ∧ t.fld .CLK_STATE_LOW_POWER = s.fld .CLK_CTRL_LOW_POWER ∧ t.stsBit .CLK_STS 5 = true ∧ s.sameBut t eventParts)
    ∧ (∀ v, s.openTo 1 0 = true → ∃ t u, exec (.gateWrite .fw false v) s = .next t ∧ u = s.setWord .CLK_GATE 0 0 (BitVec.ofNat 32 (v % 2 ^ 12)) ∧ s.sameBut t [.regs, .boot]
        ∧ t.boot.gates = (u.gatesWanted.filter (fun k => !u.laneBlock k)).filter (fun k => s.boot.gates.contains k || !s.blockBusy k))
    ∧ (∀ v c, c = s.fld .CLK_TILE_SEL_CLU → c < 9 → s.openTo 1 0 = true → ∃ t u, exec (.gateWrite .fw true v) s = .next t ∧ u = s.setFld .CLK_TILE_GATE_TILE v 0 c ∧ s.sameBut t [.regs, .boot]
        ∧ t.boot.gates = (u.gatesWanted.filter (fun k => !u.laneBlock k)).filter (fun k => s.boot.gates.contains k || !s.blockBusy k))
    ∧ (s.flag .CLK_STATE_GATE_PEND = true → ∃ t, exec .gatePendApply s = .next t ∧ s.sameBut t [.regs, .boot]
        ∧ t.boot.gates = (s.gatesWanted.filter (fun k => !s.laneBlock k)).filter (fun k => s.boot.gates.contains k || !s.blockBusy k)
        ∧ (t.flag .CLK_STATE_GATE_PEND = true ↔ t.boot.gates.length ≠ (s.gatesWanted.filter (fun k => !s.laneBlock k)).length))

/-- The master starts a frame at each mark and removes it when it returns; an attached module sends a good frame on with one hop more and its own residence time added, and a damaged one as it came, counted. A read of GAU_COUNT_LO latches the count,
rounded for a realm. REALIGN restarts alignment on a module that is not the master; eight missing frames lead from LOCKED or ALIGNING to HOLDOVER; three of its own frames missing open the ring. A LAUNCH less than 2 ms ahead is refused, else sent;
a LAUNCH that arrives is stored, a STATE goes to the chain map, an activation segment is kept until the last (R405, R429-R441). -/
def Obligations.TheChainCarriesFramesAndMessages : Prop :=
  ∀ s : State, s.running_ = true →
    (∀ odd body arr tr, s.fld .STV_STATE_ATTACH = 2 → s.flag .STV_STATE_HEAD = false →
      (frameGood body = false → ∃ t, exec (.staveFrameRx odd body arr tr) s = .next t ∧ t.out = s.out ++ [.stave odd body] ∧ t.stsBit .STV_STS 2 = true ∧ s.sameBut t (.gauge :: .out :: eventParts))
      ∧ (frameGood body = true → ∃ t f, exec (.staveFrameRx odd body arr tr) s = .next t ∧ t.out = s.out ++ [.stave odd (frameBytes f)] ∧ f.mark = (parseFrame body).mark ∧ f.hops = (parseFrame body).hops + 1
          ∧ f.res = ((parseFrame body).res + tr) % 2 ^ 32 ∧ f.flags = (parseFrame body).flags ∧ f.share = (parseFrame body).share ∧ s.sameBut t (.gauge :: .stave :: .det :: .out :: eventParts)))
    ∧ (∀ lat, s.flag .STV_STATE_HEAD = true → s.fld .STV_STATE_ATTACH ≠ 0 → ∃ t f, exec (.frameMark lat) s = .next t ∧ t.gauge = (s.gauge / 40000 + 1) * 40000
        ∧ t.out = s.out ++ [.stave ((s.gauge / 40000 + 1) * 40000 / 40000 % 2 == 1) (frameBytes f)] ∧ f.mark = (s.gauge / 40000 + 1) * 40000 % 2 ^ 64)
    ∧ (∀ w, s.pageUp 2 = true → (∀ r, w = .realm r → s.windowOpen r = true) → (w = .mgmt → s.boot.requests = []) → ∃ t g, exec (.gaugeRead w) s = .next t ∧ g = (match w with | .realm _ => s.gauge / 32 * 32 | _ => s.gauge)
        ∧ t.word .GAU_COUNT_LO = BitVec.ofNat 32 g ∧ t.word .GAU_COUNT_HI = BitVec.ofNat 32 (g / 2 ^ 32) ∧ s.sameBut t [.regs])
    ∧ (s.openTo 2 0 = true → (s.flag .STV_STATE_HEAD = true → exec (.realign .fw) s = .next s)
        ∧ (s.flag .STV_STATE_HEAD = false → s.flag .GAU_CTRL_SERVO_EN = true → ∃ t, exec (.realign .fw) s = .next t ∧ t.gau = gauAligning ∧ s.sameBut t (.stave :: eventParts)))
    ∧ (s.gau = gauLocked ∨ s.gau = gauAligning → ∃ t, exec .gaugeHoldover s = .next t ∧ t.gau = gauHoldover ∧ t.stsBit .GAU_STS 2 = true ∧ t.gauge = max s.gauge (s.stave.lastGood + 320000))
    ∧ (s.flag .STV_STATE_HEAD = true → 3 ≤ s.stave.lost → s.stave.ringOpen = false → ∃ t, exec .ringOpen s = .next t ∧ t.stave.ringOpen = true ∧ t.stave.flights = [] ∧ t.stsBit .STV_STS 3 = true)
    ∧ (s.fld .STV_STATE_ATTACH = 0 → s.flag .STV_CTRL_ATTACH_EN = true → ∃ t, exec .attach s = .next t ∧ t.fld .STV_STATE_ATTACH = 1 ∧ t.stave.good = 0 ∧ s.sameBut t [.regs, .stave])
    ∧ (s.openTo 3 0 = true →
        (s.flag .STV_STATE_HEAD = true → ∃ t, exec (.enum .fw) s = .next t ∧ t.stave.round = some (s.gauge + 2560000) ∧ s.sameBut t [.stave])
        ∧ (s.flag .STV_STATE_HEAD = true → s.launchCount < s.gauge + 640000 → ∃ t, exec (.launchSend .fw) s = .next t ∧ t.stsBit .STV_STS 8 = true ∧ s.sameBut t eventParts)
        ∧ (s.flag .STV_STATE_HEAD = true → s.gauge + 640000 ≤ s.launchCount → s.stave.tx.length < 16 → ∃ t, exec (.launchSend .fw) s = .next t ∧ s.sameBut t [.stave]
            ∧ t.stave.tx = s.stave.tx ++ [⟨0xFF, s.fld .STV_STATE_ADDR, 3, 8, leBytes 4 (s.word .STV_LAUNCH_ID).toNat ++ leBytes 8 s.launchCount⟩])
        ∧ (∀ a n, a = hostBase + ((s.word .STV_ACT_LO).toNat + (s.word .STV_ACT_HI).toNat * 2 ^ 32) / 64 * 64 → n = s.num a 1 → s.flag .STV_STATE_HEAD = true → 1 ≤ n → n ≤ 64 → (∀ i < n, s.num (a + 8 + 144 * i) 1 ≠ 0) →
            ∃ t, exec (.actSend .fw) s = .next t ∧ t.stave.acting = true ∧ t.stave.acts = s.stave.acts ++ ((List.range n).map (fun i => actSegments (s.num (a + 8 + 144 * i) 1) (s.bytes (a + 16 + 144 * i) 136))).flatten ∧ s.sameBut t [.stave]))
    ∧ (∀ x, s.stave.round = some x → s.det.swatch = none → ∃ t, exec .enumRoundEnd s = .next t ∧ t.stave.round = none ∧ t.stsBit .STV_STS 0 = true ∧ (s.flag .STV_STATE_HEAD = true → t.fld .STV_STATE_MODULES = (s.stave.enumSeen + 1) % 128))
    ∧ (∀ m, s.stave.rx.find? (fun m => m.kind == 3) = some m → ∃ t, exec .launch s = .next t ∧ t.word .GAU_LAUNCH_ID = BitVec.ofNat 32 (fieldOf m.payload 0 4) ∧ t.word .GAU_LAUNCH_LO = BitVec.ofNat 32 (fieldOf m.payload 4 8)
        ∧ t.stsBit .GAU_STS 4 = true ∧ t.stave.rx = s.stave.rx.erase m)
    ∧ (∀ m, s.stave.rx.find? (fun m => m.kind == 4) = some m → bit m.mflags 3 = false → ∃ t, exec .activate s = .next t ∧ s.sameBut t [.stave] ∧ t.stave.rx = s.stave.rx.erase m
        ∧ Tab.find m.src t.stave.segs = some ((if bits m.mflags 1 2 = 0 then [] else (Tab.find m.src s.stave.segs).getD []) ++ m.payload.take 60))
    ∧ (∀ m, s.stave.rx.find? (fun m => m.kind == 1) = some m → ∃ t, exec .state s = .next t ∧ t.stave.rx = s.stave.rx.erase m
        ∧ Tab.find m.src t.stave.map = some { state := fieldOf m.payload 0 1, gauge := fieldOf m.payload 1 1, serial := fieldOf m.payload 2 3, since := s.gauge } ∧ s.sameBut t (.stave :: eventParts))
    ∧ (1024 ≤ s.stave.frames → ∃ t, exec .stateSend s = .next t ∧ t.stave.frames = s.stave.frames - 1024 ∧ s.sameBut t (.stave :: eventParts))

/-- Firmware takes the waiting error of the highest severity, and of those the first; an error of the same or a lower severity waits (R363). A tile-scope error leaves its tile in FAULT until the tile's recovery; an error without a
scope of tiles or clusters ends at once; both show in FLT_LAST. After a tile's recovery its handling ends; after a failed one its score has lost 400 (R361, R372). A channel's copy ends with the channel in FLT_SPARES and a retirement report. A unit
whose work has ended retires; each tile whose known answer differs is reported with cause 0x0002; a healthy hour gives 5 points and clears the hour's counts; the module leaves WORN once DWELL has passed (R359, R366, R370, R372, R374). -/
def Obligations.ErrorsAreTakenAndHandled : Prop :=
  (∀ (l : List ErrRec) (e : ErrRec), nextErr l = some e → ∃ a b, l = a ++ e :: b ∧ (∀ x ∈ a, x.sev < e.sev) ∧ ∀ x ∈ b, x.sev ≤ e.sev)
  ∧ ∀ s : State, s.up = true →
    (s.flt.mpDown = false → ∀ (ok : Bool) (row chan : Nat),
      (nextErr s.flt.queue = none → exec (.errorHandling none ok row chan) s = .next s.evalState)
      ∧ (∀ e, nextErr s.flt.queue = some e →
        (∀ x, s.flt.cur.head? = some x → e.sev ≤ x.sev → exec (.errorHandling none ok row chan) s = .next s.evalState)
        ∧ ((∀ x, s.flt.cur.head? = some x → x.sev < e.sev) → s.errClosed e = false → e.cause ≠ 7 →
          ((e.kind = 2 ∨ 4 ≤ e.kind) → ∃ t, exec (.errorHandling none ok row chan) s = .next t ∧ t.flt.queue = s.flt.queue.erase e ∧ t.flt.cur = s.flt.cur
              ∧ t.fld .FLT_LAST_CAUSE = e.cause % 2 ^ 16 ∧ t.fld .FLT_LAST_SEVERITY = e.sev % 8)
          ∧ (e.kind = 0 → e.scope = 0 → e.exhaust = false → s.halfOn e.index = none → ∃ t, exec (.errorHandling none ok row chan) s = .next t ∧ t.flt.queue = s.flt.queue.erase e
              ∧ t.flt.cur = e :: s.flt.cur ∧ (t.tile e.index).st = .fault))))
    ∧ (∀ p e, s.flt.mpDown = false → s.flt.cur.find? (fun e => e.kind == 0 && e.index == p) = some e →
        (∃ u : State, exec (.tileRecoveryDone p true) s = .next (u.repairOn p) ∧ u.flt.cur = s.flt.cur.erase e
          ∧ (u.tile p).st = (if s.flag .TIL_CTRL_HALT p then .halted else .idle) ∧ u.fld .FLT_LAST_CAUSE = e.cause % 2 ^ 16)
        ∧ (∃ u, exec (.tileRecoveryDone p false) s = .next ((if s.flag .FLT_CTRL_AUTO_RETIRE then u.retireTile p e.esc else u).endHandling e)
          ∧ (u.unit (unitKey 0 p)).score = min 1000 ((s.unit (unitKey 0 p)).score - 400) ∧ s.sameBut u [.flt]))
    ∧ (∀ ch, ch < 64 → s.flt.copying = some ch → ∃ t, exec .channelCopyDone s = .next t ∧ t.flt.copying = none ∧ t.fld .FLT_SPARES_CHAN_USED = 1 ∧ t.fld .FLT_SPARES_CHAN = ch ∧ t.stsBit .FLT_STS 6 = true)
    ∧ (∀ i, s.flt.mpDown = false → unitKey 0 i ∈ s.flt.retiring → s.tileBusy i = false → ∃ u, exec (.retireHalted 0 i) s = .next (u.retireTile i false) ∧ unitKey 0 i ∉ u.flt.retiring ∧ (u.tile i).retiring = false
        ∧ s.sameBut u [.flt, .tiles])
    ∧ (∀ p esc, p < 153 → s.tileRetired p = false → s.halfOn p = none → s.tilePlace p = none → ((s.retireTile p esc).tile p).retired = true ∧ (s.retireTile p esc).stsBit .FLT_STS 6 = true)
    ∧ (∀ fails, s.flag .GLB_STATE_READY = true → ∃ u, exec (.knownAnswerPass fails) s = .next ((((List.range 153).filter (fun p => (s.tile p).st == .idle && !s.tileBusy p && !s.tileGated p)).filter fails.contains).foldl
        (fun s p => s.contain 0x0002 0 p 0 0) u) ∧ s.sameBut u [.tiles]
        ∧ ∀ p < 153, (s.tile p).st = .idle → s.tileBusy p = false → s.tileGated p = false → p ∉ fails → (u.tile p).passed = (s.tile p).nextUcode.isNone)
    ∧ ((s.flt.units.map Prod.fst).Nodup → ∃ t, exec .healthHour s = .next t ∧ ∀ e ∈ s.flt.units, (t.unit e.1).ceHour = 0 ∧ (t.unit e.1).ceLoss = 0
        ∧ (t.unit e.1).score = (if (e.2.lastContained.all (fun x => decide (x + 3600 * secondGt ≤ s.gauge))) = true then min 1000 (e.2.score + 5) else e.2.score))
    ∧ (∀ d, s.flt.worn = { on := true, okSince := some d } → s.flt.degraded.on = false → s.flt.service.on = false → s.flt.failed = false → 650 ≤ s.modScore → s.lossNow = false → s.laneLost = false → s.flt.mpError = none →
        ∃ t, exec .stateDwellExpiry s = .next t ∧ t.gauge = max s.gauge (d + s.dwell) ∧ t.flt.worn.on = false ∧ t.flt.state = 0)

/-- A rejected message counts in FLT_PERF_REJECT and sets FLT_STS.ROLE_REJECT, and a second one is reported with cause 0x000E (R378). A planned warm restart ends; an unplanned one is reported SERVICE and counts against TRIAL (R359, R411, R413).
RETIRE ends an idle unit at once, and a busy one keeps its work while its stand-in takes the place (R366, R367). A cluster that retires gives its number to the spare, or becomes unavailable. REPAIR frees a retired unit with score 500 when it passes (R371).
FREEZE freezes an armed module; an unarmed one counts it (R381, R404). -/
def Obligations.UnitsRetireAreRepairedAndFreeze : Prop :=
  (∀ s : State, s.up = true →
    (∀ p, ∃ u : State, exec (.messageReject false p none) s = .next u ∧ u.fld .FLT_PERF_REJECT_COUNT = (s.fld .FLT_PERF_REJECT_COUNT + 1) % 2 ^ 32 ∧ u.stsBit .FLT_STS 8 = true ∧ s.sameBut u eventParts
      ∧ (∀ b h, h < 2 → exec (.messageReject b p (some h)) s = .next (u.halfHit h 5))
      ∧ (p < 153 → ∃ t e, exec (.messageReject true p none) s = .next t ∧ t.flt.queue = s.flt.queue ++ [e] ∧ e.cause = 0x000E ∧ e.kind = 0 ∧ e.index = p))
    ∧ (∀ v, s.sec.planned = true → ∃ t, exec (.mgmtWarmRestart v) s = .next t ∧ t.flt = { s.flt with mpDown := false } ∧ t.sec.planned = false ∧ (s.sec.migrating = true → t.fld .FWU_SETTINGS_VERSION = v % 2 ^ 16 ∧ t.sec.migrating = false))
    ∧ (∀ v, s.sec.planned = false → (s.fwuSt = fwuTrial → s.sec.restarts < 2) → ∃ t, exec (.mgmtWarmRestart v) s = .next t ∧ t.flt.mpDown = false ∧ t.flt.mpError = some s.gauge ∧ t.stsBit .FLT_STS 3 = true
        ∧ t.sec.restarts = (if s.fwuSt = fwuTrial then s.sec.restarts + 1 else s.sec.restarts)))
  ∧ (∀ s : State, s.openTo 12 0 = true →
    (∀ i, i = s.fld .FLT_UNIT_SEL_INDEX → s.fld .FLT_UNIT_SEL_KIND = 0 → i < 153 →
      (s.tileRetired i = true → exec (.retire .fw) s = .next s)
      ∧ (s.tileRetired i = false → s.tileBusy i = false → exec (.retire .fw) s = .next ((s.endTile i).retireTile i false))
      ∧ (∀ a q, s.tileRetired i = false → s.tileBusy i = true → s.flt.cur.any (fun e => e.kind == 0 && e.index == i) = false → s.tilePlace i = some a → s.spareTile (i / 17) = some q →
          ∃ t, exec (.retire .fw) s = .next t ∧ Tab.get (fun k => k % 16) t.tileMap (16 * (i / 17) + a) = q % 17 ∧ (t.tile i).retiring = true ∧ (t.tile i).cur = (s.tile i).cur ∧ s.sameBut t [.flt, .tiles, .tileMap]))
    ∧ (∀ c, c = s.fld .FLT_UNIT_SEL_INDEX → s.fld .FLT_UNIT_SEL_KIND = 1 → c < 9 → s.cluRetired c = false →
      (s.blockBusy (256 + c) = false → exec (.retire .fw) s = .next (s.retireCluster c false))
      ∧ (s.blockBusy (256 + c) = true → ∃ t, exec (.retire .fw) s = .next t ∧ (t.cluster c).retired = false ∧ s.sameBut t [.flt, .tiles])))
  ∧ (∀ (s : State) (c l : Nat) (esc : Bool), c < 9 → s.cluRetired c = false → s.flag .CTL_CTRL_LANE_EN = false → s.logCluster c = some l →
      ((s.retireCluster c esc).cluster c).retired = true ∧ (s.retireCluster c esc).stsBit .FLT_STS 6 = true
      ∧ (∀ q, (s.setCluster c { s.cluster c with retired := true, was := some l }).spareCluster = some q → (s.retireCluster c esc).cluMap = s.cluMap.set l q)
      ∧ ((s.setCluster c { s.cluster c with retired := true, was := some l }).spareCluster = none → (s.retireCluster c esc).cluMap = s.cluMap.set l 9 ∧ (s.retireCluster c esc).stsBit .FLT_STS 2 = true))
  ∧ (∀ (s : State) (i : Nat), s.openTo 12 0 = true → i = s.fld .FLT_UNIT_SEL_INDEX → exec (.fltRepair .fw false) s = .next s
      ∧ (s.fld .FLT_UNIT_SEL_KIND = 0 → s.tileRetired i = true → ∃ t, exec (.fltRepair .fw true) s = .next t ∧ (t.tile i).retired = false ∧ (t.tile i).st = .idle ∧ (t.unit (unitKey 0 i)).score = 500 ∧ t.tileMap = s.tileMap)
      ∧ (s.fld .FLT_UNIT_SEL_KIND = 1 → s.cluRetired i = true → ∃ t, exec (.fltRepair .fw true) s = .next t ∧ (t.cluster i).retired = false ∧ (t.unit (unitKey 1 i)).score = 500 ∧ t.cluMap = s.cluMap)
      ∧ (s.fld .FLT_UNIT_SEL_KIND = 3 → i < 4 → bit (s.fld .FLT_SPARES_VID_RETIRED) i = true → ∃ t, exec (.fltRepair .fw true) s = .next t ∧ t.fld .FLT_SPARES_VID_RETIRED = clearBit (s.fld .FLT_SPARES_VID_RETIRED) i))
  ∧ (∀ s : State, s.openTo 12 0 = true →
      (s.freezeArmed = true → ∃ t, exec (.freeze .fw) s = .next t ∧ t.flt.frozen = true ∧ t.fld .STV_STATE_ATTACH = 0 ∧ s.sameBut t [.flt, .regs])
      ∧ (s.freezeArmed = false → ∃ t, exec (.freeze .fw) s = .next t ∧ t.flt.frozen = s.flt.frozen ∧ t.stsBit .SEC_STS 3 = true ∧ s.sameBut t eventParts))

/-- CRC_NOW and CRC_COMMIT start a computation at once, or have it follow the one that runs; at a multiple of 65,536 gt one starts unless one runs. The end of a computation shows its value in GLB_CFG_CRC_VAL; of a committing one it becomes GLB_CFG_CRC_REF, and firmware's copy
is taken anew; a value that differs from the reference while CHECK_EN is 1 and no hold stood sets CRC_MISMATCH, and with RESTORE 0 captures the first differing register. A write of GLB_CFG_CRC_REF commits the value written. A hold that stands for 10 s sets HOLD_STUCK once (R462-R465). -/
def Obligations.TheConfigurationCrcIsComputed : Prop :=
  (∀ (w : Win) (s : State), (∀ r, w ≠ .realm r) → s.pageUp 0 = true →
    (s.boot.crc = none → (∃ t, exec (.crcNow w) s = .next t ∧ t.boot.crc = some { start := s.gauge, commit := false, held := s.crcHeld } ∧ t.fld .GLB_STATE_CRC_BUSY = 1 ∧ s.sameBut t [.boot, .regs])
        ∧ ∃ t, exec (.crcCommit w) s = .next t ∧ t.boot.crc = some { start := s.gauge, commit := true, held := s.crcHeld } ∧ t.fld .GLB_STATE_CRC_BUSY = 1 ∧ s.sameBut t [.boot, .regs])
    ∧ (∀ c, s.boot.crc = some c → (∃ t, exec (.crcNow w) s = .next t ∧ t.boot.crc = some { c with next := some (c.next.getD false) } ∧ s.sameBut t [.boot])
        ∧ ∃ t, exec (.crcCommit w) s = .next t ∧ t.boot.crc = some { c with next := some true } ∧ s.sameBut t [.boot])
    ∧ (∀ v, ∃ t, exec (.crcRefWrite w v) s = .next t ∧ t.word .GLB_CFG_CRC_REF = BitVec.ofNat 32 v ∧ t.boot.hasCommit = true ∧ s.sameBut t [.boot, .regs]
        ∧ ∀ k, persisted k = true → Tab.get regDefault t.boot.committed k = Tab.get regDefault t.regs k))
  ∧ (∀ s : State, s.ready = true → ∃ t, exec .crcPeriodic s = .next t ∧ t.gauge % 65536 = 0 ∧ s.gauge ≤ t.gauge ∧ t.gauge < s.gauge + 65536 ∧ t.boot.crc.isSome = true ∧ s.sameBut t [.gauge, .boot, .regs])
  ∧ (∀ (s : State) (c : CrcRun), s.up = true → s.boot.crc = some c → c.next = none →
    (c.commit = true → ∃ t, exec .crcDone s = .next t ∧ t.boot.crc = none ∧ t.word .GLB_CFG_CRC_REF = BitVec.ofNat 32 (configCrc s.regs) ∧ t.word .GLB_CFG_CRC_VAL = BitVec.ofNat 32 (configCrc s.regs) ∧ t.boot.hasCommit = true ∧ s.sameBut t [.boot, .regs])
    ∧ (c.commit = false → s.flag .GLB_CRC_CTRL_CHECK_EN = false ∨ c.held = true ∨ s.crcHeld = true ∨ s.boot.hasCommit = false ∨ configCrc s.regs = (s.word .GLB_CFG_CRC_REF).toNat →
        ∃ t, exec .crcDone s = .next t ∧ t.boot.crc = none ∧ t.fld .GLB_STATE_CRC_BUSY = 0 ∧ t.word .GLB_CFG_CRC_VAL = BitVec.ofNat 32 (configCrc s.regs) ∧ s.sameBut t [.boot, .regs])
    ∧ (c.commit = false → s.flag .GLB_CRC_CTRL_CHECK_EN = true → c.held = false → s.crcHeld = false → s.boot.hasCommit = true → configCrc s.regs ≠ (s.word .GLB_CFG_CRC_REF).toNat →
        ∃ u : State, exec .crcDone s = .next u.crcDiffers ∧ u.boot.crc = none ∧ s.sameBut u [.boot, .regs] ∧ u.regsBut s [Reg.GLB_STATE.key 0 0, Reg.GLB_CFG_CRC_VAL.key 0 0]
          ∧ (s.flag .GLB_CRC_CTRL_RESTORE = false → u.crcDiffers.stsBit .GLB_STS 0 = true ∧ (coveredKeys.any (fun k => coveredWord u.regs k != coveredWord u.boot.committed k) = true → u.crcDiffers.fld .GLB_CRC_DIFF_VALID = 1))))
  ∧ (∀ (s : State) (t0 : Nat), s.up = true →
    (s.boot.fwHoldSince = some t0 → s.boot.fwStuckSet = false → ∃ t, exec (.holdStuck true) s = .next t ∧ t.gauge = max s.gauge (t0 + 3200000000) ∧ t.boot.fwStuckSet = true ∧ t.stsBit .GLB_STS 2 = true ∧ s.sameBut t (.gauge :: .boot :: eventParts))
    ∧ (s.boot.holdSince = some t0 → s.boot.stuckSet = false → ∃ t, exec (.holdStuck false) s = .next t ∧ t.gauge = max s.gauge (t0 + 3200000000) ∧ t.boot.stuckSet = true ∧ t.stsBit .GLB_STS 2 = true ∧ s.sameBut t (.gauge :: .boot :: eventParts))
    ∧ (s.boot.holdSince = some t0 → s.boot.stuckSet = true → exec (.holdStuck false) s = .next s))

/-- RESET_ARM through the management window arms a reset for 1 ms and RESET_GO in that time resets the die; firmware's own writes of them do nothing. A reset leaves the die at its reset state: no ring, no JOB, no request, the Gauge at 0, not READY, its cause in GLB_RESET_CAUSE;
host memory, the Drawer's budgets and the waiting commands stay. POWER_ON_RESET samples the straps. Then the stages follow one another: CLOCKS, IMAGE, FIRMWARE and READY, or RECOVERY with no image that passes and START_FAIL with two channels that fail (R446, R448, R451, R452).
The straps, the images' verdicts and the failed channels are the commands' operands (log entry 4). -/
def Obligations.ResetsClearAndBringUpFollows : Prop :=
  (∀ s : State, s.pageUp 0 = true →
    (∃ t, exec (.resetArm .mgmt) s = .next t ∧ t.boot.armedUntil = some (s.gauge + 320000) ∧ s.sameBut t [.boot])
    ∧ exec (.resetArm .fw) s = .next s ∧ exec (.resetGo .fw) s = .next s
    ∧ (∀ x, s.boot.armedUntil = some x → (s.gauge ≤ x → exec (.resetGo .mgmt) s = .next (s.restart 2)) ∧ (x < s.gauge → exec (.resetGo .mgmt) s = .next s))
    ∧ (s.boot.armedUntil = none → exec (.resetGo .mgmt) s = .next s))
  ∧ (∀ (s : State) (cause : Nat), cause < 4 → (s.side 2).effect = false →
      (s.restart cause).rings = [] ∧ (s.restart cause).jobs = [] ∧ (s.restart cause).srv = {} ∧ (s.restart cause).gauge = 0 ∧ (s.restart cause).flt = {} ∧ (s.restart cause).keys = [] ∧ (s.restart cause).flag .GLB_STATE_READY = false
      ∧ (s.restart cause).fld .GLB_RESET_CAUSE_LAST = cause ∧ (s.restart cause).drawer = s.drawer ∧ (s.restart cause).pending = s.pending ∧ (∀ a, a < lpddrBase → (s.restart cause).mem.cells.read a = s.mem.cells.read a))
  ∧ (∀ (s : State) (head bench : Bool), ∃ t, exec (.powerOnReset head bench) s = .next t ∧ t.boot.powered = true ∧ t.boot.head = head ∧ t.boot.bench = bench)
  ∧ (∀ s : State, s.up = true →
    (s.fld .GLB_STATE_STAGE = 0 → ∃ t, exec .refStable s = .next t ∧ t.fld .GLB_STATE_STAGE = 1 ∧ t.boot.refStable = true ∧ t.fld .CLK_STATE_REF_OK = 1 ∧ s.sameBut t [.boot, .regs])
    ∧ (s.fld .GLB_STATE_STAGE = 1 → s.boot.refStable = true → ∃ t, exec .pllStable s = .next t ∧ t.fld .GLB_STATE_STAGE = 2 ∧ t.boot.pllStable = true ∧ t.gauge = 0 ∧ t.fld .CLK_STATE_PLL_OK = 0xF
        ∧ (s.boot.head = true → t.gau = gauMaster ∧ t.fld .STV_STATE_ADDR_VALID = 1) ∧ s.sameBut t [.gauge, .boot, .regs])
    ∧ (∀ okOther, s.fld .GLB_STATE_STAGE = 2 → s.boot.pllStable = true →
        (s.running.present = true → s.pwr.shutdown = false → s.pwr.stuckDue = false → ∃ t, exec (.imageVerified true okOther) s = .next t ∧ t.fld .GLB_STATE_STAGE = 3 ∧ t.boot.imageOk = true
            ∧ t.word .GLB_FW_VER = BitVec.ofNat 32 s.running.version ∧ s.sameBut t [.boot, .regs])
        ∧ (∃ t, exec (.imageVerified false false) s = .next t ∧ t.fld .GLB_STATE_STAGE = 5 ∧ s.sameBut t [.regs])
        ∧ (s.other.present = true → s.other.rejected = true → ∃ t, exec (.imageVerified false okOther) s = .next t ∧ t.fld .GLB_STATE_STAGE = 5 ∧ s.sameBut t [.regs]))
    ∧ (s.fld .GLB_STATE_STAGE = 3 → s.boot.imageOk = true → s.boot.trained = false →
        (∃ t, exec (.lpddr5Trained []) s = .next t ∧ t.boot.trained = true ∧ s.sameBut t [.boot])
        ∧ (∀ c, c < 64 → ∃ t, exec (.lpddr5Trained [c]) s = .next t ∧ t.boot.trained = true ∧ t.fld .FLT_SPARES_CHAN_USED = 1 ∧ t.fld .FLT_SPARES_CHAN = c)
        ∧ (∀ c d, c < 64 → d < 64 → c ≠ d → ∃ t, exec (.lpddr5Trained [c, d]) s = .next t ∧ t.fld .GLB_STATE_STAGE = 6 ∧ t.flt.failed = true))
    ∧ (s.fld .GLB_STATE_STAGE = 3 → s.boot.trained = true → s.boot.cleared = false → ∃ t, exec (.memoryClearDone []) s = .next t ∧ t.boot.cleared = true ∧ s.sameBut t [.mem, .boot]
        ∧ (∀ a, a < lpddrBase ∨ drawerBase ≤ a → t.mem.cells.read a = s.mem.cells.read a) ∧ ∀ a, lpddrBase ≤ a → a < drawerBase → t.mem.cells.read a = 0)
    ∧ (∀ us, s.fld .GLB_STATE_STAGE = 3 → s.boot.cleared = true → ∃ t, exec (.settingsRestored us) s = .next t ∧ t.flag .GLB_STATE_READY = true ∧ t.fld .GLB_STATE_STAGE = 4 ∧ t.word .GLB_START_TIME = BitVec.ofNat 32 us ∧ t.boot.hasCommit = true))

/-- A write through a window of a size or alignment that the window does not take sets GLB_STS.ACCESS_ERR and writes nothing; a 64-bit write is two writes, the lower offset first (R456). A write that selects no register, or a page that does not answer, is dropped; through a realm's
window one whose bits realm software does not write is dropped too (R450, R455, R458). A write of firmware's to a register without a rule of its own writes the register's writable bits and keeps every other bit and every other register (R11). Through the management window a write to a page
of firmware's waits as a request, and REGISTER_REQUEST_APPLY applies the oldest (R457). -/
def Obligations.RegisterWritesTakeTheirBits : Prop :=
  (∀ (s : State) (w : Win) (off size v : Nat) (env : RegEnv), s.up = true →
    (accessOk off size = false → ∃ t, exec (.registerWrite w off size v env) s = .next t ∧ t.stsBit .GLB_STS 3 = true ∧ s.sameBut t eventParts)
    ∧ (off % 8 = 0 → exec (.registerWrite w off 8 v env) s = .next ((s.write32 w off (v % 2 ^ 32) env).write32 w (off + 4) (v / 2 ^ 32 % 2 ^ 32) env))
    ∧ (off % 4 = 0 → s.pageOf w off = none → msixWord w off = none → exec (.registerWrite w off 4 v env) s = .next s)
    ∧ (∀ k, off % 4 = 0 → s.pageOf w off = none → msixWord w off = some k → s.boot.pllStable = true → ∃ t, exec (.registerWrite w off 4 v env) s = .next t ∧ Tab.get (fun _ => 0) t.boot.msix k = BitVec.ofNat 32 (v % 2 ^ 32) ∧ s.sameBut t [.boot])
    ∧ (∀ b u, off % 4 = 0 → s.pageOf w off = some (b, u) →
        ((pageReg b off).row = none → exec (.registerWrite w off 4 v env) s = .next s)
        ∧ (s.openTo b u = false → exec (.registerWrite w off 4 v env) s = .next s)
        ∧ (∀ x, (pageReg b off).row = some x → s.openTo b u = true →
            (∀ r, w = .realm r → (s.windowOpen r = false ∨ s.realmMask r x u (s.selOf w x u) = 0) → exec (.registerWrite w off 4 v env) s = .next s)
            ∧ (w = .mgmt → mgmtDirect x.reg = false → realmOnly x.reg = false → ∃ t, exec (.registerWrite w off 4 v env) s = .next t ∧ t.boot.requests = s.boot.requests ++ [⟨x.reg.block, x.reg.off, u, v % 2 ^ 32⟩] ∧ s.sameBut t [.boot, .regs])
            ∧ (w = .fw → realmOnly x.reg = false → x.sqc = 0 → x.w1p = 0 → x.reg ∉ ruledRegs → ∃ t sel, exec (.registerWrite w off 4 v env) s = .next t ∧ sel = s.selOf .fw x u
                ∧ t.word x.reg u sel = ((s.word x.reg u sel &&& ~~~x.rw) ||| (BitVec.ofNat 32 v &&& x.rw)) ∧ s.sameBut t [.regs] ∧ s.regsBut t [x.reg.key u sel]))))
  ∧ (∀ (s : State) (env : RegEnv), s.up = true → s.flt.mpDown = false →
    (s.boot.requests = [] → exec (.registerRequestApply env) s = .next s)
    ∧ (∀ q l, s.boot.requests = q :: l → ∃ u : State, u.boot = { s.boot with requests := l } ∧ u.fld .GLB_STATE_REQ_PEND = satAt 255 l.length % 256 ∧ s.sameBut u [.boot, .regs] ∧ s.regsBut u [Reg.GLB_STATE.key 0 0]
        ∧ ((Reg.mk q.block q.off).row = none → exec (.registerRequestApply env) s = .next u)
        ∧ (∀ x, (Reg.mk q.block q.off).row = some x → u.openTo q.block q.unit = true → exec (.registerRequestApply env) s = .next (u.fwWrite x q.unit q.value env))))

/-- An event of an SQC register advances C when the register has been read since C last advanced, and gives each bit it sets C as its own value; a bit that would lie 128 values behind is carried to C - 127, and no other changes (R459). A read through firmware's page or the management window
marks the register read. A write with W = V[31:24] clears a bit b when (C - W) mod 256 is below 128, V[b] is 1 and (W - S_b) mod 256 is at most 127; it leaves every other bit and C (R460). -/
def Obligations.SequenceClearsKeepNewerBits : Prop :=
  (∀ (q : Sqc) (mask : List Nat), (q.event mask).c = (if q.read = true then (q.c + 1) % 256 else q.c) ∧ (q.event mask).read = false
    ∧ (∀ b ∈ mask, Tab.find b (q.event mask).setBits = some (q.event mask).c)
    ∧ (∀ b, b ∉ mask → Tab.find b (q.event mask).setBits = (Tab.find b q.setBits).map (fun v => if ((q.event mask).c + 256 - v) % 256 ≥ 128 then ((q.event mask).c + 129) % 256 else v)))
  ∧ (∀ (q : Sqc) (v b x : Nat), (q.setBits.map Prod.fst).Nodup → (q.write v).c = q.c ∧ (q.write v).read = q.read
    ∧ (Tab.find b q.setBits = some x → Tab.find b (q.write v).setBits = (if (q.c + 256 - v / 2 ^ 24 % 256) % 256 < 128 ∧ bit v b = true ∧ (v / 2 ^ 24 % 256 + 256 - x) % 256 ≤ 127 then none else some x))
    ∧ (Tab.find b q.setBits = none → Tab.find b (q.write v).setBits = none))
  ∧ (∀ (s : State) (w : Win) (off : Nat) (g : Reg) (u : Nat), s.up = true → off % 4 = 0 → s.sqcAt w off = some (g, u) → s.openTo g.block u = true →
    ((w = .fw ∨ (w = .mgmt ∧ s.boot.requests = [])) → ∃ t, exec (.sqcRead w off) s = .next t ∧ t.sqcOf g u = { s.sqcOf g u with read := true } ∧ s.sameBut t [.sqc])
    ∧ (∀ v, w = .fw → g ≠ .GLB_STS → realmOnly g = false → ∃ t, exec (.sqcWrite w off v) s = .next t ∧ t.sqcOf g u = (s.sqcOf g u).write (v % 2 ^ 32) ∧ s.sameBut t [.sqc]))

/-- A filtered change of RESET_N to asserted resets the die and holds it, and its release ends the hold; of FREEZE_N it freezes an armed module and is reported by an unarmed one; of ALERT_N it takes the module to survival power. A change to the level that stands does nothing. An input that is asserted for
10 s is stuck and loses its effect, unless the BENCH strap is tied; a fast input's end lets its level act again (R381, R446, R490, R497-R499). The supervisor's sample counts are the commands' operands (log entry 4). -/
def Obligations.SidebandInputsAct : Prop :=
  ∀ (s : State) (t : Nat), s.pwr.side.length = 3 →
    (∀ b, (s.side 1).level = b → exec (.resetNChange b t) s = .next s)
    ∧ (∀ b, (s.side 2).level = b → exec (.alertNChange b t) s = .next s)
    ∧ ((s.side 0).level = false → exec (.freezeNDeassert t) s = .next s)
    ∧ (s.side 1 = {} → ∃ u, exec (.resetNChange true t) s = .next u ∧ u.boot.resetHeld = true ∧ u.fld .GLB_RESET_CAUSE_LAST = 1 ∧ (u.side 1).level = true ∧ u.up = false)
    ∧ ((s.side 1).level = true → (s.side 1).fast = false → (s.side 1).changes = [] → (s.side 1).effect = true → ∃ u, exec (.resetNChange false t) s = .next u ∧ u.boot.resetHeld = false ∧ (u.side 1).level = false ∧ u.boot = { s.boot with resetHeld := false })
    ∧ (s.side 0 = {} → s.up = true → (s.freezeArmed = true → ∃ u, exec (.freezeNAssert t) s = .next u ∧ u.flt.frozen = true ∧ (u.side 0).level = true)
        ∧ (s.freezeArmed = false → ∃ u, exec (.freezeNAssert t) s = .next u ∧ u.flt.frozen = false ∧ u.stsBit .SEC_STS 3 = true ∧ (u.side 0).level = true))
    ∧ ((s.side 0).level = true → (s.side 0).fast = false → (s.side 0).changes = [] → ∃ u, exec (.freezeNDeassert t) s = .next u ∧ (u.side 0).level = false ∧ (u.side 0).stuck = false ∧ s.sameBut u [.pwr, .regs])
    ∧ (s.side 2 = {} → s.up = true → ∃ u, exec (.alertNChange true t) s = .next u ∧ (u.side 2).effect = true ∧ u.pwr.held = some (s.pwr.held.getD 4) ∧ u.flag .THM_STATE_SURVIVAL = true)
    ∧ (∀ i, i < 3 → (s.side i).level = true → (s.side i).stuck = false →
        (s.boot.bench = true → exec (.sidebandStuck i) s = .next s)
        ∧ (s.boot.bench = false → ∃ u, exec (.sidebandStuck i) s = .next u ∧ (u.side i).stuck = true ∧ (u.side i).effect = false ∧ (i = 1 → u.pwr.stuckDue = true ∧ ((s.side 1).effect = true → u.boot.resetHeld = false)) ∧ (i ≠ 1 → s.up = true → u.stsBit .PWR_STS 3 = true)))
    ∧ ((s.side 0).fast = true → ∃ u, exec (.sidebandFastEnd 0) s = .next u ∧ u.side 0 = { s.side 0 with fast := false, changes := [], count := 0, effect := (s.side 0).level && !(s.side 0).stuck } ∧ s.sameBut u [.pwr, .regs])
    ∧ (∀ i, (3 ≤ i ∨ (s.side i).fast = false) → exec (.sidebandFastEnd i) s = .next s)

/-- A host link reset leaves no ring pair, no event ring and no key, every RING_ register at its reset value, and sets GLB_STS.LINK_RESET; the Gauge carries on (R447). Link training takes the lane census: with 14 good lanes of 18 the map steers around the failed ones, and with fewer the lanes
stay straight; a lane that fails later is kept in the record, which CLEAR empties at the next census (R472-R476). A dip of the main rail takes the module to survival power until a second after its return; the loss of the main rail takes the die's power; the loss of the auxiliary rail is reported and stops
nothing (R479, R480). The dead and heard lanes and the far side's bitmap are the command's operands (log entry 4). -/
def Obligations.LinksAndRailsFail : Prop :=
  ∀ s : State, s.up = true →
    (s.boot.pllStable = true → ∃ t, exec .hostLinkReset s = .next t ∧ t.rings = [] ∧ t.evRings = [] ∧ t.keys = [] ∧ t.boot.linkUp = false ∧ t.stsBit .GLB_STS 4 = true ∧ t.gauge = s.gauge
        ∧ (∀ r n, r < 4 → n < 64 → t.word .RING_SIZE r n = Reg.RING_SIZE.resetWord ∧ t.word .RING_EQ_CFG r 0 = Reg.RING_EQ_CFG.resetWord))
    ∧ (∀ dead heard far width, s.boot.pllStable = true → s.boot.linkUp = false → ∃ t x, exec (.linkTraining dead heard far width) s = .next t ∧ x = s.pwr.lanes.census dead heard far ∧ t.boot.linkUp = true
        ∧ t.pwr.lanes = { x with width := if x.steering ∧ (laneMap true x.failed).length = 16 then 16 else width } ∧ s.sameBut t [.pwr, .boot]
        ∧ (x.steering = true ↔ 14 ≤ ((List.range 18).filter (fun k => heard.contains k && !dead.contains k)).length)
        ∧ (s.pwr.lanes.clear = false → ∀ k, bit s.pwr.lanes.record k = true → bit x.record k = true))
    ∧ (∀ lane, s.boot.linkUp = true → lane < 18 → ∃ t, exec (.laneFail lane) s = .next t ∧ bit t.pwr.lanes.record lane = true ∧ (∀ k, k ≠ lane → bit t.pwr.lanes.record k = bit s.pwr.lanes.record k) ∧ s.sameBut t [.pwr])
    ∧ (s.boot.linkUp = true → ∃ t, exec .laneRecordClear s = .next t ∧ t.pwr.lanes = { s.pwr.lanes with clear := true } ∧ s.sameBut t [.pwr])
    ∧ (∀ volt, ∃ t, exec (.mainDip volt) s = .next t ∧ t.pwr.dip = true ∧ t.flag .THM_STATE_SURVIVAL = true ∧ t.stsBit .PWR_STS 2 = true)
    ∧ (s.pwr.dip = true → s.pwr.back = none → ∃ t, exec .mainReturn s = .next t ∧ t.pwr = { s.pwr with back := some s.gauge } ∧ s.sameBut t [.pwr])
    ∧ (∀ x, s.pwr.back = some x → ∃ t, exec .dipRecoveryExpiry s = .next t ∧ t.gauge = max s.gauge (x + 320000000) ∧ t.pwr.dip = false ∧ t.pwr.back = none ∧ (s.pwr.held = none → t.flag .THM_STATE_SURVIVAL = false))
    ∧ (∃ t, exec .mainLoss s = .next t ∧ t.boot.powered = false ∧ t.up = false)
    ∧ (s.pwr.aux = true → ∃ t, exec .auxLost s = .next t ∧ t.pwr.aux = false ∧ t.stsBit .PWR_STS 5 = true ∧ t.up = true)
    ∧ (s.pwr.aux = false → exec .auxLost s = .next s)

/-- A coolant record of the wrong length, version or CRC changes nothing, whether read or raised by an interrupt; one that is accepted shows its temperatures and flow, and a flow below a tenth of the nominal or ALARM is a loss, with survival power. No record for 100 ms is STALE. Survival power ends after 10 s of
its conditions (R487-R492). A JUNCTION_READ shows each spot's readings; a reading above the trip threshold stops the lane and the ports with THM_STATE.TRIP; at 125 °C the supervisor removes power (R494, R495). POWER_MEASURE shows the power and the voltage, and at each ENVELOPE_UPDATE the envelope moves by no more than a step towards what is wanted
or falls to a cap below it, and each realm's window counts (R482-R486, R405). The readings and the demand are the commands' operands (log entry 4). -/
def Obligations.CoolantAndPowerAreHeld : Prop :=
  ∀ s : State, s.up = true →
    (∀ b, b.length ≠ 16 ∨ fieldOf b 0 1 ≠ 1 ∨ fieldOf b 0x0E 2 ≠ recordCrc (b.take 14) → exec (.coolantRecordRead b) s = .next s ∧ exec (.coolantIbi b) s = .next s)
    ∧ (∀ b, b.length = 16 → (∀ x ∈ b, x < 256) → fieldOf b 0 1 = 1 → fieldOf b 0x0E 2 = recordCrc (b.take 14) → bit (fieldOf b 1 1) 0 = true → s.pwr.seq ≠ some (fieldOf b 2 2) →
        ∃ t, exec (.coolantRecordRead b) s = .next t ∧ exec (.coolantIbi b) s = .next t ∧ t.pwr.seq = some (fieldOf b 2 2) ∧ t.pwr.lastAt = some s.gauge ∧ t.fld .THM_COOL_FLOW_FLOW = fieldOf b 8 2
          ∧ t.fld .THM_COOL_TEMP_T_IN = fieldOf b 4 2 ∧ t.fld .THM_COOL_TEMP_T_OUT = fieldOf b 6 2 ∧ (bit (fieldOf b 1 1) 1 = true → t.coolSt = coolLoss ∧ t.flag .THM_STATE_SURVIVAL = true))
    ∧ (∀ x, s.pwr.lastAt = some x → ∃ t, exec .coolantStale s = .next t ∧ t.gauge = max s.gauge (x + 32000000) ∧ t.coolSt = coolStale)
    ∧ (∀ x l, s.pwr.goodSince = some x → s.pwr.held = some l → s.pwr.dip = false → s.flag .THM_STATE_TRIP = false → s.coolEnough = true → survivalW ≤ s.pwr.cool.getD survivalW →
        ∃ t, exec .survivalExit s = .next t ∧ t.gauge = max s.gauge (x + 3200000000) ∧ t.pwr.held = none ∧ t.flag .THM_STATE_SURVIVAL = false ∧ t.stsBit .THM_STS 2 = true)
    ∧ (∀ rs, ∃ t, exec (.junctionRead rs) s = .next t ∧ ∀ i < 16, t.fld .THM_SPOT_READ_A 0 i = spotCode (rs.getD i (none, none)).1 (s.fld .THM_SPOT_READ_A 0 i) % 1024
        ∧ t.fld .THM_SPOT_READ_B 0 i = spotCode (rs.getD i (none, none)).2 (s.fld .THM_SPOT_READ_B 0 i) % 1024)
    ∧ (∀ rs : List (Option Int × Option Int), s.pwr.spots = [] → s.flag .THM_STATE_TRIP = false → s.flag .CTL_CTRL_LANE_EN = false → rs = List.replicate 16 (some 240, some 240) →
        ∃ t, exec (.junctionRead rs) s = .next t ∧ t.flag .THM_STATE_TRIP = true ∧ t.stsBit .THM_STS 5 = true)
    ∧ (s.boot.powered = true → ∃ t, exec .junctionShutdown s = .next t ∧ t.boot.powered = false ∧ t.pwr.shutdown = true ∧ t.up = false)
    ∧ (∀ power volt, ∃ t, exec (.powerMeasure power volt) s = .next t ∧ t.fld .PWR_IN_POWER = min 4095 power ∧ t.fld .PWR_IN_V_MAIN = min 4095 volt ∧ t.gauge = s.gauge)
    ∧ (∀ demand rlm, ∃ t, exec (.envelopeUpdate demand rlm) s = .next t ∧ t.pwr.env ≤ s.pwr.env + 50 ∧ (∀ c ∈ t.otherCaps, t.pwr.env ≤ c.1 * t.wattParts)
        ∧ ∀ r < 4, t.fld .PWR_RLM_POWER_WATTS 0 r = min 1023 (rlm.getD r 0) ∧ t.fld .PWR_RLM_POWER_WINDOW 0 r = (s.fld .PWR_RLM_POWER_WINDOW 0 r + 1) % 2 ^ 16)

/-- After reset the registers hold the Reset values that their tables give, here of one register and more of every page; no status bit is set, no command waits, and the Gauge is at 0 (R12, R446). -/
def Obligations.ResetLeavesTheGivenValues : Prop :=
  State.reset.gauge = 0 ∧ State.reset.pending = [] ∧ (∀ r b u, State.reset.stsBit r b u = false) ∧ State.reset.fld .GLB_STATE_STAGE = 0 ∧ State.reset.flag .GLB_STATE_READY = false
  ∧ (∀ (r : Reg) (u sel : Nat), u < 1024 → sel < 1024 → r.off % 4 = 0 → r.off < 256 → State.reset.word r u sel = r.resetWord)

/-- Writing an event record or setting status bits changes the event rings, RING_EQ_DROP, RING_STS, the sources' SEQ and firmware's queue alone; the bits set are set after it and no status bit is cleared; no byte of the module's own stores changes (R204-R207, R459).
A started descriptor completes in order: it leaves its ring pair, CQ_TAIL advances by one slot of the ring's size, and STATUS stands in the record of that slot; no register of another block and no store of the module changes (R176-R178, R199). -/
def Obligations.RecordsTouchRecordPartsOnly : Prop :=
  (∀ (s : State) (src cls code realm payload : Nat), s.sameBut (s.emit src cls code realm payload) eventParts ∧ s.storesKept (s.emit src cls code realm payload)
    ∧ (∀ r u b, s.stsBit r b u = true → (s.emit src cls code realm payload).stsBit r b u = true)
    ∧ (∀ k, (∀ q < 4, k ≠ Reg.RING_EQ_DROP.key q 0) → Tab.get regDefault (s.emit src cls code realm payload).regs k = Tab.get regDefault s.regs k))
  ∧ (∀ (s : State) (r : Reg) (mask : List Nat) (u : Nat), s.sameBut (s.setSts r mask u) eventParts ∧ s.storesKept (s.setSts r mask u) ∧ (∀ b ∈ mask, (s.setSts r mask u).stsBit r b u = true)
    ∧ (∀ g v b, s.stsBit g b v = true → (s.setSts r mask u).stsBit g b v = true))
  ∧ (∀ (s : State) (r n : Nat) (d : Desc) (st : Nat), s.recordable r n d → s.completed (s.done r n d.uid st) r n d st ∧ s.sameBut (s.done r n d.uid st) recordParts ∧ s.storesKept (s.done r n d.uid st)
    ∧ (∀ r' n', (r' ≠ r ∨ n' ≠ n) → r < 4 → r' < 4 → n < 64 → n' < 64 → (s.done r n d.uid st).ring r' n' = s.ring r' n'))

/-- A store is read back as it was written, byte by byte, and every byte outside it reads as before; a field reads what was last written to it, cut to its width, and no field of another register or beside it changes. -/
def Obligations.StoresReadBack : Prop :=
  (∀ (m : Memory) (a : Nat) (bs : List Nat), m.wf = true → (m.store a bs).wf = true ∧ (∀ b, (b < a ∨ a + bs.length ≤ b) → (m.store a bs).read b = m.read b) ∧ ∀ i (h : i < bs.length), (m.store a bs).read (a + i) = BitVec.ofNat 8 bs[i])
  ∧ (∀ (s : State) (f : Fld) (v u sel : Nat), f.fits → (s.setFld f v u sel).fld f u sel = v % 2 ^ f.width ∧ s.sameBut (s.setFld f v u sel) [.regs] ∧ s.regsBut (s.setFld f v u sel) [f.reg.key u sel]
    ∧ ∀ g : Fld, g.fits → g.reg = f.reg → (f.lo + f.width ≤ g.lo ∨ g.lo + g.width ≤ f.lo) → (s.setFld f v u sel).fld g u sel = s.fld g u sel)

/-- From every frozen state in which no command of the supervisor's waits, a step leaves the module frozen and changes nothing at all but the queue: it does no work and answers no host access (R382, R446). -/
def Obligations.AFrozenModuleStaysFrozen : Prop :=
  ∀ s t : State, s.frozenInv → step s = .next t → t.frozenInv ∧ s.sameBut t [.pending]

/-- An armed module that takes a FREEZE of firmware's with no other command waiting is in the frozen state (R381). -/
def Obligations.AFreezeReachesTheFrozenState : Prop :=
  ∀ s t : State, s.pending = [.freeze .fw] → s.openTo 12 0 = true → s.freezeArmed = true → step s = .next t → t.frozenInv
end

