-- ==== Sys2Proof/Laws/State.lean ====
section
/-! SUPPORT. What each update of the state leaves as it was, and what it writes: one lemma per field, each true by unfolding once. -/

namespace Sys2Proof.Machine

variable (s : State)

/-! ### setWord -/

@[simp] theorem State.setWord_gauge (r : Reg) (u sel : Nat) (w : Word) : (s.setWord r u sel w).gauge = s.gauge := rfl
@[simp] theorem State.setWord_free (r : Reg) (u sel : Nat) (w : Word) : (s.setWord r u sel w).free = s.free := rfl
@[simp] theorem State.setWord_mem (r : Reg) (u sel : Nat) (w : Word) : (s.setWord r u sel w).mem = s.mem := rfl
@[simp] theorem State.setWord_regs (r : Reg) (u sel : Nat) (w : Word) : (s.setWord r u sel w).regs = Tab.set regDefault (r.key u sel) w s.regs := rfl
@[simp] theorem State.setWord_sqc (r : Reg) (u sel : Nat) (w : Word) : (s.setWord r u sel w).sqc = s.sqc := rfl
@[simp] theorem State.setWord_evSeq (r : Reg) (u sel : Nat) (w : Word) : (s.setWord r u sel w).evSeq = s.evSeq := rfl
@[simp] theorem State.setWord_queues (r : Reg) (u sel : Nat) (w : Word) : (s.setWord r u sel w).queues = s.queues := rfl
@[simp] theorem State.setWord_rings (r : Reg) (u sel : Nat) (w : Word) : (s.setWord r u sel w).rings = s.rings := rfl
@[simp] theorem State.setWord_evRings (r : Reg) (u sel : Nat) (w : Word) : (s.setWord r u sel w).evRings = s.evRings := rfl
@[simp] theorem State.setWord_nextUid (r : Reg) (u sel : Nat) (w : Word) : (s.setWord r u sel w).nextUid = s.nextUid := rfl
@[simp] theorem State.setWord_jobs (r : Reg) (u sel : Nat) (w : Word) : (s.setWord r u sel w).jobs = s.jobs := rfl
@[simp] theorem State.setWord_tiles (r : Reg) (u sel : Nat) (w : Word) : (s.setWord r u sel w).tiles = s.tiles := rfl
@[simp] theorem State.setWord_clusters (r : Reg) (u sel : Nat) (w : Word) : (s.setWord r u sel w).clusters = s.clusters := rfl
@[simp] theorem State.setWord_cluMap (r : Reg) (u sel : Nat) (w : Word) : (s.setWord r u sel w).cluMap = s.cluMap := rfl
@[simp] theorem State.setWord_tileMap (r : Reg) (u sel : Nat) (w : Word) : (s.setWord r u sel w).tileMap = s.tileMap := rfl
@[simp] theorem State.setWord_kvm (r : Reg) (u sel : Nat) (w : Word) : (s.setWord r u sel w).kvm = s.kvm := rfl
@[simp] theorem State.setWord_srv (r : Reg) (u sel : Nat) (w : Word) : (s.setWord r u sel w).srv = s.srv := rfl
@[simp] theorem State.setWord_realms (r : Reg) (u sel : Nat) (w : Word) : (s.setWord r u sel w).realms = s.realms := rfl
@[simp] theorem State.setWord_keys (r : Reg) (u sel : Nat) (w : Word) : (s.setWord r u sel w).keys = s.keys := rfl
@[simp] theorem State.setWord_laneTiles (r : Reg) (u sel : Nat) (w : Word) : (s.setWord r u sel w).laneTiles = s.laneTiles := rfl
@[simp] theorem State.setWord_laneParts (r : Reg) (u sel : Nat) (w : Word) : (s.setWord r u sel w).laneParts = s.laneParts := rfl
@[simp] theorem State.setWord_lane (r : Reg) (u sel : Nat) (w : Word) : (s.setWord r u sel w).lane = s.lane := rfl
@[simp] theorem State.setWord_vid (r : Reg) (u sel : Nat) (w : Word) : (s.setWord r u sel w).vid = s.vid := rfl
@[simp] theorem State.setWord_boot (r : Reg) (u sel : Nat) (w : Word) : (s.setWord r u sel w).boot = s.boot := rfl
@[simp] theorem State.setWord_flt (r : Reg) (u sel : Nat) (w : Word) : (s.setWord r u sel w).flt = s.flt := rfl
@[simp] theorem State.setWord_drawer (r : Reg) (u sel : Nat) (w : Word) : (s.setWord r u sel w).drawer = s.drawer := rfl
@[simp] theorem State.setWord_det (r : Reg) (u sel : Nat) (w : Word) : (s.setWord r u sel w).det = s.det := rfl
@[simp] theorem State.setWord_clk (r : Reg) (u sel : Nat) (w : Word) : (s.setWord r u sel w).clk = s.clk := rfl
@[simp] theorem State.setWord_stave (r : Reg) (u sel : Nat) (w : Word) : (s.setWord r u sel w).stave = s.stave := rfl
@[simp] theorem State.setWord_sec (r : Reg) (u sel : Nat) (w : Word) : (s.setWord r u sel w).sec = s.sec := rfl
@[simp] theorem State.setWord_pwr (r : Reg) (u sel : Nat) (w : Word) : (s.setWord r u sel w).pwr = s.pwr := rfl
@[simp] theorem State.setWord_out (r : Reg) (u sel : Nat) (w : Word) : (s.setWord r u sel w).out = s.out := rfl
@[simp] theorem State.setWord_pending (r : Reg) (u sel : Nat) (w : Word) : (s.setWord r u sel w).pending = s.pending := rfl

/-! ### setFld -/

@[simp] theorem State.setFld_gauge (f : Fld) (v u sel : Nat) : (s.setFld f v u sel).gauge = s.gauge := rfl
@[simp] theorem State.setFld_free (f : Fld) (v u sel : Nat) : (s.setFld f v u sel).free = s.free := rfl
@[simp] theorem State.setFld_mem (f : Fld) (v u sel : Nat) : (s.setFld f v u sel).mem = s.mem := rfl
@[simp] theorem State.setFld_regs (f : Fld) (v u sel : Nat) : (s.setFld f v u sel).regs = Tab.set regDefault (f.reg.key u sel) (f.into v (s.word f.reg u sel)) s.regs := rfl
@[simp] theorem State.setFld_sqc (f : Fld) (v u sel : Nat) : (s.setFld f v u sel).sqc = s.sqc := rfl
@[simp] theorem State.setFld_evSeq (f : Fld) (v u sel : Nat) : (s.setFld f v u sel).evSeq = s.evSeq := rfl
@[simp] theorem State.setFld_queues (f : Fld) (v u sel : Nat) : (s.setFld f v u sel).queues = s.queues := rfl
@[simp] theorem State.setFld_rings (f : Fld) (v u sel : Nat) : (s.setFld f v u sel).rings = s.rings := rfl
@[simp] theorem State.setFld_evRings (f : Fld) (v u sel : Nat) : (s.setFld f v u sel).evRings = s.evRings := rfl
@[simp] theorem State.setFld_nextUid (f : Fld) (v u sel : Nat) : (s.setFld f v u sel).nextUid = s.nextUid := rfl
@[simp] theorem State.setFld_jobs (f : Fld) (v u sel : Nat) : (s.setFld f v u sel).jobs = s.jobs := rfl
@[simp] theorem State.setFld_tiles (f : Fld) (v u sel : Nat) : (s.setFld f v u sel).tiles = s.tiles := rfl
@[simp] theorem State.setFld_clusters (f : Fld) (v u sel : Nat) : (s.setFld f v u sel).clusters = s.clusters := rfl
@[simp] theorem State.setFld_cluMap (f : Fld) (v u sel : Nat) : (s.setFld f v u sel).cluMap = s.cluMap := rfl
@[simp] theorem State.setFld_tileMap (f : Fld) (v u sel : Nat) : (s.setFld f v u sel).tileMap = s.tileMap := rfl
@[simp] theorem State.setFld_kvm (f : Fld) (v u sel : Nat) : (s.setFld f v u sel).kvm = s.kvm := rfl
@[simp] theorem State.setFld_srv (f : Fld) (v u sel : Nat) : (s.setFld f v u sel).srv = s.srv := rfl
@[simp] theorem State.setFld_realms (f : Fld) (v u sel : Nat) : (s.setFld f v u sel).realms = s.realms := rfl
@[simp] theorem State.setFld_keys (f : Fld) (v u sel : Nat) : (s.setFld f v u sel).keys = s.keys := rfl
@[simp] theorem State.setFld_laneTiles (f : Fld) (v u sel : Nat) : (s.setFld f v u sel).laneTiles = s.laneTiles := rfl
@[simp] theorem State.setFld_laneParts (f : Fld) (v u sel : Nat) : (s.setFld f v u sel).laneParts = s.laneParts := rfl
@[simp] theorem State.setFld_lane (f : Fld) (v u sel : Nat) : (s.setFld f v u sel).lane = s.lane := rfl
@[simp] theorem State.setFld_vid (f : Fld) (v u sel : Nat) : (s.setFld f v u sel).vid = s.vid := rfl
@[simp] theorem State.setFld_boot (f : Fld) (v u sel : Nat) : (s.setFld f v u sel).boot = s.boot := rfl
@[simp] theorem State.setFld_flt (f : Fld) (v u sel : Nat) : (s.setFld f v u sel).flt = s.flt := rfl
@[simp] theorem State.setFld_drawer (f : Fld) (v u sel : Nat) : (s.setFld f v u sel).drawer = s.drawer := rfl
@[simp] theorem State.setFld_det (f : Fld) (v u sel : Nat) : (s.setFld f v u sel).det = s.det := rfl
@[simp] theorem State.setFld_clk (f : Fld) (v u sel : Nat) : (s.setFld f v u sel).clk = s.clk := rfl
@[simp] theorem State.setFld_stave (f : Fld) (v u sel : Nat) : (s.setFld f v u sel).stave = s.stave := rfl
@[simp] theorem State.setFld_sec (f : Fld) (v u sel : Nat) : (s.setFld f v u sel).sec = s.sec := rfl
@[simp] theorem State.setFld_pwr (f : Fld) (v u sel : Nat) : (s.setFld f v u sel).pwr = s.pwr := rfl
@[simp] theorem State.setFld_out (f : Fld) (v u sel : Nat) : (s.setFld f v u sel).out = s.out := rfl
@[simp] theorem State.setFld_pending (f : Fld) (v u sel : Nat) : (s.setFld f v u sel).pending = s.pending := rfl

/-! ### bumpSat -/

@[simp] theorem State.bumpSat_gauge (f : Fld) (n u sel : Nat) : (s.bumpSat f n u sel).gauge = s.gauge := rfl
@[simp] theorem State.bumpSat_free (f : Fld) (n u sel : Nat) : (s.bumpSat f n u sel).free = s.free := rfl
@[simp] theorem State.bumpSat_mem (f : Fld) (n u sel : Nat) : (s.bumpSat f n u sel).mem = s.mem := rfl
@[simp] theorem State.bumpSat_sqc (f : Fld) (n u sel : Nat) : (s.bumpSat f n u sel).sqc = s.sqc := rfl
@[simp] theorem State.bumpSat_evSeq (f : Fld) (n u sel : Nat) : (s.bumpSat f n u sel).evSeq = s.evSeq := rfl
@[simp] theorem State.bumpSat_queues (f : Fld) (n u sel : Nat) : (s.bumpSat f n u sel).queues = s.queues := rfl
@[simp] theorem State.bumpSat_rings (f : Fld) (n u sel : Nat) : (s.bumpSat f n u sel).rings = s.rings := rfl
@[simp] theorem State.bumpSat_evRings (f : Fld) (n u sel : Nat) : (s.bumpSat f n u sel).evRings = s.evRings := rfl
@[simp] theorem State.bumpSat_nextUid (f : Fld) (n u sel : Nat) : (s.bumpSat f n u sel).nextUid = s.nextUid := rfl
@[simp] theorem State.bumpSat_jobs (f : Fld) (n u sel : Nat) : (s.bumpSat f n u sel).jobs = s.jobs := rfl
@[simp] theorem State.bumpSat_tiles (f : Fld) (n u sel : Nat) : (s.bumpSat f n u sel).tiles = s.tiles := rfl
@[simp] theorem State.bumpSat_clusters (f : Fld) (n u sel : Nat) : (s.bumpSat f n u sel).clusters = s.clusters := rfl
@[simp] theorem State.bumpSat_cluMap (f : Fld) (n u sel : Nat) : (s.bumpSat f n u sel).cluMap = s.cluMap := rfl
@[simp] theorem State.bumpSat_tileMap (f : Fld) (n u sel : Nat) : (s.bumpSat f n u sel).tileMap = s.tileMap := rfl
@[simp] theorem State.bumpSat_kvm (f : Fld) (n u sel : Nat) : (s.bumpSat f n u sel).kvm = s.kvm := rfl
@[simp] theorem State.bumpSat_srv (f : Fld) (n u sel : Nat) : (s.bumpSat f n u sel).srv = s.srv := rfl
@[simp] theorem State.bumpSat_realms (f : Fld) (n u sel : Nat) : (s.bumpSat f n u sel).realms = s.realms := rfl
@[simp] theorem State.bumpSat_keys (f : Fld) (n u sel : Nat) : (s.bumpSat f n u sel).keys = s.keys := rfl
@[simp] theorem State.bumpSat_laneTiles (f : Fld) (n u sel : Nat) : (s.bumpSat f n u sel).laneTiles = s.laneTiles := rfl
@[simp] theorem State.bumpSat_laneParts (f : Fld) (n u sel : Nat) : (s.bumpSat f n u sel).laneParts = s.laneParts := rfl
@[simp] theorem State.bumpSat_lane (f : Fld) (n u sel : Nat) : (s.bumpSat f n u sel).lane = s.lane := rfl
@[simp] theorem State.bumpSat_vid (f : Fld) (n u sel : Nat) : (s.bumpSat f n u sel).vid = s.vid := rfl
@[simp] theorem State.bumpSat_boot (f : Fld) (n u sel : Nat) : (s.bumpSat f n u sel).boot = s.boot := rfl
@[simp] theorem State.bumpSat_flt (f : Fld) (n u sel : Nat) : (s.bumpSat f n u sel).flt = s.flt := rfl
@[simp] theorem State.bumpSat_drawer (f : Fld) (n u sel : Nat) : (s.bumpSat f n u sel).drawer = s.drawer := rfl
@[simp] theorem State.bumpSat_det (f : Fld) (n u sel : Nat) : (s.bumpSat f n u sel).det = s.det := rfl
@[simp] theorem State.bumpSat_clk (f : Fld) (n u sel : Nat) : (s.bumpSat f n u sel).clk = s.clk := rfl
@[simp] theorem State.bumpSat_stave (f : Fld) (n u sel : Nat) : (s.bumpSat f n u sel).stave = s.stave := rfl
@[simp] theorem State.bumpSat_sec (f : Fld) (n u sel : Nat) : (s.bumpSat f n u sel).sec = s.sec := rfl
@[simp] theorem State.bumpSat_pwr (f : Fld) (n u sel : Nat) : (s.bumpSat f n u sel).pwr = s.pwr := rfl
@[simp] theorem State.bumpSat_out (f : Fld) (n u sel : Nat) : (s.bumpSat f n u sel).out = s.out := rfl
@[simp] theorem State.bumpSat_pending (f : Fld) (n u sel : Nat) : (s.bumpSat f n u sel).pending = s.pending := rfl

/-! ### bumpWrap -/

@[simp] theorem State.bumpWrap_gauge (f : Fld) (n u sel : Nat) : (s.bumpWrap f n u sel).gauge = s.gauge := rfl
@[simp] theorem State.bumpWrap_free (f : Fld) (n u sel : Nat) : (s.bumpWrap f n u sel).free = s.free := rfl
@[simp] theorem State.bumpWrap_mem (f : Fld) (n u sel : Nat) : (s.bumpWrap f n u sel).mem = s.mem := rfl
@[simp] theorem State.bumpWrap_sqc (f : Fld) (n u sel : Nat) : (s.bumpWrap f n u sel).sqc = s.sqc := rfl
@[simp] theorem State.bumpWrap_evSeq (f : Fld) (n u sel : Nat) : (s.bumpWrap f n u sel).evSeq = s.evSeq := rfl
@[simp] theorem State.bumpWrap_queues (f : Fld) (n u sel : Nat) : (s.bumpWrap f n u sel).queues = s.queues := rfl
@[simp] theorem State.bumpWrap_rings (f : Fld) (n u sel : Nat) : (s.bumpWrap f n u sel).rings = s.rings := rfl
@[simp] theorem State.bumpWrap_evRings (f : Fld) (n u sel : Nat) : (s.bumpWrap f n u sel).evRings = s.evRings := rfl
@[simp] theorem State.bumpWrap_nextUid (f : Fld) (n u sel : Nat) : (s.bumpWrap f n u sel).nextUid = s.nextUid := rfl
@[simp] theorem State.bumpWrap_jobs (f : Fld) (n u sel : Nat) : (s.bumpWrap f n u sel).jobs = s.jobs := rfl
@[simp] theorem State.bumpWrap_tiles (f : Fld) (n u sel : Nat) : (s.bumpWrap f n u sel).tiles = s.tiles := rfl
@[simp] theorem State.bumpWrap_clusters (f : Fld) (n u sel : Nat) : (s.bumpWrap f n u sel).clusters = s.clusters := rfl
@[simp] theorem State.bumpWrap_cluMap (f : Fld) (n u sel : Nat) : (s.bumpWrap f n u sel).cluMap = s.cluMap := rfl
@[simp] theorem State.bumpWrap_tileMap (f : Fld) (n u sel : Nat) : (s.bumpWrap f n u sel).tileMap = s.tileMap := rfl
@[simp] theorem State.bumpWrap_kvm (f : Fld) (n u sel : Nat) : (s.bumpWrap f n u sel).kvm = s.kvm := rfl
@[simp] theorem State.bumpWrap_srv (f : Fld) (n u sel : Nat) : (s.bumpWrap f n u sel).srv = s.srv := rfl
@[simp] theorem State.bumpWrap_realms (f : Fld) (n u sel : Nat) : (s.bumpWrap f n u sel).realms = s.realms := rfl
@[simp] theorem State.bumpWrap_keys (f : Fld) (n u sel : Nat) : (s.bumpWrap f n u sel).keys = s.keys := rfl
@[simp] theorem State.bumpWrap_laneTiles (f : Fld) (n u sel : Nat) : (s.bumpWrap f n u sel).laneTiles = s.laneTiles := rfl
@[simp] theorem State.bumpWrap_laneParts (f : Fld) (n u sel : Nat) : (s.bumpWrap f n u sel).laneParts = s.laneParts := rfl
@[simp] theorem State.bumpWrap_lane (f : Fld) (n u sel : Nat) : (s.bumpWrap f n u sel).lane = s.lane := rfl
@[simp] theorem State.bumpWrap_vid (f : Fld) (n u sel : Nat) : (s.bumpWrap f n u sel).vid = s.vid := rfl
@[simp] theorem State.bumpWrap_boot (f : Fld) (n u sel : Nat) : (s.bumpWrap f n u sel).boot = s.boot := rfl
@[simp] theorem State.bumpWrap_flt (f : Fld) (n u sel : Nat) : (s.bumpWrap f n u sel).flt = s.flt := rfl
@[simp] theorem State.bumpWrap_drawer (f : Fld) (n u sel : Nat) : (s.bumpWrap f n u sel).drawer = s.drawer := rfl
@[simp] theorem State.bumpWrap_det (f : Fld) (n u sel : Nat) : (s.bumpWrap f n u sel).det = s.det := rfl
@[simp] theorem State.bumpWrap_clk (f : Fld) (n u sel : Nat) : (s.bumpWrap f n u sel).clk = s.clk := rfl
@[simp] theorem State.bumpWrap_stave (f : Fld) (n u sel : Nat) : (s.bumpWrap f n u sel).stave = s.stave := rfl
@[simp] theorem State.bumpWrap_sec (f : Fld) (n u sel : Nat) : (s.bumpWrap f n u sel).sec = s.sec := rfl
@[simp] theorem State.bumpWrap_pwr (f : Fld) (n u sel : Nat) : (s.bumpWrap f n u sel).pwr = s.pwr := rfl
@[simp] theorem State.bumpWrap_out (f : Fld) (n u sel : Nat) : (s.bumpWrap f n u sel).out = s.out := rfl
@[simp] theorem State.bumpWrap_pending (f : Fld) (n u sel : Nat) : (s.bumpWrap f n u sel).pending = s.pending := rfl

/-! ### setTile -/

@[simp] theorem State.setTile_gauge (p : Nat) (x : Tile) : (s.setTile p x).gauge = s.gauge := rfl
@[simp] theorem State.setTile_free (p : Nat) (x : Tile) : (s.setTile p x).free = s.free := rfl
@[simp] theorem State.setTile_mem (p : Nat) (x : Tile) : (s.setTile p x).mem = s.mem := rfl
@[simp] theorem State.setTile_regs (p : Nat) (x : Tile) : (s.setTile p x).regs = s.regs := rfl
@[simp] theorem State.setTile_sqc (p : Nat) (x : Tile) : (s.setTile p x).sqc = s.sqc := rfl
@[simp] theorem State.setTile_evSeq (p : Nat) (x : Tile) : (s.setTile p x).evSeq = s.evSeq := rfl
@[simp] theorem State.setTile_queues (p : Nat) (x : Tile) : (s.setTile p x).queues = s.queues := rfl
@[simp] theorem State.setTile_rings (p : Nat) (x : Tile) : (s.setTile p x).rings = s.rings := rfl
@[simp] theorem State.setTile_evRings (p : Nat) (x : Tile) : (s.setTile p x).evRings = s.evRings := rfl
@[simp] theorem State.setTile_nextUid (p : Nat) (x : Tile) : (s.setTile p x).nextUid = s.nextUid := rfl
@[simp] theorem State.setTile_jobs (p : Nat) (x : Tile) : (s.setTile p x).jobs = s.jobs := rfl
@[simp] theorem State.setTile_tiles (p : Nat) (x : Tile) : (s.setTile p x).tiles = Tab.set (fun _ => {}) p x s.tiles := rfl
@[simp] theorem State.setTile_clusters (p : Nat) (x : Tile) : (s.setTile p x).clusters = s.clusters := rfl
@[simp] theorem State.setTile_cluMap (p : Nat) (x : Tile) : (s.setTile p x).cluMap = s.cluMap := rfl
@[simp] theorem State.setTile_tileMap (p : Nat) (x : Tile) : (s.setTile p x).tileMap = s.tileMap := rfl
@[simp] theorem State.setTile_kvm (p : Nat) (x : Tile) : (s.setTile p x).kvm = s.kvm := rfl
@[simp] theorem State.setTile_srv (p : Nat) (x : Tile) : (s.setTile p x).srv = s.srv := rfl
@[simp] theorem State.setTile_realms (p : Nat) (x : Tile) : (s.setTile p x).realms = s.realms := rfl
@[simp] theorem State.setTile_keys (p : Nat) (x : Tile) : (s.setTile p x).keys = s.keys := rfl
@[simp] theorem State.setTile_laneTiles (p : Nat) (x : Tile) : (s.setTile p x).laneTiles = s.laneTiles := rfl
@[simp] theorem State.setTile_laneParts (p : Nat) (x : Tile) : (s.setTile p x).laneParts = s.laneParts := rfl
@[simp] theorem State.setTile_lane (p : Nat) (x : Tile) : (s.setTile p x).lane = s.lane := rfl
@[simp] theorem State.setTile_vid (p : Nat) (x : Tile) : (s.setTile p x).vid = s.vid := rfl
@[simp] theorem State.setTile_boot (p : Nat) (x : Tile) : (s.setTile p x).boot = s.boot := rfl
@[simp] theorem State.setTile_flt (p : Nat) (x : Tile) : (s.setTile p x).flt = s.flt := rfl
@[simp] theorem State.setTile_drawer (p : Nat) (x : Tile) : (s.setTile p x).drawer = s.drawer := rfl
@[simp] theorem State.setTile_det (p : Nat) (x : Tile) : (s.setTile p x).det = s.det := rfl
@[simp] theorem State.setTile_clk (p : Nat) (x : Tile) : (s.setTile p x).clk = s.clk := rfl
@[simp] theorem State.setTile_stave (p : Nat) (x : Tile) : (s.setTile p x).stave = s.stave := rfl
@[simp] theorem State.setTile_sec (p : Nat) (x : Tile) : (s.setTile p x).sec = s.sec := rfl
@[simp] theorem State.setTile_pwr (p : Nat) (x : Tile) : (s.setTile p x).pwr = s.pwr := rfl
@[simp] theorem State.setTile_out (p : Nat) (x : Tile) : (s.setTile p x).out = s.out := rfl
@[simp] theorem State.setTile_pending (p : Nat) (x : Tile) : (s.setTile p x).pending = s.pending := rfl

/-! ### setCluster -/

@[simp] theorem State.setCluster_gauge (c : Nat) (x : Cluster) : (s.setCluster c x).gauge = s.gauge := rfl
@[simp] theorem State.setCluster_free (c : Nat) (x : Cluster) : (s.setCluster c x).free = s.free := rfl
@[simp] theorem State.setCluster_mem (c : Nat) (x : Cluster) : (s.setCluster c x).mem = s.mem := rfl
@[simp] theorem State.setCluster_regs (c : Nat) (x : Cluster) : (s.setCluster c x).regs = s.regs := rfl
@[simp] theorem State.setCluster_sqc (c : Nat) (x : Cluster) : (s.setCluster c x).sqc = s.sqc := rfl
@[simp] theorem State.setCluster_evSeq (c : Nat) (x : Cluster) : (s.setCluster c x).evSeq = s.evSeq := rfl
@[simp] theorem State.setCluster_queues (c : Nat) (x : Cluster) : (s.setCluster c x).queues = s.queues := rfl
@[simp] theorem State.setCluster_rings (c : Nat) (x : Cluster) : (s.setCluster c x).rings = s.rings := rfl
@[simp] theorem State.setCluster_evRings (c : Nat) (x : Cluster) : (s.setCluster c x).evRings = s.evRings := rfl
@[simp] theorem State.setCluster_nextUid (c : Nat) (x : Cluster) : (s.setCluster c x).nextUid = s.nextUid := rfl
@[simp] theorem State.setCluster_jobs (c : Nat) (x : Cluster) : (s.setCluster c x).jobs = s.jobs := rfl
@[simp] theorem State.setCluster_tiles (c : Nat) (x : Cluster) : (s.setCluster c x).tiles = s.tiles := rfl
@[simp] theorem State.setCluster_clusters (c : Nat) (x : Cluster) : (s.setCluster c x).clusters = Tab.set (fun _ => {}) c x s.clusters := rfl
@[simp] theorem State.setCluster_cluMap (c : Nat) (x : Cluster) : (s.setCluster c x).cluMap = s.cluMap := rfl
@[simp] theorem State.setCluster_tileMap (c : Nat) (x : Cluster) : (s.setCluster c x).tileMap = s.tileMap := rfl
@[simp] theorem State.setCluster_kvm (c : Nat) (x : Cluster) : (s.setCluster c x).kvm = s.kvm := rfl
@[simp] theorem State.setCluster_srv (c : Nat) (x : Cluster) : (s.setCluster c x).srv = s.srv := rfl
@[simp] theorem State.setCluster_realms (c : Nat) (x : Cluster) : (s.setCluster c x).realms = s.realms := rfl
@[simp] theorem State.setCluster_keys (c : Nat) (x : Cluster) : (s.setCluster c x).keys = s.keys := rfl
@[simp] theorem State.setCluster_laneTiles (c : Nat) (x : Cluster) : (s.setCluster c x).laneTiles = s.laneTiles := rfl
@[simp] theorem State.setCluster_laneParts (c : Nat) (x : Cluster) : (s.setCluster c x).laneParts = s.laneParts := rfl
@[simp] theorem State.setCluster_lane (c : Nat) (x : Cluster) : (s.setCluster c x).lane = s.lane := rfl
@[simp] theorem State.setCluster_vid (c : Nat) (x : Cluster) : (s.setCluster c x).vid = s.vid := rfl
@[simp] theorem State.setCluster_boot (c : Nat) (x : Cluster) : (s.setCluster c x).boot = s.boot := rfl
@[simp] theorem State.setCluster_flt (c : Nat) (x : Cluster) : (s.setCluster c x).flt = s.flt := rfl
@[simp] theorem State.setCluster_drawer (c : Nat) (x : Cluster) : (s.setCluster c x).drawer = s.drawer := rfl
@[simp] theorem State.setCluster_det (c : Nat) (x : Cluster) : (s.setCluster c x).det = s.det := rfl
@[simp] theorem State.setCluster_clk (c : Nat) (x : Cluster) : (s.setCluster c x).clk = s.clk := rfl
@[simp] theorem State.setCluster_stave (c : Nat) (x : Cluster) : (s.setCluster c x).stave = s.stave := rfl
@[simp] theorem State.setCluster_sec (c : Nat) (x : Cluster) : (s.setCluster c x).sec = s.sec := rfl
@[simp] theorem State.setCluster_pwr (c : Nat) (x : Cluster) : (s.setCluster c x).pwr = s.pwr := rfl
@[simp] theorem State.setCluster_out (c : Nat) (x : Cluster) : (s.setCluster c x).out = s.out := rfl
@[simp] theorem State.setCluster_pending (c : Nat) (x : Cluster) : (s.setCluster c x).pending = s.pending := rfl

/-! ### setRing -/

@[simp] theorem State.setRing_gauge (r n : Nat) (x : Ring) : (s.setRing r n x).gauge = s.gauge := rfl
@[simp] theorem State.setRing_free (r n : Nat) (x : Ring) : (s.setRing r n x).free = s.free := rfl
@[simp] theorem State.setRing_mem (r n : Nat) (x : Ring) : (s.setRing r n x).mem = s.mem := rfl
@[simp] theorem State.setRing_regs (r n : Nat) (x : Ring) : (s.setRing r n x).regs = s.regs := rfl
@[simp] theorem State.setRing_sqc (r n : Nat) (x : Ring) : (s.setRing r n x).sqc = s.sqc := rfl
@[simp] theorem State.setRing_evSeq (r n : Nat) (x : Ring) : (s.setRing r n x).evSeq = s.evSeq := rfl
@[simp] theorem State.setRing_queues (r n : Nat) (x : Ring) : (s.setRing r n x).queues = s.queues := rfl
@[simp] theorem State.setRing_rings (r n : Nat) (x : Ring) : (s.setRing r n x).rings = Tab.set (fun _ => {}) (ringKey r n) x s.rings := rfl
@[simp] theorem State.setRing_evRings (r n : Nat) (x : Ring) : (s.setRing r n x).evRings = s.evRings := rfl
@[simp] theorem State.setRing_nextUid (r n : Nat) (x : Ring) : (s.setRing r n x).nextUid = s.nextUid := rfl
@[simp] theorem State.setRing_jobs (r n : Nat) (x : Ring) : (s.setRing r n x).jobs = s.jobs := rfl
@[simp] theorem State.setRing_tiles (r n : Nat) (x : Ring) : (s.setRing r n x).tiles = s.tiles := rfl
@[simp] theorem State.setRing_clusters (r n : Nat) (x : Ring) : (s.setRing r n x).clusters = s.clusters := rfl
@[simp] theorem State.setRing_cluMap (r n : Nat) (x : Ring) : (s.setRing r n x).cluMap = s.cluMap := rfl
@[simp] theorem State.setRing_tileMap (r n : Nat) (x : Ring) : (s.setRing r n x).tileMap = s.tileMap := rfl
@[simp] theorem State.setRing_kvm (r n : Nat) (x : Ring) : (s.setRing r n x).kvm = s.kvm := rfl
@[simp] theorem State.setRing_srv (r n : Nat) (x : Ring) : (s.setRing r n x).srv = s.srv := rfl
@[simp] theorem State.setRing_realms (r n : Nat) (x : Ring) : (s.setRing r n x).realms = s.realms := rfl
@[simp] theorem State.setRing_keys (r n : Nat) (x : Ring) : (s.setRing r n x).keys = s.keys := rfl
@[simp] theorem State.setRing_laneTiles (r n : Nat) (x : Ring) : (s.setRing r n x).laneTiles = s.laneTiles := rfl
@[simp] theorem State.setRing_laneParts (r n : Nat) (x : Ring) : (s.setRing r n x).laneParts = s.laneParts := rfl
@[simp] theorem State.setRing_lane (r n : Nat) (x : Ring) : (s.setRing r n x).lane = s.lane := rfl
@[simp] theorem State.setRing_vid (r n : Nat) (x : Ring) : (s.setRing r n x).vid = s.vid := rfl
@[simp] theorem State.setRing_boot (r n : Nat) (x : Ring) : (s.setRing r n x).boot = s.boot := rfl
@[simp] theorem State.setRing_flt (r n : Nat) (x : Ring) : (s.setRing r n x).flt = s.flt := rfl
@[simp] theorem State.setRing_drawer (r n : Nat) (x : Ring) : (s.setRing r n x).drawer = s.drawer := rfl
@[simp] theorem State.setRing_det (r n : Nat) (x : Ring) : (s.setRing r n x).det = s.det := rfl
@[simp] theorem State.setRing_clk (r n : Nat) (x : Ring) : (s.setRing r n x).clk = s.clk := rfl
@[simp] theorem State.setRing_stave (r n : Nat) (x : Ring) : (s.setRing r n x).stave = s.stave := rfl
@[simp] theorem State.setRing_sec (r n : Nat) (x : Ring) : (s.setRing r n x).sec = s.sec := rfl
@[simp] theorem State.setRing_pwr (r n : Nat) (x : Ring) : (s.setRing r n x).pwr = s.pwr := rfl
@[simp] theorem State.setRing_out (r n : Nat) (x : Ring) : (s.setRing r n x).out = s.out := rfl
@[simp] theorem State.setRing_pending (r n : Nat) (x : Ring) : (s.setRing r n x).pending = s.pending := rfl

/-! ### updDesc -/

@[simp] theorem State.updDesc_gauge (r n uid : Nat) (f : Desc → Desc) : (s.updDesc r n uid f).gauge = s.gauge := rfl
@[simp] theorem State.updDesc_free (r n uid : Nat) (f : Desc → Desc) : (s.updDesc r n uid f).free = s.free := rfl
@[simp] theorem State.updDesc_mem (r n uid : Nat) (f : Desc → Desc) : (s.updDesc r n uid f).mem = s.mem := rfl
@[simp] theorem State.updDesc_regs (r n uid : Nat) (f : Desc → Desc) : (s.updDesc r n uid f).regs = s.regs := rfl
@[simp] theorem State.updDesc_sqc (r n uid : Nat) (f : Desc → Desc) : (s.updDesc r n uid f).sqc = s.sqc := rfl
@[simp] theorem State.updDesc_evSeq (r n uid : Nat) (f : Desc → Desc) : (s.updDesc r n uid f).evSeq = s.evSeq := rfl
@[simp] theorem State.updDesc_queues (r n uid : Nat) (f : Desc → Desc) : (s.updDesc r n uid f).queues = s.queues := rfl
@[simp] theorem State.updDesc_evRings (r n uid : Nat) (f : Desc → Desc) : (s.updDesc r n uid f).evRings = s.evRings := rfl
@[simp] theorem State.updDesc_nextUid (r n uid : Nat) (f : Desc → Desc) : (s.updDesc r n uid f).nextUid = s.nextUid := rfl
@[simp] theorem State.updDesc_jobs (r n uid : Nat) (f : Desc → Desc) : (s.updDesc r n uid f).jobs = s.jobs := rfl
@[simp] theorem State.updDesc_tiles (r n uid : Nat) (f : Desc → Desc) : (s.updDesc r n uid f).tiles = s.tiles := rfl
@[simp] theorem State.updDesc_clusters (r n uid : Nat) (f : Desc → Desc) : (s.updDesc r n uid f).clusters = s.clusters := rfl
@[simp] theorem State.updDesc_cluMap (r n uid : Nat) (f : Desc → Desc) : (s.updDesc r n uid f).cluMap = s.cluMap := rfl
@[simp] theorem State.updDesc_tileMap (r n uid : Nat) (f : Desc → Desc) : (s.updDesc r n uid f).tileMap = s.tileMap := rfl
@[simp] theorem State.updDesc_kvm (r n uid : Nat) (f : Desc → Desc) : (s.updDesc r n uid f).kvm = s.kvm := rfl
@[simp] theorem State.updDesc_srv (r n uid : Nat) (f : Desc → Desc) : (s.updDesc r n uid f).srv = s.srv := rfl
@[simp] theorem State.updDesc_realms (r n uid : Nat) (f : Desc → Desc) : (s.updDesc r n uid f).realms = s.realms := rfl
@[simp] theorem State.updDesc_keys (r n uid : Nat) (f : Desc → Desc) : (s.updDesc r n uid f).keys = s.keys := rfl
@[simp] theorem State.updDesc_laneTiles (r n uid : Nat) (f : Desc → Desc) : (s.updDesc r n uid f).laneTiles = s.laneTiles := rfl
@[simp] theorem State.updDesc_laneParts (r n uid : Nat) (f : Desc → Desc) : (s.updDesc r n uid f).laneParts = s.laneParts := rfl
@[simp] theorem State.updDesc_lane (r n uid : Nat) (f : Desc → Desc) : (s.updDesc r n uid f).lane = s.lane := rfl
@[simp] theorem State.updDesc_vid (r n uid : Nat) (f : Desc → Desc) : (s.updDesc r n uid f).vid = s.vid := rfl
@[simp] theorem State.updDesc_boot (r n uid : Nat) (f : Desc → Desc) : (s.updDesc r n uid f).boot = s.boot := rfl
@[simp] theorem State.updDesc_flt (r n uid : Nat) (f : Desc → Desc) : (s.updDesc r n uid f).flt = s.flt := rfl
@[simp] theorem State.updDesc_drawer (r n uid : Nat) (f : Desc → Desc) : (s.updDesc r n uid f).drawer = s.drawer := rfl
@[simp] theorem State.updDesc_det (r n uid : Nat) (f : Desc → Desc) : (s.updDesc r n uid f).det = s.det := rfl
@[simp] theorem State.updDesc_clk (r n uid : Nat) (f : Desc → Desc) : (s.updDesc r n uid f).clk = s.clk := rfl
@[simp] theorem State.updDesc_stave (r n uid : Nat) (f : Desc → Desc) : (s.updDesc r n uid f).stave = s.stave := rfl
@[simp] theorem State.updDesc_sec (r n uid : Nat) (f : Desc → Desc) : (s.updDesc r n uid f).sec = s.sec := rfl
@[simp] theorem State.updDesc_pwr (r n uid : Nat) (f : Desc → Desc) : (s.updDesc r n uid f).pwr = s.pwr := rfl
@[simp] theorem State.updDesc_out (r n uid : Nat) (f : Desc → Desc) : (s.updDesc r n uid f).out = s.out := rfl
@[simp] theorem State.updDesc_pending (r n uid : Nat) (f : Desc → Desc) : (s.updDesc r n uid f).pending = s.pending := rfl

/-! ### setEvRing -/

@[simp] theorem State.setEvRing_gauge (r : Nat) (x : EvRing) : (s.setEvRing r x).gauge = s.gauge := rfl
@[simp] theorem State.setEvRing_free (r : Nat) (x : EvRing) : (s.setEvRing r x).free = s.free := rfl
@[simp] theorem State.setEvRing_mem (r : Nat) (x : EvRing) : (s.setEvRing r x).mem = s.mem := rfl
@[simp] theorem State.setEvRing_regs (r : Nat) (x : EvRing) : (s.setEvRing r x).regs = s.regs := rfl
@[simp] theorem State.setEvRing_sqc (r : Nat) (x : EvRing) : (s.setEvRing r x).sqc = s.sqc := rfl
@[simp] theorem State.setEvRing_evSeq (r : Nat) (x : EvRing) : (s.setEvRing r x).evSeq = s.evSeq := rfl
@[simp] theorem State.setEvRing_queues (r : Nat) (x : EvRing) : (s.setEvRing r x).queues = s.queues := rfl
@[simp] theorem State.setEvRing_rings (r : Nat) (x : EvRing) : (s.setEvRing r x).rings = s.rings := rfl
@[simp] theorem State.setEvRing_evRings (r : Nat) (x : EvRing) : (s.setEvRing r x).evRings = Tab.set (fun _ => {}) r x s.evRings := rfl
@[simp] theorem State.setEvRing_nextUid (r : Nat) (x : EvRing) : (s.setEvRing r x).nextUid = s.nextUid := rfl
@[simp] theorem State.setEvRing_jobs (r : Nat) (x : EvRing) : (s.setEvRing r x).jobs = s.jobs := rfl
@[simp] theorem State.setEvRing_tiles (r : Nat) (x : EvRing) : (s.setEvRing r x).tiles = s.tiles := rfl
@[simp] theorem State.setEvRing_clusters (r : Nat) (x : EvRing) : (s.setEvRing r x).clusters = s.clusters := rfl
@[simp] theorem State.setEvRing_cluMap (r : Nat) (x : EvRing) : (s.setEvRing r x).cluMap = s.cluMap := rfl
@[simp] theorem State.setEvRing_tileMap (r : Nat) (x : EvRing) : (s.setEvRing r x).tileMap = s.tileMap := rfl
@[simp] theorem State.setEvRing_kvm (r : Nat) (x : EvRing) : (s.setEvRing r x).kvm = s.kvm := rfl
@[simp] theorem State.setEvRing_srv (r : Nat) (x : EvRing) : (s.setEvRing r x).srv = s.srv := rfl
@[simp] theorem State.setEvRing_realms (r : Nat) (x : EvRing) : (s.setEvRing r x).realms = s.realms := rfl
@[simp] theorem State.setEvRing_keys (r : Nat) (x : EvRing) : (s.setEvRing r x).keys = s.keys := rfl
@[simp] theorem State.setEvRing_laneTiles (r : Nat) (x : EvRing) : (s.setEvRing r x).laneTiles = s.laneTiles := rfl
@[simp] theorem State.setEvRing_laneParts (r : Nat) (x : EvRing) : (s.setEvRing r x).laneParts = s.laneParts := rfl
@[simp] theorem State.setEvRing_lane (r : Nat) (x : EvRing) : (s.setEvRing r x).lane = s.lane := rfl
@[simp] theorem State.setEvRing_vid (r : Nat) (x : EvRing) : (s.setEvRing r x).vid = s.vid := rfl
@[simp] theorem State.setEvRing_boot (r : Nat) (x : EvRing) : (s.setEvRing r x).boot = s.boot := rfl
@[simp] theorem State.setEvRing_flt (r : Nat) (x : EvRing) : (s.setEvRing r x).flt = s.flt := rfl
@[simp] theorem State.setEvRing_drawer (r : Nat) (x : EvRing) : (s.setEvRing r x).drawer = s.drawer := rfl
@[simp] theorem State.setEvRing_det (r : Nat) (x : EvRing) : (s.setEvRing r x).det = s.det := rfl
@[simp] theorem State.setEvRing_clk (r : Nat) (x : EvRing) : (s.setEvRing r x).clk = s.clk := rfl
@[simp] theorem State.setEvRing_stave (r : Nat) (x : EvRing) : (s.setEvRing r x).stave = s.stave := rfl
@[simp] theorem State.setEvRing_sec (r : Nat) (x : EvRing) : (s.setEvRing r x).sec = s.sec := rfl
@[simp] theorem State.setEvRing_pwr (r : Nat) (x : EvRing) : (s.setEvRing r x).pwr = s.pwr := rfl
@[simp] theorem State.setEvRing_out (r : Nat) (x : EvRing) : (s.setEvRing r x).out = s.out := rfl
@[simp] theorem State.setEvRing_pending (r : Nat) (x : EvRing) : (s.setEvRing r x).pending = s.pending := rfl

/-! ### setQueue -/

@[simp] theorem State.setQueue_gauge (q : Nat) (x : IQueue) : (s.setQueue q x).gauge = s.gauge := rfl
@[simp] theorem State.setQueue_free (q : Nat) (x : IQueue) : (s.setQueue q x).free = s.free := rfl
@[simp] theorem State.setQueue_mem (q : Nat) (x : IQueue) : (s.setQueue q x).mem = s.mem := rfl
@[simp] theorem State.setQueue_regs (q : Nat) (x : IQueue) : (s.setQueue q x).regs = s.regs := rfl
@[simp] theorem State.setQueue_sqc (q : Nat) (x : IQueue) : (s.setQueue q x).sqc = s.sqc := rfl
@[simp] theorem State.setQueue_evSeq (q : Nat) (x : IQueue) : (s.setQueue q x).evSeq = s.evSeq := rfl
@[simp] theorem State.setQueue_queues (q : Nat) (x : IQueue) : (s.setQueue q x).queues = Tab.set (fun _ => {}) q x s.queues := rfl
@[simp] theorem State.setQueue_rings (q : Nat) (x : IQueue) : (s.setQueue q x).rings = s.rings := rfl
@[simp] theorem State.setQueue_evRings (q : Nat) (x : IQueue) : (s.setQueue q x).evRings = s.evRings := rfl
@[simp] theorem State.setQueue_nextUid (q : Nat) (x : IQueue) : (s.setQueue q x).nextUid = s.nextUid := rfl
@[simp] theorem State.setQueue_jobs (q : Nat) (x : IQueue) : (s.setQueue q x).jobs = s.jobs := rfl
@[simp] theorem State.setQueue_tiles (q : Nat) (x : IQueue) : (s.setQueue q x).tiles = s.tiles := rfl
@[simp] theorem State.setQueue_clusters (q : Nat) (x : IQueue) : (s.setQueue q x).clusters = s.clusters := rfl
@[simp] theorem State.setQueue_cluMap (q : Nat) (x : IQueue) : (s.setQueue q x).cluMap = s.cluMap := rfl
@[simp] theorem State.setQueue_tileMap (q : Nat) (x : IQueue) : (s.setQueue q x).tileMap = s.tileMap := rfl
@[simp] theorem State.setQueue_kvm (q : Nat) (x : IQueue) : (s.setQueue q x).kvm = s.kvm := rfl
@[simp] theorem State.setQueue_srv (q : Nat) (x : IQueue) : (s.setQueue q x).srv = s.srv := rfl
@[simp] theorem State.setQueue_realms (q : Nat) (x : IQueue) : (s.setQueue q x).realms = s.realms := rfl
@[simp] theorem State.setQueue_keys (q : Nat) (x : IQueue) : (s.setQueue q x).keys = s.keys := rfl
@[simp] theorem State.setQueue_laneTiles (q : Nat) (x : IQueue) : (s.setQueue q x).laneTiles = s.laneTiles := rfl
@[simp] theorem State.setQueue_laneParts (q : Nat) (x : IQueue) : (s.setQueue q x).laneParts = s.laneParts := rfl
@[simp] theorem State.setQueue_lane (q : Nat) (x : IQueue) : (s.setQueue q x).lane = s.lane := rfl
@[simp] theorem State.setQueue_vid (q : Nat) (x : IQueue) : (s.setQueue q x).vid = s.vid := rfl
@[simp] theorem State.setQueue_boot (q : Nat) (x : IQueue) : (s.setQueue q x).boot = s.boot := rfl
@[simp] theorem State.setQueue_flt (q : Nat) (x : IQueue) : (s.setQueue q x).flt = s.flt := rfl
@[simp] theorem State.setQueue_drawer (q : Nat) (x : IQueue) : (s.setQueue q x).drawer = s.drawer := rfl
@[simp] theorem State.setQueue_det (q : Nat) (x : IQueue) : (s.setQueue q x).det = s.det := rfl
@[simp] theorem State.setQueue_clk (q : Nat) (x : IQueue) : (s.setQueue q x).clk = s.clk := rfl
@[simp] theorem State.setQueue_stave (q : Nat) (x : IQueue) : (s.setQueue q x).stave = s.stave := rfl
@[simp] theorem State.setQueue_sec (q : Nat) (x : IQueue) : (s.setQueue q x).sec = s.sec := rfl
@[simp] theorem State.setQueue_pwr (q : Nat) (x : IQueue) : (s.setQueue q x).pwr = s.pwr := rfl
@[simp] theorem State.setQueue_out (q : Nat) (x : IQueue) : (s.setQueue q x).out = s.out := rfl
@[simp] theorem State.setQueue_pending (q : Nat) (x : IQueue) : (s.setQueue q x).pending = s.pending := rfl

/-! ### setRealm -/

@[simp] theorem State.setRealm_gauge (r : Nat) (x : Realm) : (s.setRealm r x).gauge = s.gauge := rfl
@[simp] theorem State.setRealm_free (r : Nat) (x : Realm) : (s.setRealm r x).free = s.free := rfl
@[simp] theorem State.setRealm_mem (r : Nat) (x : Realm) : (s.setRealm r x).mem = s.mem := rfl
@[simp] theorem State.setRealm_regs (r : Nat) (x : Realm) : (s.setRealm r x).regs = s.regs := rfl
@[simp] theorem State.setRealm_sqc (r : Nat) (x : Realm) : (s.setRealm r x).sqc = s.sqc := rfl
@[simp] theorem State.setRealm_evSeq (r : Nat) (x : Realm) : (s.setRealm r x).evSeq = s.evSeq := rfl
@[simp] theorem State.setRealm_queues (r : Nat) (x : Realm) : (s.setRealm r x).queues = s.queues := rfl
@[simp] theorem State.setRealm_rings (r : Nat) (x : Realm) : (s.setRealm r x).rings = s.rings := rfl
@[simp] theorem State.setRealm_evRings (r : Nat) (x : Realm) : (s.setRealm r x).evRings = s.evRings := rfl
@[simp] theorem State.setRealm_nextUid (r : Nat) (x : Realm) : (s.setRealm r x).nextUid = s.nextUid := rfl
@[simp] theorem State.setRealm_jobs (r : Nat) (x : Realm) : (s.setRealm r x).jobs = s.jobs := rfl
@[simp] theorem State.setRealm_tiles (r : Nat) (x : Realm) : (s.setRealm r x).tiles = s.tiles := rfl
@[simp] theorem State.setRealm_clusters (r : Nat) (x : Realm) : (s.setRealm r x).clusters = s.clusters := rfl
@[simp] theorem State.setRealm_cluMap (r : Nat) (x : Realm) : (s.setRealm r x).cluMap = s.cluMap := rfl
@[simp] theorem State.setRealm_tileMap (r : Nat) (x : Realm) : (s.setRealm r x).tileMap = s.tileMap := rfl
@[simp] theorem State.setRealm_kvm (r : Nat) (x : Realm) : (s.setRealm r x).kvm = s.kvm := rfl
@[simp] theorem State.setRealm_srv (r : Nat) (x : Realm) : (s.setRealm r x).srv = s.srv := rfl
@[simp] theorem State.setRealm_realms (r : Nat) (x : Realm) : (s.setRealm r x).realms = Tab.set (fun _ => {}) r x s.realms := rfl
@[simp] theorem State.setRealm_keys (r : Nat) (x : Realm) : (s.setRealm r x).keys = s.keys := rfl
@[simp] theorem State.setRealm_laneTiles (r : Nat) (x : Realm) : (s.setRealm r x).laneTiles = s.laneTiles := rfl
@[simp] theorem State.setRealm_laneParts (r : Nat) (x : Realm) : (s.setRealm r x).laneParts = s.laneParts := rfl
@[simp] theorem State.setRealm_lane (r : Nat) (x : Realm) : (s.setRealm r x).lane = s.lane := rfl
@[simp] theorem State.setRealm_vid (r : Nat) (x : Realm) : (s.setRealm r x).vid = s.vid := rfl
@[simp] theorem State.setRealm_boot (r : Nat) (x : Realm) : (s.setRealm r x).boot = s.boot := rfl
@[simp] theorem State.setRealm_flt (r : Nat) (x : Realm) : (s.setRealm r x).flt = s.flt := rfl
@[simp] theorem State.setRealm_drawer (r : Nat) (x : Realm) : (s.setRealm r x).drawer = s.drawer := rfl
@[simp] theorem State.setRealm_det (r : Nat) (x : Realm) : (s.setRealm r x).det = s.det := rfl
@[simp] theorem State.setRealm_clk (r : Nat) (x : Realm) : (s.setRealm r x).clk = s.clk := rfl
@[simp] theorem State.setRealm_stave (r : Nat) (x : Realm) : (s.setRealm r x).stave = s.stave := rfl
@[simp] theorem State.setRealm_sec (r : Nat) (x : Realm) : (s.setRealm r x).sec = s.sec := rfl
@[simp] theorem State.setRealm_pwr (r : Nat) (x : Realm) : (s.setRealm r x).pwr = s.pwr := rfl
@[simp] theorem State.setRealm_out (r : Nat) (x : Realm) : (s.setRealm r x).out = s.out := rfl
@[simp] theorem State.setRealm_pending (r : Nat) (x : Realm) : (s.setRealm r x).pending = s.pending := rfl

/-! ### setJob -/

@[simp] theorem State.setJob_gauge (uid : Nat) (j : Job) : (s.setJob uid j).gauge = s.gauge := rfl
@[simp] theorem State.setJob_free (uid : Nat) (j : Job) : (s.setJob uid j).free = s.free := rfl
@[simp] theorem State.setJob_mem (uid : Nat) (j : Job) : (s.setJob uid j).mem = s.mem := rfl
@[simp] theorem State.setJob_regs (uid : Nat) (j : Job) : (s.setJob uid j).regs = s.regs := rfl
@[simp] theorem State.setJob_sqc (uid : Nat) (j : Job) : (s.setJob uid j).sqc = s.sqc := rfl
@[simp] theorem State.setJob_evSeq (uid : Nat) (j : Job) : (s.setJob uid j).evSeq = s.evSeq := rfl
@[simp] theorem State.setJob_queues (uid : Nat) (j : Job) : (s.setJob uid j).queues = s.queues := rfl
@[simp] theorem State.setJob_rings (uid : Nat) (j : Job) : (s.setJob uid j).rings = s.rings := rfl
@[simp] theorem State.setJob_evRings (uid : Nat) (j : Job) : (s.setJob uid j).evRings = s.evRings := rfl
@[simp] theorem State.setJob_nextUid (uid : Nat) (j : Job) : (s.setJob uid j).nextUid = s.nextUid := rfl
@[simp] theorem State.setJob_jobs (uid : Nat) (j : Job) : (s.setJob uid j).jobs = Tab.put uid j s.jobs := rfl
@[simp] theorem State.setJob_tiles (uid : Nat) (j : Job) : (s.setJob uid j).tiles = s.tiles := rfl
@[simp] theorem State.setJob_clusters (uid : Nat) (j : Job) : (s.setJob uid j).clusters = s.clusters := rfl
@[simp] theorem State.setJob_cluMap (uid : Nat) (j : Job) : (s.setJob uid j).cluMap = s.cluMap := rfl
@[simp] theorem State.setJob_tileMap (uid : Nat) (j : Job) : (s.setJob uid j).tileMap = s.tileMap := rfl
@[simp] theorem State.setJob_kvm (uid : Nat) (j : Job) : (s.setJob uid j).kvm = s.kvm := rfl
@[simp] theorem State.setJob_srv (uid : Nat) (j : Job) : (s.setJob uid j).srv = s.srv := rfl
@[simp] theorem State.setJob_realms (uid : Nat) (j : Job) : (s.setJob uid j).realms = s.realms := rfl
@[simp] theorem State.setJob_keys (uid : Nat) (j : Job) : (s.setJob uid j).keys = s.keys := rfl
@[simp] theorem State.setJob_laneTiles (uid : Nat) (j : Job) : (s.setJob uid j).laneTiles = s.laneTiles := rfl
@[simp] theorem State.setJob_laneParts (uid : Nat) (j : Job) : (s.setJob uid j).laneParts = s.laneParts := rfl
@[simp] theorem State.setJob_lane (uid : Nat) (j : Job) : (s.setJob uid j).lane = s.lane := rfl
@[simp] theorem State.setJob_vid (uid : Nat) (j : Job) : (s.setJob uid j).vid = s.vid := rfl
@[simp] theorem State.setJob_boot (uid : Nat) (j : Job) : (s.setJob uid j).boot = s.boot := rfl
@[simp] theorem State.setJob_flt (uid : Nat) (j : Job) : (s.setJob uid j).flt = s.flt := rfl
@[simp] theorem State.setJob_drawer (uid : Nat) (j : Job) : (s.setJob uid j).drawer = s.drawer := rfl
@[simp] theorem State.setJob_det (uid : Nat) (j : Job) : (s.setJob uid j).det = s.det := rfl
@[simp] theorem State.setJob_clk (uid : Nat) (j : Job) : (s.setJob uid j).clk = s.clk := rfl
@[simp] theorem State.setJob_stave (uid : Nat) (j : Job) : (s.setJob uid j).stave = s.stave := rfl
@[simp] theorem State.setJob_sec (uid : Nat) (j : Job) : (s.setJob uid j).sec = s.sec := rfl
@[simp] theorem State.setJob_pwr (uid : Nat) (j : Job) : (s.setJob uid j).pwr = s.pwr := rfl
@[simp] theorem State.setJob_out (uid : Nat) (j : Job) : (s.setJob uid j).out = s.out := rfl
@[simp] theorem State.setJob_pending (uid : Nat) (j : Job) : (s.setJob uid j).pending = s.pending := rfl

/-! ### updJob -/

@[simp] theorem State.updJob_gauge (uid : Nat) (f : Job → Job) : (s.updJob uid f).gauge = s.gauge := rfl
@[simp] theorem State.updJob_free (uid : Nat) (f : Job → Job) : (s.updJob uid f).free = s.free := rfl
@[simp] theorem State.updJob_mem (uid : Nat) (f : Job → Job) : (s.updJob uid f).mem = s.mem := rfl
@[simp] theorem State.updJob_regs (uid : Nat) (f : Job → Job) : (s.updJob uid f).regs = s.regs := rfl
@[simp] theorem State.updJob_sqc (uid : Nat) (f : Job → Job) : (s.updJob uid f).sqc = s.sqc := rfl
@[simp] theorem State.updJob_evSeq (uid : Nat) (f : Job → Job) : (s.updJob uid f).evSeq = s.evSeq := rfl
@[simp] theorem State.updJob_queues (uid : Nat) (f : Job → Job) : (s.updJob uid f).queues = s.queues := rfl
@[simp] theorem State.updJob_rings (uid : Nat) (f : Job → Job) : (s.updJob uid f).rings = s.rings := rfl
@[simp] theorem State.updJob_evRings (uid : Nat) (f : Job → Job) : (s.updJob uid f).evRings = s.evRings := rfl
@[simp] theorem State.updJob_nextUid (uid : Nat) (f : Job → Job) : (s.updJob uid f).nextUid = s.nextUid := rfl
@[simp] theorem State.updJob_jobs (uid : Nat) (f : Job → Job) : (s.updJob uid f).jobs = Tab.upd uid f s.jobs := rfl
@[simp] theorem State.updJob_tiles (uid : Nat) (f : Job → Job) : (s.updJob uid f).tiles = s.tiles := rfl
@[simp] theorem State.updJob_clusters (uid : Nat) (f : Job → Job) : (s.updJob uid f).clusters = s.clusters := rfl
@[simp] theorem State.updJob_cluMap (uid : Nat) (f : Job → Job) : (s.updJob uid f).cluMap = s.cluMap := rfl
@[simp] theorem State.updJob_tileMap (uid : Nat) (f : Job → Job) : (s.updJob uid f).tileMap = s.tileMap := rfl
@[simp] theorem State.updJob_kvm (uid : Nat) (f : Job → Job) : (s.updJob uid f).kvm = s.kvm := rfl
@[simp] theorem State.updJob_srv (uid : Nat) (f : Job → Job) : (s.updJob uid f).srv = s.srv := rfl
@[simp] theorem State.updJob_realms (uid : Nat) (f : Job → Job) : (s.updJob uid f).realms = s.realms := rfl
@[simp] theorem State.updJob_keys (uid : Nat) (f : Job → Job) : (s.updJob uid f).keys = s.keys := rfl
@[simp] theorem State.updJob_laneTiles (uid : Nat) (f : Job → Job) : (s.updJob uid f).laneTiles = s.laneTiles := rfl
@[simp] theorem State.updJob_laneParts (uid : Nat) (f : Job → Job) : (s.updJob uid f).laneParts = s.laneParts := rfl
@[simp] theorem State.updJob_lane (uid : Nat) (f : Job → Job) : (s.updJob uid f).lane = s.lane := rfl
@[simp] theorem State.updJob_vid (uid : Nat) (f : Job → Job) : (s.updJob uid f).vid = s.vid := rfl
@[simp] theorem State.updJob_boot (uid : Nat) (f : Job → Job) : (s.updJob uid f).boot = s.boot := rfl
@[simp] theorem State.updJob_flt (uid : Nat) (f : Job → Job) : (s.updJob uid f).flt = s.flt := rfl
@[simp] theorem State.updJob_drawer (uid : Nat) (f : Job → Job) : (s.updJob uid f).drawer = s.drawer := rfl
@[simp] theorem State.updJob_det (uid : Nat) (f : Job → Job) : (s.updJob uid f).det = s.det := rfl
@[simp] theorem State.updJob_clk (uid : Nat) (f : Job → Job) : (s.updJob uid f).clk = s.clk := rfl
@[simp] theorem State.updJob_stave (uid : Nat) (f : Job → Job) : (s.updJob uid f).stave = s.stave := rfl
@[simp] theorem State.updJob_sec (uid : Nat) (f : Job → Job) : (s.updJob uid f).sec = s.sec := rfl
@[simp] theorem State.updJob_pwr (uid : Nat) (f : Job → Job) : (s.updJob uid f).pwr = s.pwr := rfl
@[simp] theorem State.updJob_out (uid : Nat) (f : Job → Job) : (s.updJob uid f).out = s.out := rfl
@[simp] theorem State.updJob_pending (uid : Nat) (f : Job → Job) : (s.updJob uid f).pending = s.pending := rfl

/-! ### setSqc -/

@[simp] theorem State.setSqc_gauge (r : Reg) (u : Nat) (q : Sqc) : (s.setSqc r u q).gauge = s.gauge := rfl
@[simp] theorem State.setSqc_free (r : Reg) (u : Nat) (q : Sqc) : (s.setSqc r u q).free = s.free := rfl
@[simp] theorem State.setSqc_mem (r : Reg) (u : Nat) (q : Sqc) : (s.setSqc r u q).mem = s.mem := rfl
@[simp] theorem State.setSqc_regs (r : Reg) (u : Nat) (q : Sqc) : (s.setSqc r u q).regs = s.regs := rfl
@[simp] theorem State.setSqc_sqc (r : Reg) (u : Nat) (q : Sqc) : (s.setSqc r u q).sqc = Tab.set (fun _ => {}) (sqcKey r u) q s.sqc := rfl
@[simp] theorem State.setSqc_evSeq (r : Reg) (u : Nat) (q : Sqc) : (s.setSqc r u q).evSeq = s.evSeq := rfl
@[simp] theorem State.setSqc_queues (r : Reg) (u : Nat) (q : Sqc) : (s.setSqc r u q).queues = s.queues := rfl
@[simp] theorem State.setSqc_rings (r : Reg) (u : Nat) (q : Sqc) : (s.setSqc r u q).rings = s.rings := rfl
@[simp] theorem State.setSqc_evRings (r : Reg) (u : Nat) (q : Sqc) : (s.setSqc r u q).evRings = s.evRings := rfl
@[simp] theorem State.setSqc_nextUid (r : Reg) (u : Nat) (q : Sqc) : (s.setSqc r u q).nextUid = s.nextUid := rfl
@[simp] theorem State.setSqc_jobs (r : Reg) (u : Nat) (q : Sqc) : (s.setSqc r u q).jobs = s.jobs := rfl
@[simp] theorem State.setSqc_tiles (r : Reg) (u : Nat) (q : Sqc) : (s.setSqc r u q).tiles = s.tiles := rfl
@[simp] theorem State.setSqc_clusters (r : Reg) (u : Nat) (q : Sqc) : (s.setSqc r u q).clusters = s.clusters := rfl
@[simp] theorem State.setSqc_cluMap (r : Reg) (u : Nat) (q : Sqc) : (s.setSqc r u q).cluMap = s.cluMap := rfl
@[simp] theorem State.setSqc_tileMap (r : Reg) (u : Nat) (q : Sqc) : (s.setSqc r u q).tileMap = s.tileMap := rfl
@[simp] theorem State.setSqc_kvm (r : Reg) (u : Nat) (q : Sqc) : (s.setSqc r u q).kvm = s.kvm := rfl
@[simp] theorem State.setSqc_srv (r : Reg) (u : Nat) (q : Sqc) : (s.setSqc r u q).srv = s.srv := rfl
@[simp] theorem State.setSqc_realms (r : Reg) (u : Nat) (q : Sqc) : (s.setSqc r u q).realms = s.realms := rfl
@[simp] theorem State.setSqc_keys (r : Reg) (u : Nat) (q : Sqc) : (s.setSqc r u q).keys = s.keys := rfl
@[simp] theorem State.setSqc_laneTiles (r : Reg) (u : Nat) (q : Sqc) : (s.setSqc r u q).laneTiles = s.laneTiles := rfl
@[simp] theorem State.setSqc_laneParts (r : Reg) (u : Nat) (q : Sqc) : (s.setSqc r u q).laneParts = s.laneParts := rfl
@[simp] theorem State.setSqc_lane (r : Reg) (u : Nat) (q : Sqc) : (s.setSqc r u q).lane = s.lane := rfl
@[simp] theorem State.setSqc_vid (r : Reg) (u : Nat) (q : Sqc) : (s.setSqc r u q).vid = s.vid := rfl
@[simp] theorem State.setSqc_boot (r : Reg) (u : Nat) (q : Sqc) : (s.setSqc r u q).boot = s.boot := rfl
@[simp] theorem State.setSqc_flt (r : Reg) (u : Nat) (q : Sqc) : (s.setSqc r u q).flt = s.flt := rfl
@[simp] theorem State.setSqc_drawer (r : Reg) (u : Nat) (q : Sqc) : (s.setSqc r u q).drawer = s.drawer := rfl
@[simp] theorem State.setSqc_det (r : Reg) (u : Nat) (q : Sqc) : (s.setSqc r u q).det = s.det := rfl
@[simp] theorem State.setSqc_clk (r : Reg) (u : Nat) (q : Sqc) : (s.setSqc r u q).clk = s.clk := rfl
@[simp] theorem State.setSqc_stave (r : Reg) (u : Nat) (q : Sqc) : (s.setSqc r u q).stave = s.stave := rfl
@[simp] theorem State.setSqc_sec (r : Reg) (u : Nat) (q : Sqc) : (s.setSqc r u q).sec = s.sec := rfl
@[simp] theorem State.setSqc_pwr (r : Reg) (u : Nat) (q : Sqc) : (s.setSqc r u q).pwr = s.pwr := rfl
@[simp] theorem State.setSqc_out (r : Reg) (u : Nat) (q : Sqc) : (s.setSqc r u q).out = s.out := rfl
@[simp] theorem State.setSqc_pending (r : Reg) (u : Nat) (q : Sqc) : (s.setSqc r u q).pending = s.pending := rfl

/-! ### onMem -/

@[simp] theorem State.onMem_gauge (f : Mem → Mem) : (s.onMem f).gauge = s.gauge := rfl
@[simp] theorem State.onMem_free (f : Mem → Mem) : (s.onMem f).free = s.free := rfl
@[simp] theorem State.onMem_mem (f : Mem → Mem) : (s.onMem f).mem = f s.mem := rfl
@[simp] theorem State.onMem_regs (f : Mem → Mem) : (s.onMem f).regs = s.regs := rfl
@[simp] theorem State.onMem_sqc (f : Mem → Mem) : (s.onMem f).sqc = s.sqc := rfl
@[simp] theorem State.onMem_evSeq (f : Mem → Mem) : (s.onMem f).evSeq = s.evSeq := rfl
@[simp] theorem State.onMem_queues (f : Mem → Mem) : (s.onMem f).queues = s.queues := rfl
@[simp] theorem State.onMem_rings (f : Mem → Mem) : (s.onMem f).rings = s.rings := rfl
@[simp] theorem State.onMem_evRings (f : Mem → Mem) : (s.onMem f).evRings = s.evRings := rfl
@[simp] theorem State.onMem_nextUid (f : Mem → Mem) : (s.onMem f).nextUid = s.nextUid := rfl
@[simp] theorem State.onMem_jobs (f : Mem → Mem) : (s.onMem f).jobs = s.jobs := rfl
@[simp] theorem State.onMem_tiles (f : Mem → Mem) : (s.onMem f).tiles = s.tiles := rfl
@[simp] theorem State.onMem_clusters (f : Mem → Mem) : (s.onMem f).clusters = s.clusters := rfl
@[simp] theorem State.onMem_cluMap (f : Mem → Mem) : (s.onMem f).cluMap = s.cluMap := rfl
@[simp] theorem State.onMem_tileMap (f : Mem → Mem) : (s.onMem f).tileMap = s.tileMap := rfl
@[simp] theorem State.onMem_kvm (f : Mem → Mem) : (s.onMem f).kvm = s.kvm := rfl
@[simp] theorem State.onMem_srv (f : Mem → Mem) : (s.onMem f).srv = s.srv := rfl
@[simp] theorem State.onMem_realms (f : Mem → Mem) : (s.onMem f).realms = s.realms := rfl
@[simp] theorem State.onMem_keys (f : Mem → Mem) : (s.onMem f).keys = s.keys := rfl
@[simp] theorem State.onMem_laneTiles (f : Mem → Mem) : (s.onMem f).laneTiles = s.laneTiles := rfl
@[simp] theorem State.onMem_laneParts (f : Mem → Mem) : (s.onMem f).laneParts = s.laneParts := rfl
@[simp] theorem State.onMem_lane (f : Mem → Mem) : (s.onMem f).lane = s.lane := rfl
@[simp] theorem State.onMem_vid (f : Mem → Mem) : (s.onMem f).vid = s.vid := rfl
@[simp] theorem State.onMem_boot (f : Mem → Mem) : (s.onMem f).boot = s.boot := rfl
@[simp] theorem State.onMem_flt (f : Mem → Mem) : (s.onMem f).flt = s.flt := rfl
@[simp] theorem State.onMem_drawer (f : Mem → Mem) : (s.onMem f).drawer = s.drawer := rfl
@[simp] theorem State.onMem_det (f : Mem → Mem) : (s.onMem f).det = s.det := rfl
@[simp] theorem State.onMem_clk (f : Mem → Mem) : (s.onMem f).clk = s.clk := rfl
@[simp] theorem State.onMem_stave (f : Mem → Mem) : (s.onMem f).stave = s.stave := rfl
@[simp] theorem State.onMem_sec (f : Mem → Mem) : (s.onMem f).sec = s.sec := rfl
@[simp] theorem State.onMem_pwr (f : Mem → Mem) : (s.onMem f).pwr = s.pwr := rfl
@[simp] theorem State.onMem_out (f : Mem → Mem) : (s.onMem f).out = s.out := rfl
@[simp] theorem State.onMem_pending (f : Mem → Mem) : (s.onMem f).pending = s.pending := rfl

/-! ### store -/

@[simp] theorem State.store_gauge (a : Nat) (bs : List Nat) : (s.store a bs).gauge = s.gauge := rfl
@[simp] theorem State.store_free (a : Nat) (bs : List Nat) : (s.store a bs).free = s.free := rfl
@[simp] theorem State.store_mem (a : Nat) (bs : List Nat) : (s.store a bs).mem = s.mem.store a bs := rfl
@[simp] theorem State.store_regs (a : Nat) (bs : List Nat) : (s.store a bs).regs = s.regs := rfl
@[simp] theorem State.store_sqc (a : Nat) (bs : List Nat) : (s.store a bs).sqc = s.sqc := rfl
@[simp] theorem State.store_evSeq (a : Nat) (bs : List Nat) : (s.store a bs).evSeq = s.evSeq := rfl
@[simp] theorem State.store_queues (a : Nat) (bs : List Nat) : (s.store a bs).queues = s.queues := rfl
@[simp] theorem State.store_rings (a : Nat) (bs : List Nat) : (s.store a bs).rings = s.rings := rfl
@[simp] theorem State.store_evRings (a : Nat) (bs : List Nat) : (s.store a bs).evRings = s.evRings := rfl
@[simp] theorem State.store_nextUid (a : Nat) (bs : List Nat) : (s.store a bs).nextUid = s.nextUid := rfl
@[simp] theorem State.store_jobs (a : Nat) (bs : List Nat) : (s.store a bs).jobs = s.jobs := rfl
@[simp] theorem State.store_tiles (a : Nat) (bs : List Nat) : (s.store a bs).tiles = s.tiles := rfl
@[simp] theorem State.store_clusters (a : Nat) (bs : List Nat) : (s.store a bs).clusters = s.clusters := rfl
@[simp] theorem State.store_cluMap (a : Nat) (bs : List Nat) : (s.store a bs).cluMap = s.cluMap := rfl
@[simp] theorem State.store_tileMap (a : Nat) (bs : List Nat) : (s.store a bs).tileMap = s.tileMap := rfl
@[simp] theorem State.store_kvm (a : Nat) (bs : List Nat) : (s.store a bs).kvm = s.kvm := rfl
@[simp] theorem State.store_srv (a : Nat) (bs : List Nat) : (s.store a bs).srv = s.srv := rfl
@[simp] theorem State.store_realms (a : Nat) (bs : List Nat) : (s.store a bs).realms = s.realms := rfl
@[simp] theorem State.store_keys (a : Nat) (bs : List Nat) : (s.store a bs).keys = s.keys := rfl
@[simp] theorem State.store_laneTiles (a : Nat) (bs : List Nat) : (s.store a bs).laneTiles = s.laneTiles := rfl
@[simp] theorem State.store_laneParts (a : Nat) (bs : List Nat) : (s.store a bs).laneParts = s.laneParts := rfl
@[simp] theorem State.store_lane (a : Nat) (bs : List Nat) : (s.store a bs).lane = s.lane := rfl
@[simp] theorem State.store_vid (a : Nat) (bs : List Nat) : (s.store a bs).vid = s.vid := rfl
@[simp] theorem State.store_boot (a : Nat) (bs : List Nat) : (s.store a bs).boot = s.boot := rfl
@[simp] theorem State.store_flt (a : Nat) (bs : List Nat) : (s.store a bs).flt = s.flt := rfl
@[simp] theorem State.store_drawer (a : Nat) (bs : List Nat) : (s.store a bs).drawer = s.drawer := rfl
@[simp] theorem State.store_det (a : Nat) (bs : List Nat) : (s.store a bs).det = s.det := rfl
@[simp] theorem State.store_clk (a : Nat) (bs : List Nat) : (s.store a bs).clk = s.clk := rfl
@[simp] theorem State.store_stave (a : Nat) (bs : List Nat) : (s.store a bs).stave = s.stave := rfl
@[simp] theorem State.store_sec (a : Nat) (bs : List Nat) : (s.store a bs).sec = s.sec := rfl
@[simp] theorem State.store_pwr (a : Nat) (bs : List Nat) : (s.store a bs).pwr = s.pwr := rfl
@[simp] theorem State.store_out (a : Nat) (bs : List Nat) : (s.store a bs).out = s.out := rfl
@[simp] theorem State.store_pending (a : Nat) (bs : List Nat) : (s.store a bs).pending = s.pending := rfl

/-! ### onKvm -/

@[simp] theorem State.onKvm_gauge (f : Kvm → Kvm) : (s.onKvm f).gauge = s.gauge := rfl
@[simp] theorem State.onKvm_free (f : Kvm → Kvm) : (s.onKvm f).free = s.free := rfl
@[simp] theorem State.onKvm_mem (f : Kvm → Kvm) : (s.onKvm f).mem = s.mem := rfl
@[simp] theorem State.onKvm_regs (f : Kvm → Kvm) : (s.onKvm f).regs = s.regs := rfl
@[simp] theorem State.onKvm_sqc (f : Kvm → Kvm) : (s.onKvm f).sqc = s.sqc := rfl
@[simp] theorem State.onKvm_evSeq (f : Kvm → Kvm) : (s.onKvm f).evSeq = s.evSeq := rfl
@[simp] theorem State.onKvm_queues (f : Kvm → Kvm) : (s.onKvm f).queues = s.queues := rfl
@[simp] theorem State.onKvm_rings (f : Kvm → Kvm) : (s.onKvm f).rings = s.rings := rfl
@[simp] theorem State.onKvm_evRings (f : Kvm → Kvm) : (s.onKvm f).evRings = s.evRings := rfl
@[simp] theorem State.onKvm_nextUid (f : Kvm → Kvm) : (s.onKvm f).nextUid = s.nextUid := rfl
@[simp] theorem State.onKvm_jobs (f : Kvm → Kvm) : (s.onKvm f).jobs = s.jobs := rfl
@[simp] theorem State.onKvm_tiles (f : Kvm → Kvm) : (s.onKvm f).tiles = s.tiles := rfl
@[simp] theorem State.onKvm_clusters (f : Kvm → Kvm) : (s.onKvm f).clusters = s.clusters := rfl
@[simp] theorem State.onKvm_cluMap (f : Kvm → Kvm) : (s.onKvm f).cluMap = s.cluMap := rfl
@[simp] theorem State.onKvm_tileMap (f : Kvm → Kvm) : (s.onKvm f).tileMap = s.tileMap := rfl
@[simp] theorem State.onKvm_kvm (f : Kvm → Kvm) : (s.onKvm f).kvm = f s.kvm := rfl
@[simp] theorem State.onKvm_srv (f : Kvm → Kvm) : (s.onKvm f).srv = s.srv := rfl
@[simp] theorem State.onKvm_realms (f : Kvm → Kvm) : (s.onKvm f).realms = s.realms := rfl
@[simp] theorem State.onKvm_keys (f : Kvm → Kvm) : (s.onKvm f).keys = s.keys := rfl
@[simp] theorem State.onKvm_laneTiles (f : Kvm → Kvm) : (s.onKvm f).laneTiles = s.laneTiles := rfl
@[simp] theorem State.onKvm_laneParts (f : Kvm → Kvm) : (s.onKvm f).laneParts = s.laneParts := rfl
@[simp] theorem State.onKvm_lane (f : Kvm → Kvm) : (s.onKvm f).lane = s.lane := rfl
@[simp] theorem State.onKvm_vid (f : Kvm → Kvm) : (s.onKvm f).vid = s.vid := rfl
@[simp] theorem State.onKvm_boot (f : Kvm → Kvm) : (s.onKvm f).boot = s.boot := rfl
@[simp] theorem State.onKvm_flt (f : Kvm → Kvm) : (s.onKvm f).flt = s.flt := rfl
@[simp] theorem State.onKvm_drawer (f : Kvm → Kvm) : (s.onKvm f).drawer = s.drawer := rfl
@[simp] theorem State.onKvm_det (f : Kvm → Kvm) : (s.onKvm f).det = s.det := rfl
@[simp] theorem State.onKvm_clk (f : Kvm → Kvm) : (s.onKvm f).clk = s.clk := rfl
@[simp] theorem State.onKvm_stave (f : Kvm → Kvm) : (s.onKvm f).stave = s.stave := rfl
@[simp] theorem State.onKvm_sec (f : Kvm → Kvm) : (s.onKvm f).sec = s.sec := rfl
@[simp] theorem State.onKvm_pwr (f : Kvm → Kvm) : (s.onKvm f).pwr = s.pwr := rfl
@[simp] theorem State.onKvm_out (f : Kvm → Kvm) : (s.onKvm f).out = s.out := rfl
@[simp] theorem State.onKvm_pending (f : Kvm → Kvm) : (s.onKvm f).pending = s.pending := rfl

/-! ### onSrv -/

@[simp] theorem State.onSrv_gauge (f : Srv → Srv) : (s.onSrv f).gauge = s.gauge := rfl
@[simp] theorem State.onSrv_free (f : Srv → Srv) : (s.onSrv f).free = s.free := rfl
@[simp] theorem State.onSrv_mem (f : Srv → Srv) : (s.onSrv f).mem = s.mem := rfl
@[simp] theorem State.onSrv_regs (f : Srv → Srv) : (s.onSrv f).regs = s.regs := rfl
@[simp] theorem State.onSrv_sqc (f : Srv → Srv) : (s.onSrv f).sqc = s.sqc := rfl
@[simp] theorem State.onSrv_evSeq (f : Srv → Srv) : (s.onSrv f).evSeq = s.evSeq := rfl
@[simp] theorem State.onSrv_queues (f : Srv → Srv) : (s.onSrv f).queues = s.queues := rfl
@[simp] theorem State.onSrv_rings (f : Srv → Srv) : (s.onSrv f).rings = s.rings := rfl
@[simp] theorem State.onSrv_evRings (f : Srv → Srv) : (s.onSrv f).evRings = s.evRings := rfl
@[simp] theorem State.onSrv_nextUid (f : Srv → Srv) : (s.onSrv f).nextUid = s.nextUid := rfl
@[simp] theorem State.onSrv_jobs (f : Srv → Srv) : (s.onSrv f).jobs = s.jobs := rfl
@[simp] theorem State.onSrv_tiles (f : Srv → Srv) : (s.onSrv f).tiles = s.tiles := rfl
@[simp] theorem State.onSrv_clusters (f : Srv → Srv) : (s.onSrv f).clusters = s.clusters := rfl
@[simp] theorem State.onSrv_cluMap (f : Srv → Srv) : (s.onSrv f).cluMap = s.cluMap := rfl
@[simp] theorem State.onSrv_tileMap (f : Srv → Srv) : (s.onSrv f).tileMap = s.tileMap := rfl
@[simp] theorem State.onSrv_kvm (f : Srv → Srv) : (s.onSrv f).kvm = s.kvm := rfl
@[simp] theorem State.onSrv_srv (f : Srv → Srv) : (s.onSrv f).srv = f s.srv := rfl
@[simp] theorem State.onSrv_realms (f : Srv → Srv) : (s.onSrv f).realms = s.realms := rfl
@[simp] theorem State.onSrv_keys (f : Srv → Srv) : (s.onSrv f).keys = s.keys := rfl
@[simp] theorem State.onSrv_laneTiles (f : Srv → Srv) : (s.onSrv f).laneTiles = s.laneTiles := rfl
@[simp] theorem State.onSrv_laneParts (f : Srv → Srv) : (s.onSrv f).laneParts = s.laneParts := rfl
@[simp] theorem State.onSrv_lane (f : Srv → Srv) : (s.onSrv f).lane = s.lane := rfl
@[simp] theorem State.onSrv_vid (f : Srv → Srv) : (s.onSrv f).vid = s.vid := rfl
@[simp] theorem State.onSrv_boot (f : Srv → Srv) : (s.onSrv f).boot = s.boot := rfl
@[simp] theorem State.onSrv_flt (f : Srv → Srv) : (s.onSrv f).flt = s.flt := rfl
@[simp] theorem State.onSrv_drawer (f : Srv → Srv) : (s.onSrv f).drawer = s.drawer := rfl
@[simp] theorem State.onSrv_det (f : Srv → Srv) : (s.onSrv f).det = s.det := rfl
@[simp] theorem State.onSrv_clk (f : Srv → Srv) : (s.onSrv f).clk = s.clk := rfl
@[simp] theorem State.onSrv_stave (f : Srv → Srv) : (s.onSrv f).stave = s.stave := rfl
@[simp] theorem State.onSrv_sec (f : Srv → Srv) : (s.onSrv f).sec = s.sec := rfl
@[simp] theorem State.onSrv_pwr (f : Srv → Srv) : (s.onSrv f).pwr = s.pwr := rfl
@[simp] theorem State.onSrv_out (f : Srv → Srv) : (s.onSrv f).out = s.out := rfl
@[simp] theorem State.onSrv_pending (f : Srv → Srv) : (s.onSrv f).pending = s.pending := rfl

/-! ### onLane -/

@[simp] theorem State.onLane_gauge (f : Lane → Lane) : (s.onLane f).gauge = s.gauge := rfl
@[simp] theorem State.onLane_free (f : Lane → Lane) : (s.onLane f).free = s.free := rfl
@[simp] theorem State.onLane_mem (f : Lane → Lane) : (s.onLane f).mem = s.mem := rfl
@[simp] theorem State.onLane_regs (f : Lane → Lane) : (s.onLane f).regs = s.regs := rfl
@[simp] theorem State.onLane_sqc (f : Lane → Lane) : (s.onLane f).sqc = s.sqc := rfl
@[simp] theorem State.onLane_evSeq (f : Lane → Lane) : (s.onLane f).evSeq = s.evSeq := rfl
@[simp] theorem State.onLane_queues (f : Lane → Lane) : (s.onLane f).queues = s.queues := rfl
@[simp] theorem State.onLane_rings (f : Lane → Lane) : (s.onLane f).rings = s.rings := rfl
@[simp] theorem State.onLane_evRings (f : Lane → Lane) : (s.onLane f).evRings = s.evRings := rfl
@[simp] theorem State.onLane_nextUid (f : Lane → Lane) : (s.onLane f).nextUid = s.nextUid := rfl
@[simp] theorem State.onLane_jobs (f : Lane → Lane) : (s.onLane f).jobs = s.jobs := rfl
@[simp] theorem State.onLane_tiles (f : Lane → Lane) : (s.onLane f).tiles = s.tiles := rfl
@[simp] theorem State.onLane_clusters (f : Lane → Lane) : (s.onLane f).clusters = s.clusters := rfl
@[simp] theorem State.onLane_cluMap (f : Lane → Lane) : (s.onLane f).cluMap = s.cluMap := rfl
@[simp] theorem State.onLane_tileMap (f : Lane → Lane) : (s.onLane f).tileMap = s.tileMap := rfl
@[simp] theorem State.onLane_kvm (f : Lane → Lane) : (s.onLane f).kvm = s.kvm := rfl
@[simp] theorem State.onLane_srv (f : Lane → Lane) : (s.onLane f).srv = s.srv := rfl
@[simp] theorem State.onLane_realms (f : Lane → Lane) : (s.onLane f).realms = s.realms := rfl
@[simp] theorem State.onLane_keys (f : Lane → Lane) : (s.onLane f).keys = s.keys := rfl
@[simp] theorem State.onLane_laneTiles (f : Lane → Lane) : (s.onLane f).laneTiles = s.laneTiles := rfl
@[simp] theorem State.onLane_laneParts (f : Lane → Lane) : (s.onLane f).laneParts = s.laneParts := rfl
@[simp] theorem State.onLane_lane (f : Lane → Lane) : (s.onLane f).lane = f s.lane := rfl
@[simp] theorem State.onLane_vid (f : Lane → Lane) : (s.onLane f).vid = s.vid := rfl
@[simp] theorem State.onLane_boot (f : Lane → Lane) : (s.onLane f).boot = s.boot := rfl
@[simp] theorem State.onLane_flt (f : Lane → Lane) : (s.onLane f).flt = s.flt := rfl
@[simp] theorem State.onLane_drawer (f : Lane → Lane) : (s.onLane f).drawer = s.drawer := rfl
@[simp] theorem State.onLane_det (f : Lane → Lane) : (s.onLane f).det = s.det := rfl
@[simp] theorem State.onLane_clk (f : Lane → Lane) : (s.onLane f).clk = s.clk := rfl
@[simp] theorem State.onLane_stave (f : Lane → Lane) : (s.onLane f).stave = s.stave := rfl
@[simp] theorem State.onLane_sec (f : Lane → Lane) : (s.onLane f).sec = s.sec := rfl
@[simp] theorem State.onLane_pwr (f : Lane → Lane) : (s.onLane f).pwr = s.pwr := rfl
@[simp] theorem State.onLane_out (f : Lane → Lane) : (s.onLane f).out = s.out := rfl
@[simp] theorem State.onLane_pending (f : Lane → Lane) : (s.onLane f).pending = s.pending := rfl

/-! ### onVid -/

@[simp] theorem State.onVid_gauge (f : Vid → Vid) : (s.onVid f).gauge = s.gauge := rfl
@[simp] theorem State.onVid_free (f : Vid → Vid) : (s.onVid f).free = s.free := rfl
@[simp] theorem State.onVid_mem (f : Vid → Vid) : (s.onVid f).mem = s.mem := rfl
@[simp] theorem State.onVid_regs (f : Vid → Vid) : (s.onVid f).regs = s.regs := rfl
@[simp] theorem State.onVid_sqc (f : Vid → Vid) : (s.onVid f).sqc = s.sqc := rfl
@[simp] theorem State.onVid_evSeq (f : Vid → Vid) : (s.onVid f).evSeq = s.evSeq := rfl
@[simp] theorem State.onVid_queues (f : Vid → Vid) : (s.onVid f).queues = s.queues := rfl
@[simp] theorem State.onVid_rings (f : Vid → Vid) : (s.onVid f).rings = s.rings := rfl
@[simp] theorem State.onVid_evRings (f : Vid → Vid) : (s.onVid f).evRings = s.evRings := rfl
@[simp] theorem State.onVid_nextUid (f : Vid → Vid) : (s.onVid f).nextUid = s.nextUid := rfl
@[simp] theorem State.onVid_jobs (f : Vid → Vid) : (s.onVid f).jobs = s.jobs := rfl
@[simp] theorem State.onVid_tiles (f : Vid → Vid) : (s.onVid f).tiles = s.tiles := rfl
@[simp] theorem State.onVid_clusters (f : Vid → Vid) : (s.onVid f).clusters = s.clusters := rfl
@[simp] theorem State.onVid_cluMap (f : Vid → Vid) : (s.onVid f).cluMap = s.cluMap := rfl
@[simp] theorem State.onVid_tileMap (f : Vid → Vid) : (s.onVid f).tileMap = s.tileMap := rfl
@[simp] theorem State.onVid_kvm (f : Vid → Vid) : (s.onVid f).kvm = s.kvm := rfl
@[simp] theorem State.onVid_srv (f : Vid → Vid) : (s.onVid f).srv = s.srv := rfl
@[simp] theorem State.onVid_realms (f : Vid → Vid) : (s.onVid f).realms = s.realms := rfl
@[simp] theorem State.onVid_keys (f : Vid → Vid) : (s.onVid f).keys = s.keys := rfl
@[simp] theorem State.onVid_laneTiles (f : Vid → Vid) : (s.onVid f).laneTiles = s.laneTiles := rfl
@[simp] theorem State.onVid_laneParts (f : Vid → Vid) : (s.onVid f).laneParts = s.laneParts := rfl
@[simp] theorem State.onVid_lane (f : Vid → Vid) : (s.onVid f).lane = s.lane := rfl
@[simp] theorem State.onVid_vid (f : Vid → Vid) : (s.onVid f).vid = f s.vid := rfl
@[simp] theorem State.onVid_boot (f : Vid → Vid) : (s.onVid f).boot = s.boot := rfl
@[simp] theorem State.onVid_flt (f : Vid → Vid) : (s.onVid f).flt = s.flt := rfl
@[simp] theorem State.onVid_drawer (f : Vid → Vid) : (s.onVid f).drawer = s.drawer := rfl
@[simp] theorem State.onVid_det (f : Vid → Vid) : (s.onVid f).det = s.det := rfl
@[simp] theorem State.onVid_clk (f : Vid → Vid) : (s.onVid f).clk = s.clk := rfl
@[simp] theorem State.onVid_stave (f : Vid → Vid) : (s.onVid f).stave = s.stave := rfl
@[simp] theorem State.onVid_sec (f : Vid → Vid) : (s.onVid f).sec = s.sec := rfl
@[simp] theorem State.onVid_pwr (f : Vid → Vid) : (s.onVid f).pwr = s.pwr := rfl
@[simp] theorem State.onVid_out (f : Vid → Vid) : (s.onVid f).out = s.out := rfl
@[simp] theorem State.onVid_pending (f : Vid → Vid) : (s.onVid f).pending = s.pending := rfl

/-! ### onBoot -/

@[simp] theorem State.onBoot_gauge (f : Boot → Boot) : (s.onBoot f).gauge = s.gauge := rfl
@[simp] theorem State.onBoot_free (f : Boot → Boot) : (s.onBoot f).free = s.free := rfl
@[simp] theorem State.onBoot_mem (f : Boot → Boot) : (s.onBoot f).mem = s.mem := rfl
@[simp] theorem State.onBoot_regs (f : Boot → Boot) : (s.onBoot f).regs = s.regs := rfl
@[simp] theorem State.onBoot_sqc (f : Boot → Boot) : (s.onBoot f).sqc = s.sqc := rfl
@[simp] theorem State.onBoot_evSeq (f : Boot → Boot) : (s.onBoot f).evSeq = s.evSeq := rfl
@[simp] theorem State.onBoot_queues (f : Boot → Boot) : (s.onBoot f).queues = s.queues := rfl
@[simp] theorem State.onBoot_rings (f : Boot → Boot) : (s.onBoot f).rings = s.rings := rfl
@[simp] theorem State.onBoot_evRings (f : Boot → Boot) : (s.onBoot f).evRings = s.evRings := rfl
@[simp] theorem State.onBoot_nextUid (f : Boot → Boot) : (s.onBoot f).nextUid = s.nextUid := rfl
@[simp] theorem State.onBoot_jobs (f : Boot → Boot) : (s.onBoot f).jobs = s.jobs := rfl
@[simp] theorem State.onBoot_tiles (f : Boot → Boot) : (s.onBoot f).tiles = s.tiles := rfl
@[simp] theorem State.onBoot_clusters (f : Boot → Boot) : (s.onBoot f).clusters = s.clusters := rfl
@[simp] theorem State.onBoot_cluMap (f : Boot → Boot) : (s.onBoot f).cluMap = s.cluMap := rfl
@[simp] theorem State.onBoot_tileMap (f : Boot → Boot) : (s.onBoot f).tileMap = s.tileMap := rfl
@[simp] theorem State.onBoot_kvm (f : Boot → Boot) : (s.onBoot f).kvm = s.kvm := rfl
@[simp] theorem State.onBoot_srv (f : Boot → Boot) : (s.onBoot f).srv = s.srv := rfl
@[simp] theorem State.onBoot_realms (f : Boot → Boot) : (s.onBoot f).realms = s.realms := rfl
@[simp] theorem State.onBoot_keys (f : Boot → Boot) : (s.onBoot f).keys = s.keys := rfl
@[simp] theorem State.onBoot_laneTiles (f : Boot → Boot) : (s.onBoot f).laneTiles = s.laneTiles := rfl
@[simp] theorem State.onBoot_laneParts (f : Boot → Boot) : (s.onBoot f).laneParts = s.laneParts := rfl
@[simp] theorem State.onBoot_lane (f : Boot → Boot) : (s.onBoot f).lane = s.lane := rfl
@[simp] theorem State.onBoot_vid (f : Boot → Boot) : (s.onBoot f).vid = s.vid := rfl
@[simp] theorem State.onBoot_boot (f : Boot → Boot) : (s.onBoot f).boot = f s.boot := rfl
@[simp] theorem State.onBoot_flt (f : Boot → Boot) : (s.onBoot f).flt = s.flt := rfl
@[simp] theorem State.onBoot_drawer (f : Boot → Boot) : (s.onBoot f).drawer = s.drawer := rfl
@[simp] theorem State.onBoot_det (f : Boot → Boot) : (s.onBoot f).det = s.det := rfl
@[simp] theorem State.onBoot_clk (f : Boot → Boot) : (s.onBoot f).clk = s.clk := rfl
@[simp] theorem State.onBoot_stave (f : Boot → Boot) : (s.onBoot f).stave = s.stave := rfl
@[simp] theorem State.onBoot_sec (f : Boot → Boot) : (s.onBoot f).sec = s.sec := rfl
@[simp] theorem State.onBoot_pwr (f : Boot → Boot) : (s.onBoot f).pwr = s.pwr := rfl
@[simp] theorem State.onBoot_out (f : Boot → Boot) : (s.onBoot f).out = s.out := rfl
@[simp] theorem State.onBoot_pending (f : Boot → Boot) : (s.onBoot f).pending = s.pending := rfl

/-! ### onFlt -/

@[simp] theorem State.onFlt_gauge (f : Flt → Flt) : (s.onFlt f).gauge = s.gauge := rfl
@[simp] theorem State.onFlt_free (f : Flt → Flt) : (s.onFlt f).free = s.free := rfl
@[simp] theorem State.onFlt_mem (f : Flt → Flt) : (s.onFlt f).mem = s.mem := rfl
@[simp] theorem State.onFlt_regs (f : Flt → Flt) : (s.onFlt f).regs = s.regs := rfl
@[simp] theorem State.onFlt_sqc (f : Flt → Flt) : (s.onFlt f).sqc = s.sqc := rfl
@[simp] theorem State.onFlt_evSeq (f : Flt → Flt) : (s.onFlt f).evSeq = s.evSeq := rfl
@[simp] theorem State.onFlt_queues (f : Flt → Flt) : (s.onFlt f).queues = s.queues := rfl
@[simp] theorem State.onFlt_rings (f : Flt → Flt) : (s.onFlt f).rings = s.rings := rfl
@[simp] theorem State.onFlt_evRings (f : Flt → Flt) : (s.onFlt f).evRings = s.evRings := rfl
@[simp] theorem State.onFlt_nextUid (f : Flt → Flt) : (s.onFlt f).nextUid = s.nextUid := rfl
@[simp] theorem State.onFlt_jobs (f : Flt → Flt) : (s.onFlt f).jobs = s.jobs := rfl
@[simp] theorem State.onFlt_tiles (f : Flt → Flt) : (s.onFlt f).tiles = s.tiles := rfl
@[simp] theorem State.onFlt_clusters (f : Flt → Flt) : (s.onFlt f).clusters = s.clusters := rfl
@[simp] theorem State.onFlt_cluMap (f : Flt → Flt) : (s.onFlt f).cluMap = s.cluMap := rfl
@[simp] theorem State.onFlt_tileMap (f : Flt → Flt) : (s.onFlt f).tileMap = s.tileMap := rfl
@[simp] theorem State.onFlt_kvm (f : Flt → Flt) : (s.onFlt f).kvm = s.kvm := rfl
@[simp] theorem State.onFlt_srv (f : Flt → Flt) : (s.onFlt f).srv = s.srv := rfl
@[simp] theorem State.onFlt_realms (f : Flt → Flt) : (s.onFlt f).realms = s.realms := rfl
@[simp] theorem State.onFlt_keys (f : Flt → Flt) : (s.onFlt f).keys = s.keys := rfl
@[simp] theorem State.onFlt_laneTiles (f : Flt → Flt) : (s.onFlt f).laneTiles = s.laneTiles := rfl
@[simp] theorem State.onFlt_laneParts (f : Flt → Flt) : (s.onFlt f).laneParts = s.laneParts := rfl
@[simp] theorem State.onFlt_lane (f : Flt → Flt) : (s.onFlt f).lane = s.lane := rfl
@[simp] theorem State.onFlt_vid (f : Flt → Flt) : (s.onFlt f).vid = s.vid := rfl
@[simp] theorem State.onFlt_boot (f : Flt → Flt) : (s.onFlt f).boot = s.boot := rfl
@[simp] theorem State.onFlt_flt (f : Flt → Flt) : (s.onFlt f).flt = f s.flt := rfl
@[simp] theorem State.onFlt_drawer (f : Flt → Flt) : (s.onFlt f).drawer = s.drawer := rfl
@[simp] theorem State.onFlt_det (f : Flt → Flt) : (s.onFlt f).det = s.det := rfl
@[simp] theorem State.onFlt_clk (f : Flt → Flt) : (s.onFlt f).clk = s.clk := rfl
@[simp] theorem State.onFlt_stave (f : Flt → Flt) : (s.onFlt f).stave = s.stave := rfl
@[simp] theorem State.onFlt_sec (f : Flt → Flt) : (s.onFlt f).sec = s.sec := rfl
@[simp] theorem State.onFlt_pwr (f : Flt → Flt) : (s.onFlt f).pwr = s.pwr := rfl
@[simp] theorem State.onFlt_out (f : Flt → Flt) : (s.onFlt f).out = s.out := rfl
@[simp] theorem State.onFlt_pending (f : Flt → Flt) : (s.onFlt f).pending = s.pending := rfl

/-! ### onDet -/

@[simp] theorem State.onDet_gauge (f : Det → Det) : (s.onDet f).gauge = s.gauge := rfl
@[simp] theorem State.onDet_free (f : Det → Det) : (s.onDet f).free = s.free := rfl
@[simp] theorem State.onDet_mem (f : Det → Det) : (s.onDet f).mem = s.mem := rfl
@[simp] theorem State.onDet_regs (f : Det → Det) : (s.onDet f).regs = s.regs := rfl
@[simp] theorem State.onDet_sqc (f : Det → Det) : (s.onDet f).sqc = s.sqc := rfl
@[simp] theorem State.onDet_evSeq (f : Det → Det) : (s.onDet f).evSeq = s.evSeq := rfl
@[simp] theorem State.onDet_queues (f : Det → Det) : (s.onDet f).queues = s.queues := rfl
@[simp] theorem State.onDet_rings (f : Det → Det) : (s.onDet f).rings = s.rings := rfl
@[simp] theorem State.onDet_evRings (f : Det → Det) : (s.onDet f).evRings = s.evRings := rfl
@[simp] theorem State.onDet_nextUid (f : Det → Det) : (s.onDet f).nextUid = s.nextUid := rfl
@[simp] theorem State.onDet_jobs (f : Det → Det) : (s.onDet f).jobs = s.jobs := rfl
@[simp] theorem State.onDet_tiles (f : Det → Det) : (s.onDet f).tiles = s.tiles := rfl
@[simp] theorem State.onDet_clusters (f : Det → Det) : (s.onDet f).clusters = s.clusters := rfl
@[simp] theorem State.onDet_cluMap (f : Det → Det) : (s.onDet f).cluMap = s.cluMap := rfl
@[simp] theorem State.onDet_tileMap (f : Det → Det) : (s.onDet f).tileMap = s.tileMap := rfl
@[simp] theorem State.onDet_kvm (f : Det → Det) : (s.onDet f).kvm = s.kvm := rfl
@[simp] theorem State.onDet_srv (f : Det → Det) : (s.onDet f).srv = s.srv := rfl
@[simp] theorem State.onDet_realms (f : Det → Det) : (s.onDet f).realms = s.realms := rfl
@[simp] theorem State.onDet_keys (f : Det → Det) : (s.onDet f).keys = s.keys := rfl
@[simp] theorem State.onDet_laneTiles (f : Det → Det) : (s.onDet f).laneTiles = s.laneTiles := rfl
@[simp] theorem State.onDet_laneParts (f : Det → Det) : (s.onDet f).laneParts = s.laneParts := rfl
@[simp] theorem State.onDet_lane (f : Det → Det) : (s.onDet f).lane = s.lane := rfl
@[simp] theorem State.onDet_vid (f : Det → Det) : (s.onDet f).vid = s.vid := rfl
@[simp] theorem State.onDet_boot (f : Det → Det) : (s.onDet f).boot = s.boot := rfl
@[simp] theorem State.onDet_flt (f : Det → Det) : (s.onDet f).flt = s.flt := rfl
@[simp] theorem State.onDet_drawer (f : Det → Det) : (s.onDet f).drawer = s.drawer := rfl
@[simp] theorem State.onDet_det (f : Det → Det) : (s.onDet f).det = f s.det := rfl
@[simp] theorem State.onDet_clk (f : Det → Det) : (s.onDet f).clk = s.clk := rfl
@[simp] theorem State.onDet_stave (f : Det → Det) : (s.onDet f).stave = s.stave := rfl
@[simp] theorem State.onDet_sec (f : Det → Det) : (s.onDet f).sec = s.sec := rfl
@[simp] theorem State.onDet_pwr (f : Det → Det) : (s.onDet f).pwr = s.pwr := rfl
@[simp] theorem State.onDet_out (f : Det → Det) : (s.onDet f).out = s.out := rfl
@[simp] theorem State.onDet_pending (f : Det → Det) : (s.onDet f).pending = s.pending := rfl

/-! ### onClk -/

@[simp] theorem State.onClk_gauge (f : Clk → Clk) : (s.onClk f).gauge = s.gauge := rfl
@[simp] theorem State.onClk_free (f : Clk → Clk) : (s.onClk f).free = s.free := rfl
@[simp] theorem State.onClk_mem (f : Clk → Clk) : (s.onClk f).mem = s.mem := rfl
@[simp] theorem State.onClk_regs (f : Clk → Clk) : (s.onClk f).regs = s.regs := rfl
@[simp] theorem State.onClk_sqc (f : Clk → Clk) : (s.onClk f).sqc = s.sqc := rfl
@[simp] theorem State.onClk_evSeq (f : Clk → Clk) : (s.onClk f).evSeq = s.evSeq := rfl
@[simp] theorem State.onClk_queues (f : Clk → Clk) : (s.onClk f).queues = s.queues := rfl
@[simp] theorem State.onClk_rings (f : Clk → Clk) : (s.onClk f).rings = s.rings := rfl
@[simp] theorem State.onClk_evRings (f : Clk → Clk) : (s.onClk f).evRings = s.evRings := rfl
@[simp] theorem State.onClk_nextUid (f : Clk → Clk) : (s.onClk f).nextUid = s.nextUid := rfl
@[simp] theorem State.onClk_jobs (f : Clk → Clk) : (s.onClk f).jobs = s.jobs := rfl
@[simp] theorem State.onClk_tiles (f : Clk → Clk) : (s.onClk f).tiles = s.tiles := rfl
@[simp] theorem State.onClk_clusters (f : Clk → Clk) : (s.onClk f).clusters = s.clusters := rfl
@[simp] theorem State.onClk_cluMap (f : Clk → Clk) : (s.onClk f).cluMap = s.cluMap := rfl
@[simp] theorem State.onClk_tileMap (f : Clk → Clk) : (s.onClk f).tileMap = s.tileMap := rfl
@[simp] theorem State.onClk_kvm (f : Clk → Clk) : (s.onClk f).kvm = s.kvm := rfl
@[simp] theorem State.onClk_srv (f : Clk → Clk) : (s.onClk f).srv = s.srv := rfl
@[simp] theorem State.onClk_realms (f : Clk → Clk) : (s.onClk f).realms = s.realms := rfl
@[simp] theorem State.onClk_keys (f : Clk → Clk) : (s.onClk f).keys = s.keys := rfl
@[simp] theorem State.onClk_laneTiles (f : Clk → Clk) : (s.onClk f).laneTiles = s.laneTiles := rfl
@[simp] theorem State.onClk_laneParts (f : Clk → Clk) : (s.onClk f).laneParts = s.laneParts := rfl
@[simp] theorem State.onClk_lane (f : Clk → Clk) : (s.onClk f).lane = s.lane := rfl
@[simp] theorem State.onClk_vid (f : Clk → Clk) : (s.onClk f).vid = s.vid := rfl
@[simp] theorem State.onClk_boot (f : Clk → Clk) : (s.onClk f).boot = s.boot := rfl
@[simp] theorem State.onClk_flt (f : Clk → Clk) : (s.onClk f).flt = s.flt := rfl
@[simp] theorem State.onClk_drawer (f : Clk → Clk) : (s.onClk f).drawer = s.drawer := rfl
@[simp] theorem State.onClk_det (f : Clk → Clk) : (s.onClk f).det = s.det := rfl
@[simp] theorem State.onClk_clk (f : Clk → Clk) : (s.onClk f).clk = f s.clk := rfl
@[simp] theorem State.onClk_stave (f : Clk → Clk) : (s.onClk f).stave = s.stave := rfl
@[simp] theorem State.onClk_sec (f : Clk → Clk) : (s.onClk f).sec = s.sec := rfl
@[simp] theorem State.onClk_pwr (f : Clk → Clk) : (s.onClk f).pwr = s.pwr := rfl
@[simp] theorem State.onClk_out (f : Clk → Clk) : (s.onClk f).out = s.out := rfl
@[simp] theorem State.onClk_pending (f : Clk → Clk) : (s.onClk f).pending = s.pending := rfl

/-! ### onStave -/

@[simp] theorem State.onStave_gauge (f : Stave → Stave) : (s.onStave f).gauge = s.gauge := rfl
@[simp] theorem State.onStave_free (f : Stave → Stave) : (s.onStave f).free = s.free := rfl
@[simp] theorem State.onStave_mem (f : Stave → Stave) : (s.onStave f).mem = s.mem := rfl
@[simp] theorem State.onStave_regs (f : Stave → Stave) : (s.onStave f).regs = s.regs := rfl
@[simp] theorem State.onStave_sqc (f : Stave → Stave) : (s.onStave f).sqc = s.sqc := rfl
@[simp] theorem State.onStave_evSeq (f : Stave → Stave) : (s.onStave f).evSeq = s.evSeq := rfl
@[simp] theorem State.onStave_queues (f : Stave → Stave) : (s.onStave f).queues = s.queues := rfl
@[simp] theorem State.onStave_rings (f : Stave → Stave) : (s.onStave f).rings = s.rings := rfl
@[simp] theorem State.onStave_evRings (f : Stave → Stave) : (s.onStave f).evRings = s.evRings := rfl
@[simp] theorem State.onStave_nextUid (f : Stave → Stave) : (s.onStave f).nextUid = s.nextUid := rfl
@[simp] theorem State.onStave_jobs (f : Stave → Stave) : (s.onStave f).jobs = s.jobs := rfl
@[simp] theorem State.onStave_tiles (f : Stave → Stave) : (s.onStave f).tiles = s.tiles := rfl
@[simp] theorem State.onStave_clusters (f : Stave → Stave) : (s.onStave f).clusters = s.clusters := rfl
@[simp] theorem State.onStave_cluMap (f : Stave → Stave) : (s.onStave f).cluMap = s.cluMap := rfl
@[simp] theorem State.onStave_tileMap (f : Stave → Stave) : (s.onStave f).tileMap = s.tileMap := rfl
@[simp] theorem State.onStave_kvm (f : Stave → Stave) : (s.onStave f).kvm = s.kvm := rfl
@[simp] theorem State.onStave_srv (f : Stave → Stave) : (s.onStave f).srv = s.srv := rfl
@[simp] theorem State.onStave_realms (f : Stave → Stave) : (s.onStave f).realms = s.realms := rfl
@[simp] theorem State.onStave_keys (f : Stave → Stave) : (s.onStave f).keys = s.keys := rfl
@[simp] theorem State.onStave_laneTiles (f : Stave → Stave) : (s.onStave f).laneTiles = s.laneTiles := rfl
@[simp] theorem State.onStave_laneParts (f : Stave → Stave) : (s.onStave f).laneParts = s.laneParts := rfl
@[simp] theorem State.onStave_lane (f : Stave → Stave) : (s.onStave f).lane = s.lane := rfl
@[simp] theorem State.onStave_vid (f : Stave → Stave) : (s.onStave f).vid = s.vid := rfl
@[simp] theorem State.onStave_boot (f : Stave → Stave) : (s.onStave f).boot = s.boot := rfl
@[simp] theorem State.onStave_flt (f : Stave → Stave) : (s.onStave f).flt = s.flt := rfl
@[simp] theorem State.onStave_drawer (f : Stave → Stave) : (s.onStave f).drawer = s.drawer := rfl
@[simp] theorem State.onStave_det (f : Stave → Stave) : (s.onStave f).det = s.det := rfl
@[simp] theorem State.onStave_clk (f : Stave → Stave) : (s.onStave f).clk = s.clk := rfl
@[simp] theorem State.onStave_stave (f : Stave → Stave) : (s.onStave f).stave = f s.stave := rfl
@[simp] theorem State.onStave_sec (f : Stave → Stave) : (s.onStave f).sec = s.sec := rfl
@[simp] theorem State.onStave_pwr (f : Stave → Stave) : (s.onStave f).pwr = s.pwr := rfl
@[simp] theorem State.onStave_out (f : Stave → Stave) : (s.onStave f).out = s.out := rfl
@[simp] theorem State.onStave_pending (f : Stave → Stave) : (s.onStave f).pending = s.pending := rfl

/-! ### onSec -/

@[simp] theorem State.onSec_gauge (f : Sec → Sec) : (s.onSec f).gauge = s.gauge := rfl
@[simp] theorem State.onSec_free (f : Sec → Sec) : (s.onSec f).free = s.free := rfl
@[simp] theorem State.onSec_mem (f : Sec → Sec) : (s.onSec f).mem = s.mem := rfl
@[simp] theorem State.onSec_regs (f : Sec → Sec) : (s.onSec f).regs = s.regs := rfl
@[simp] theorem State.onSec_sqc (f : Sec → Sec) : (s.onSec f).sqc = s.sqc := rfl
@[simp] theorem State.onSec_evSeq (f : Sec → Sec) : (s.onSec f).evSeq = s.evSeq := rfl
@[simp] theorem State.onSec_queues (f : Sec → Sec) : (s.onSec f).queues = s.queues := rfl
@[simp] theorem State.onSec_rings (f : Sec → Sec) : (s.onSec f).rings = s.rings := rfl
@[simp] theorem State.onSec_evRings (f : Sec → Sec) : (s.onSec f).evRings = s.evRings := rfl
@[simp] theorem State.onSec_nextUid (f : Sec → Sec) : (s.onSec f).nextUid = s.nextUid := rfl
@[simp] theorem State.onSec_jobs (f : Sec → Sec) : (s.onSec f).jobs = s.jobs := rfl
@[simp] theorem State.onSec_tiles (f : Sec → Sec) : (s.onSec f).tiles = s.tiles := rfl
@[simp] theorem State.onSec_clusters (f : Sec → Sec) : (s.onSec f).clusters = s.clusters := rfl
@[simp] theorem State.onSec_cluMap (f : Sec → Sec) : (s.onSec f).cluMap = s.cluMap := rfl
@[simp] theorem State.onSec_tileMap (f : Sec → Sec) : (s.onSec f).tileMap = s.tileMap := rfl
@[simp] theorem State.onSec_kvm (f : Sec → Sec) : (s.onSec f).kvm = s.kvm := rfl
@[simp] theorem State.onSec_srv (f : Sec → Sec) : (s.onSec f).srv = s.srv := rfl
@[simp] theorem State.onSec_realms (f : Sec → Sec) : (s.onSec f).realms = s.realms := rfl
@[simp] theorem State.onSec_keys (f : Sec → Sec) : (s.onSec f).keys = s.keys := rfl
@[simp] theorem State.onSec_laneTiles (f : Sec → Sec) : (s.onSec f).laneTiles = s.laneTiles := rfl
@[simp] theorem State.onSec_laneParts (f : Sec → Sec) : (s.onSec f).laneParts = s.laneParts := rfl
@[simp] theorem State.onSec_lane (f : Sec → Sec) : (s.onSec f).lane = s.lane := rfl
@[simp] theorem State.onSec_vid (f : Sec → Sec) : (s.onSec f).vid = s.vid := rfl
@[simp] theorem State.onSec_boot (f : Sec → Sec) : (s.onSec f).boot = s.boot := rfl
@[simp] theorem State.onSec_flt (f : Sec → Sec) : (s.onSec f).flt = s.flt := rfl
@[simp] theorem State.onSec_drawer (f : Sec → Sec) : (s.onSec f).drawer = s.drawer := rfl
@[simp] theorem State.onSec_det (f : Sec → Sec) : (s.onSec f).det = s.det := rfl
@[simp] theorem State.onSec_clk (f : Sec → Sec) : (s.onSec f).clk = s.clk := rfl
@[simp] theorem State.onSec_stave (f : Sec → Sec) : (s.onSec f).stave = s.stave := rfl
@[simp] theorem State.onSec_sec (f : Sec → Sec) : (s.onSec f).sec = f s.sec := rfl
@[simp] theorem State.onSec_pwr (f : Sec → Sec) : (s.onSec f).pwr = s.pwr := rfl
@[simp] theorem State.onSec_out (f : Sec → Sec) : (s.onSec f).out = s.out := rfl
@[simp] theorem State.onSec_pending (f : Sec → Sec) : (s.onSec f).pending = s.pending := rfl

/-! ### onPwr -/

@[simp] theorem State.onPwr_gauge (f : Pwr → Pwr) : (s.onPwr f).gauge = s.gauge := rfl
@[simp] theorem State.onPwr_free (f : Pwr → Pwr) : (s.onPwr f).free = s.free := rfl
@[simp] theorem State.onPwr_mem (f : Pwr → Pwr) : (s.onPwr f).mem = s.mem := rfl
@[simp] theorem State.onPwr_regs (f : Pwr → Pwr) : (s.onPwr f).regs = s.regs := rfl
@[simp] theorem State.onPwr_sqc (f : Pwr → Pwr) : (s.onPwr f).sqc = s.sqc := rfl
@[simp] theorem State.onPwr_evSeq (f : Pwr → Pwr) : (s.onPwr f).evSeq = s.evSeq := rfl
@[simp] theorem State.onPwr_queues (f : Pwr → Pwr) : (s.onPwr f).queues = s.queues := rfl
@[simp] theorem State.onPwr_rings (f : Pwr → Pwr) : (s.onPwr f).rings = s.rings := rfl
@[simp] theorem State.onPwr_evRings (f : Pwr → Pwr) : (s.onPwr f).evRings = s.evRings := rfl
@[simp] theorem State.onPwr_nextUid (f : Pwr → Pwr) : (s.onPwr f).nextUid = s.nextUid := rfl
@[simp] theorem State.onPwr_jobs (f : Pwr → Pwr) : (s.onPwr f).jobs = s.jobs := rfl
@[simp] theorem State.onPwr_tiles (f : Pwr → Pwr) : (s.onPwr f).tiles = s.tiles := rfl
@[simp] theorem State.onPwr_clusters (f : Pwr → Pwr) : (s.onPwr f).clusters = s.clusters := rfl
@[simp] theorem State.onPwr_cluMap (f : Pwr → Pwr) : (s.onPwr f).cluMap = s.cluMap := rfl
@[simp] theorem State.onPwr_tileMap (f : Pwr → Pwr) : (s.onPwr f).tileMap = s.tileMap := rfl
@[simp] theorem State.onPwr_kvm (f : Pwr → Pwr) : (s.onPwr f).kvm = s.kvm := rfl
@[simp] theorem State.onPwr_srv (f : Pwr → Pwr) : (s.onPwr f).srv = s.srv := rfl
@[simp] theorem State.onPwr_realms (f : Pwr → Pwr) : (s.onPwr f).realms = s.realms := rfl
@[simp] theorem State.onPwr_keys (f : Pwr → Pwr) : (s.onPwr f).keys = s.keys := rfl
@[simp] theorem State.onPwr_laneTiles (f : Pwr → Pwr) : (s.onPwr f).laneTiles = s.laneTiles := rfl
@[simp] theorem State.onPwr_laneParts (f : Pwr → Pwr) : (s.onPwr f).laneParts = s.laneParts := rfl
@[simp] theorem State.onPwr_lane (f : Pwr → Pwr) : (s.onPwr f).lane = s.lane := rfl
@[simp] theorem State.onPwr_vid (f : Pwr → Pwr) : (s.onPwr f).vid = s.vid := rfl
@[simp] theorem State.onPwr_boot (f : Pwr → Pwr) : (s.onPwr f).boot = s.boot := rfl
@[simp] theorem State.onPwr_flt (f : Pwr → Pwr) : (s.onPwr f).flt = s.flt := rfl
@[simp] theorem State.onPwr_drawer (f : Pwr → Pwr) : (s.onPwr f).drawer = s.drawer := rfl
@[simp] theorem State.onPwr_det (f : Pwr → Pwr) : (s.onPwr f).det = s.det := rfl
@[simp] theorem State.onPwr_clk (f : Pwr → Pwr) : (s.onPwr f).clk = s.clk := rfl
@[simp] theorem State.onPwr_stave (f : Pwr → Pwr) : (s.onPwr f).stave = s.stave := rfl
@[simp] theorem State.onPwr_sec (f : Pwr → Pwr) : (s.onPwr f).sec = s.sec := rfl
@[simp] theorem State.onPwr_pwr (f : Pwr → Pwr) : (s.onPwr f).pwr = f s.pwr := rfl
@[simp] theorem State.onPwr_out (f : Pwr → Pwr) : (s.onPwr f).out = s.out := rfl
@[simp] theorem State.onPwr_pending (f : Pwr → Pwr) : (s.onPwr f).pending = s.pending := rfl

/-! ### send -/

@[simp] theorem State.send_gauge (m : OutMsg) : (s.send m).gauge = s.gauge := rfl
@[simp] theorem State.send_free (m : OutMsg) : (s.send m).free = s.free := rfl
@[simp] theorem State.send_mem (m : OutMsg) : (s.send m).mem = s.mem := rfl
@[simp] theorem State.send_regs (m : OutMsg) : (s.send m).regs = s.regs := rfl
@[simp] theorem State.send_sqc (m : OutMsg) : (s.send m).sqc = s.sqc := rfl
@[simp] theorem State.send_evSeq (m : OutMsg) : (s.send m).evSeq = s.evSeq := rfl
@[simp] theorem State.send_queues (m : OutMsg) : (s.send m).queues = s.queues := rfl
@[simp] theorem State.send_rings (m : OutMsg) : (s.send m).rings = s.rings := rfl
@[simp] theorem State.send_evRings (m : OutMsg) : (s.send m).evRings = s.evRings := rfl
@[simp] theorem State.send_nextUid (m : OutMsg) : (s.send m).nextUid = s.nextUid := rfl
@[simp] theorem State.send_jobs (m : OutMsg) : (s.send m).jobs = s.jobs := rfl
@[simp] theorem State.send_tiles (m : OutMsg) : (s.send m).tiles = s.tiles := rfl
@[simp] theorem State.send_clusters (m : OutMsg) : (s.send m).clusters = s.clusters := rfl
@[simp] theorem State.send_cluMap (m : OutMsg) : (s.send m).cluMap = s.cluMap := rfl
@[simp] theorem State.send_tileMap (m : OutMsg) : (s.send m).tileMap = s.tileMap := rfl
@[simp] theorem State.send_kvm (m : OutMsg) : (s.send m).kvm = s.kvm := rfl
@[simp] theorem State.send_srv (m : OutMsg) : (s.send m).srv = s.srv := rfl
@[simp] theorem State.send_realms (m : OutMsg) : (s.send m).realms = s.realms := rfl
@[simp] theorem State.send_keys (m : OutMsg) : (s.send m).keys = s.keys := rfl
@[simp] theorem State.send_laneTiles (m : OutMsg) : (s.send m).laneTiles = s.laneTiles := rfl
@[simp] theorem State.send_laneParts (m : OutMsg) : (s.send m).laneParts = s.laneParts := rfl
@[simp] theorem State.send_lane (m : OutMsg) : (s.send m).lane = s.lane := rfl
@[simp] theorem State.send_vid (m : OutMsg) : (s.send m).vid = s.vid := rfl
@[simp] theorem State.send_boot (m : OutMsg) : (s.send m).boot = s.boot := rfl
@[simp] theorem State.send_flt (m : OutMsg) : (s.send m).flt = s.flt := rfl
@[simp] theorem State.send_drawer (m : OutMsg) : (s.send m).drawer = s.drawer := rfl
@[simp] theorem State.send_det (m : OutMsg) : (s.send m).det = s.det := rfl
@[simp] theorem State.send_clk (m : OutMsg) : (s.send m).clk = s.clk := rfl
@[simp] theorem State.send_stave (m : OutMsg) : (s.send m).stave = s.stave := rfl
@[simp] theorem State.send_sec (m : OutMsg) : (s.send m).sec = s.sec := rfl
@[simp] theorem State.send_pwr (m : OutMsg) : (s.send m).pwr = s.pwr := rfl
@[simp] theorem State.send_out (m : OutMsg) : (s.send m).out = s.out ++ [m] := rfl
@[simp] theorem State.send_pending (m : OutMsg) : (s.send m).pending = s.pending := rfl

end Sys2Proof.Machine
end

