-- ==== Sys2Proof/Laws/Reads.lean ====
section
/-! SUPPORT. What the reads of the state see after an update of another part of it: nothing new. -/

namespace Sys2Proof.Machine

variable (s : State)

@[simp] theorem State.tile_setWord (r : Reg) (u sel : Nat) (w : Word) (q' : Nat) :
    (s.setWord r u sel w).tile q' = s.tile q' := rfl
@[simp] theorem State.cluster_setWord (r : Reg) (u sel : Nat) (w : Word) (q' : Nat) :
    (s.setWord r u sel w).cluster q' = s.cluster q' := rfl
@[simp] theorem State.ring_setWord (r : Reg) (u sel : Nat) (w : Word) (q' m' : Nat) :
    (s.setWord r u sel w).ring q' m' = s.ring q' m' := rfl
@[simp] theorem State.evRing_setWord (r : Reg) (u sel : Nat) (w : Word) (q' : Nat) :
    (s.setWord r u sel w).evRing q' = s.evRing q' := rfl
@[simp] theorem State.queue_setWord (r : Reg) (u sel : Nat) (w : Word) (q' : Nat) :
    (s.setWord r u sel w).queue q' = s.queue q' := rfl
@[simp] theorem State.realm_setWord (r : Reg) (u sel : Nat) (w : Word) (q' : Nat) :
    (s.setWord r u sel w).realm q' = s.realm q' := rfl
@[simp] theorem State.job_setWord (r : Reg) (u sel : Nat) (w : Word) (q' : Nat) :
    (s.setWord r u sel w).job q' = s.job q' := rfl
@[simp] theorem State.sqcOf_setWord (r : Reg) (u sel : Nat) (w : Word) (r' : Reg) (u' : Nat) :
    (s.setWord r u sel w).sqcOf r' u' = s.sqcOf r' u' := rfl
@[simp] theorem State.descUid_setWord (r : Reg) (u sel : Nat) (w : Word) (q' m' i' : Nat) :
    (s.setWord r u sel w).descUid q' m' i' = s.descUid q' m' i' := rfl
@[simp] theorem State.desc_setWord (r : Reg) (u sel : Nat) (w : Word) (q' m' i' : Nat) :
    (s.setWord r u sel w).desc q' m' i' = s.desc q' m' i' := rfl

@[simp] theorem State.tile_setFld (f : Fld) (v u sel : Nat) (q' : Nat) :
    (s.setFld f v u sel).tile q' = s.tile q' := rfl
@[simp] theorem State.cluster_setFld (f : Fld) (v u sel : Nat) (q' : Nat) :
    (s.setFld f v u sel).cluster q' = s.cluster q' := rfl
@[simp] theorem State.ring_setFld (f : Fld) (v u sel : Nat) (q' m' : Nat) :
    (s.setFld f v u sel).ring q' m' = s.ring q' m' := rfl
@[simp] theorem State.evRing_setFld (f : Fld) (v u sel : Nat) (q' : Nat) :
    (s.setFld f v u sel).evRing q' = s.evRing q' := rfl
@[simp] theorem State.queue_setFld (f : Fld) (v u sel : Nat) (q' : Nat) :
    (s.setFld f v u sel).queue q' = s.queue q' := rfl
@[simp] theorem State.realm_setFld (f : Fld) (v u sel : Nat) (q' : Nat) :
    (s.setFld f v u sel).realm q' = s.realm q' := rfl
@[simp] theorem State.job_setFld (f : Fld) (v u sel : Nat) (q' : Nat) :
    (s.setFld f v u sel).job q' = s.job q' := rfl
@[simp] theorem State.sqcOf_setFld (f : Fld) (v u sel : Nat) (r' : Reg) (u' : Nat) :
    (s.setFld f v u sel).sqcOf r' u' = s.sqcOf r' u' := rfl
@[simp] theorem State.descUid_setFld (f : Fld) (v u sel : Nat) (q' m' i' : Nat) :
    (s.setFld f v u sel).descUid q' m' i' = s.descUid q' m' i' := rfl
@[simp] theorem State.desc_setFld (f : Fld) (v u sel : Nat) (q' m' i' : Nat) :
    (s.setFld f v u sel).desc q' m' i' = s.desc q' m' i' := rfl

@[simp] theorem State.tile_bumpSat (f : Fld) (n u sel : Nat) (q' : Nat) :
    (s.bumpSat f n u sel).tile q' = s.tile q' := rfl
@[simp] theorem State.cluster_bumpSat (f : Fld) (n u sel : Nat) (q' : Nat) :
    (s.bumpSat f n u sel).cluster q' = s.cluster q' := rfl
@[simp] theorem State.ring_bumpSat (f : Fld) (n u sel : Nat) (q' m' : Nat) :
    (s.bumpSat f n u sel).ring q' m' = s.ring q' m' := rfl
@[simp] theorem State.evRing_bumpSat (f : Fld) (n u sel : Nat) (q' : Nat) :
    (s.bumpSat f n u sel).evRing q' = s.evRing q' := rfl
@[simp] theorem State.queue_bumpSat (f : Fld) (n u sel : Nat) (q' : Nat) :
    (s.bumpSat f n u sel).queue q' = s.queue q' := rfl
@[simp] theorem State.realm_bumpSat (f : Fld) (n u sel : Nat) (q' : Nat) :
    (s.bumpSat f n u sel).realm q' = s.realm q' := rfl
@[simp] theorem State.job_bumpSat (f : Fld) (n u sel : Nat) (q' : Nat) :
    (s.bumpSat f n u sel).job q' = s.job q' := rfl
@[simp] theorem State.sqcOf_bumpSat (f : Fld) (n u sel : Nat) (r' : Reg) (u' : Nat) :
    (s.bumpSat f n u sel).sqcOf r' u' = s.sqcOf r' u' := rfl
@[simp] theorem State.descUid_bumpSat (f : Fld) (n u sel : Nat) (q' m' i' : Nat) :
    (s.bumpSat f n u sel).descUid q' m' i' = s.descUid q' m' i' := rfl
@[simp] theorem State.desc_bumpSat (f : Fld) (n u sel : Nat) (q' m' i' : Nat) :
    (s.bumpSat f n u sel).desc q' m' i' = s.desc q' m' i' := rfl

@[simp] theorem State.tile_bumpWrap (f : Fld) (n u sel : Nat) (q' : Nat) :
    (s.bumpWrap f n u sel).tile q' = s.tile q' := rfl
@[simp] theorem State.cluster_bumpWrap (f : Fld) (n u sel : Nat) (q' : Nat) :
    (s.bumpWrap f n u sel).cluster q' = s.cluster q' := rfl
@[simp] theorem State.ring_bumpWrap (f : Fld) (n u sel : Nat) (q' m' : Nat) :
    (s.bumpWrap f n u sel).ring q' m' = s.ring q' m' := rfl
@[simp] theorem State.evRing_bumpWrap (f : Fld) (n u sel : Nat) (q' : Nat) :
    (s.bumpWrap f n u sel).evRing q' = s.evRing q' := rfl
@[simp] theorem State.queue_bumpWrap (f : Fld) (n u sel : Nat) (q' : Nat) :
    (s.bumpWrap f n u sel).queue q' = s.queue q' := rfl
@[simp] theorem State.realm_bumpWrap (f : Fld) (n u sel : Nat) (q' : Nat) :
    (s.bumpWrap f n u sel).realm q' = s.realm q' := rfl
@[simp] theorem State.job_bumpWrap (f : Fld) (n u sel : Nat) (q' : Nat) :
    (s.bumpWrap f n u sel).job q' = s.job q' := rfl
@[simp] theorem State.sqcOf_bumpWrap (f : Fld) (n u sel : Nat) (r' : Reg) (u' : Nat) :
    (s.bumpWrap f n u sel).sqcOf r' u' = s.sqcOf r' u' := rfl
@[simp] theorem State.descUid_bumpWrap (f : Fld) (n u sel : Nat) (q' m' i' : Nat) :
    (s.bumpWrap f n u sel).descUid q' m' i' = s.descUid q' m' i' := rfl
@[simp] theorem State.desc_bumpWrap (f : Fld) (n u sel : Nat) (q' m' i' : Nat) :
    (s.bumpWrap f n u sel).desc q' m' i' = s.desc q' m' i' := rfl

@[simp] theorem State.word_setTile (p : Nat) (x : Tile) (r' : Reg) (u' sel' : Nat) :
    (s.setTile p x).word r' u' sel' = s.word r' u' sel' := rfl
@[simp] theorem State.fld_setTile (p : Nat) (x : Tile) (g : Fld) (u' sel' : Nat) :
    (s.setTile p x).fld g u' sel' = s.fld g u' sel' := rfl
@[simp] theorem State.flag_setTile (p : Nat) (x : Tile) (g : Fld) (u' sel' : Nat) :
    (s.setTile p x).flag g u' sel' = s.flag g u' sel' := rfl
@[simp] theorem State.cluster_setTile (p : Nat) (x : Tile) (q' : Nat) :
    (s.setTile p x).cluster q' = s.cluster q' := rfl
@[simp] theorem State.ring_setTile (p : Nat) (x : Tile) (q' m' : Nat) :
    (s.setTile p x).ring q' m' = s.ring q' m' := rfl
@[simp] theorem State.evRing_setTile (p : Nat) (x : Tile) (q' : Nat) :
    (s.setTile p x).evRing q' = s.evRing q' := rfl
@[simp] theorem State.queue_setTile (p : Nat) (x : Tile) (q' : Nat) :
    (s.setTile p x).queue q' = s.queue q' := rfl
@[simp] theorem State.realm_setTile (p : Nat) (x : Tile) (q' : Nat) :
    (s.setTile p x).realm q' = s.realm q' := rfl
@[simp] theorem State.job_setTile (p : Nat) (x : Tile) (q' : Nat) :
    (s.setTile p x).job q' = s.job q' := rfl
@[simp] theorem State.sqcOf_setTile (p : Nat) (x : Tile) (r' : Reg) (u' : Nat) :
    (s.setTile p x).sqcOf r' u' = s.sqcOf r' u' := rfl
@[simp] theorem State.descUid_setTile (p : Nat) (x : Tile) (q' m' i' : Nat) :
    (s.setTile p x).descUid q' m' i' = s.descUid q' m' i' := rfl
@[simp] theorem State.desc_setTile (p : Nat) (x : Tile) (q' m' i' : Nat) :
    (s.setTile p x).desc q' m' i' = s.desc q' m' i' := rfl

@[simp] theorem State.word_setCluster (c : Nat) (x : Cluster) (r' : Reg) (u' sel' : Nat) :
    (s.setCluster c x).word r' u' sel' = s.word r' u' sel' := rfl
@[simp] theorem State.fld_setCluster (c : Nat) (x : Cluster) (g : Fld) (u' sel' : Nat) :
    (s.setCluster c x).fld g u' sel' = s.fld g u' sel' := rfl
@[simp] theorem State.flag_setCluster (c : Nat) (x : Cluster) (g : Fld) (u' sel' : Nat) :
    (s.setCluster c x).flag g u' sel' = s.flag g u' sel' := rfl
@[simp] theorem State.tile_setCluster (c : Nat) (x : Cluster) (q' : Nat) :
    (s.setCluster c x).tile q' = s.tile q' := rfl
@[simp] theorem State.ring_setCluster (c : Nat) (x : Cluster) (q' m' : Nat) :
    (s.setCluster c x).ring q' m' = s.ring q' m' := rfl
@[simp] theorem State.evRing_setCluster (c : Nat) (x : Cluster) (q' : Nat) :
    (s.setCluster c x).evRing q' = s.evRing q' := rfl
@[simp] theorem State.queue_setCluster (c : Nat) (x : Cluster) (q' : Nat) :
    (s.setCluster c x).queue q' = s.queue q' := rfl
@[simp] theorem State.realm_setCluster (c : Nat) (x : Cluster) (q' : Nat) :
    (s.setCluster c x).realm q' = s.realm q' := rfl
@[simp] theorem State.job_setCluster (c : Nat) (x : Cluster) (q' : Nat) :
    (s.setCluster c x).job q' = s.job q' := rfl
@[simp] theorem State.sqcOf_setCluster (c : Nat) (x : Cluster) (r' : Reg) (u' : Nat) :
    (s.setCluster c x).sqcOf r' u' = s.sqcOf r' u' := rfl
@[simp] theorem State.descUid_setCluster (c : Nat) (x : Cluster) (q' m' i' : Nat) :
    (s.setCluster c x).descUid q' m' i' = s.descUid q' m' i' := rfl
@[simp] theorem State.desc_setCluster (c : Nat) (x : Cluster) (q' m' i' : Nat) :
    (s.setCluster c x).desc q' m' i' = s.desc q' m' i' := rfl

@[simp] theorem State.word_setRing (r n : Nat) (x : Ring) (r' : Reg) (u' sel' : Nat) :
    (s.setRing r n x).word r' u' sel' = s.word r' u' sel' := rfl
@[simp] theorem State.fld_setRing (r n : Nat) (x : Ring) (g : Fld) (u' sel' : Nat) :
    (s.setRing r n x).fld g u' sel' = s.fld g u' sel' := rfl
@[simp] theorem State.flag_setRing (r n : Nat) (x : Ring) (g : Fld) (u' sel' : Nat) :
    (s.setRing r n x).flag g u' sel' = s.flag g u' sel' := rfl
@[simp] theorem State.tile_setRing (r n : Nat) (x : Ring) (q' : Nat) :
    (s.setRing r n x).tile q' = s.tile q' := rfl
@[simp] theorem State.cluster_setRing (r n : Nat) (x : Ring) (q' : Nat) :
    (s.setRing r n x).cluster q' = s.cluster q' := rfl
@[simp] theorem State.evRing_setRing (r n : Nat) (x : Ring) (q' : Nat) :
    (s.setRing r n x).evRing q' = s.evRing q' := rfl
@[simp] theorem State.queue_setRing (r n : Nat) (x : Ring) (q' : Nat) :
    (s.setRing r n x).queue q' = s.queue q' := rfl
@[simp] theorem State.realm_setRing (r n : Nat) (x : Ring) (q' : Nat) :
    (s.setRing r n x).realm q' = s.realm q' := rfl
@[simp] theorem State.job_setRing (r n : Nat) (x : Ring) (q' : Nat) :
    (s.setRing r n x).job q' = s.job q' := rfl
@[simp] theorem State.sqcOf_setRing (r n : Nat) (x : Ring) (r' : Reg) (u' : Nat) :
    (s.setRing r n x).sqcOf r' u' = s.sqcOf r' u' := rfl

@[simp] theorem State.word_updDesc (r n uid : Nat) (f : Desc → Desc) (r' : Reg) (u' sel' : Nat) :
    (s.updDesc r n uid f).word r' u' sel' = s.word r' u' sel' := rfl
@[simp] theorem State.fld_updDesc (r n uid : Nat) (f : Desc → Desc) (g : Fld) (u' sel' : Nat) :
    (s.updDesc r n uid f).fld g u' sel' = s.fld g u' sel' := rfl
@[simp] theorem State.flag_updDesc (r n uid : Nat) (f : Desc → Desc) (g : Fld) (u' sel' : Nat) :
    (s.updDesc r n uid f).flag g u' sel' = s.flag g u' sel' := rfl
@[simp] theorem State.tile_updDesc (r n uid : Nat) (f : Desc → Desc) (q' : Nat) :
    (s.updDesc r n uid f).tile q' = s.tile q' := rfl
@[simp] theorem State.cluster_updDesc (r n uid : Nat) (f : Desc → Desc) (q' : Nat) :
    (s.updDesc r n uid f).cluster q' = s.cluster q' := rfl
@[simp] theorem State.evRing_updDesc (r n uid : Nat) (f : Desc → Desc) (q' : Nat) :
    (s.updDesc r n uid f).evRing q' = s.evRing q' := rfl
@[simp] theorem State.queue_updDesc (r n uid : Nat) (f : Desc → Desc) (q' : Nat) :
    (s.updDesc r n uid f).queue q' = s.queue q' := rfl
@[simp] theorem State.realm_updDesc (r n uid : Nat) (f : Desc → Desc) (q' : Nat) :
    (s.updDesc r n uid f).realm q' = s.realm q' := rfl
@[simp] theorem State.job_updDesc (r n uid : Nat) (f : Desc → Desc) (q' : Nat) :
    (s.updDesc r n uid f).job q' = s.job q' := rfl
@[simp] theorem State.sqcOf_updDesc (r n uid : Nat) (f : Desc → Desc) (r' : Reg) (u' : Nat) :
    (s.updDesc r n uid f).sqcOf r' u' = s.sqcOf r' u' := rfl

@[simp] theorem State.word_setEvRing (r : Nat) (x : EvRing) (r' : Reg) (u' sel' : Nat) :
    (s.setEvRing r x).word r' u' sel' = s.word r' u' sel' := rfl
@[simp] theorem State.fld_setEvRing (r : Nat) (x : EvRing) (g : Fld) (u' sel' : Nat) :
    (s.setEvRing r x).fld g u' sel' = s.fld g u' sel' := rfl
@[simp] theorem State.flag_setEvRing (r : Nat) (x : EvRing) (g : Fld) (u' sel' : Nat) :
    (s.setEvRing r x).flag g u' sel' = s.flag g u' sel' := rfl
@[simp] theorem State.tile_setEvRing (r : Nat) (x : EvRing) (q' : Nat) :
    (s.setEvRing r x).tile q' = s.tile q' := rfl
@[simp] theorem State.cluster_setEvRing (r : Nat) (x : EvRing) (q' : Nat) :
    (s.setEvRing r x).cluster q' = s.cluster q' := rfl
@[simp] theorem State.ring_setEvRing (r : Nat) (x : EvRing) (q' m' : Nat) :
    (s.setEvRing r x).ring q' m' = s.ring q' m' := rfl
@[simp] theorem State.queue_setEvRing (r : Nat) (x : EvRing) (q' : Nat) :
    (s.setEvRing r x).queue q' = s.queue q' := rfl
@[simp] theorem State.realm_setEvRing (r : Nat) (x : EvRing) (q' : Nat) :
    (s.setEvRing r x).realm q' = s.realm q' := rfl
@[simp] theorem State.job_setEvRing (r : Nat) (x : EvRing) (q' : Nat) :
    (s.setEvRing r x).job q' = s.job q' := rfl
@[simp] theorem State.sqcOf_setEvRing (r : Nat) (x : EvRing) (r' : Reg) (u' : Nat) :
    (s.setEvRing r x).sqcOf r' u' = s.sqcOf r' u' := rfl
@[simp] theorem State.descUid_setEvRing (r : Nat) (x : EvRing) (q' m' i' : Nat) :
    (s.setEvRing r x).descUid q' m' i' = s.descUid q' m' i' := rfl
@[simp] theorem State.desc_setEvRing (r : Nat) (x : EvRing) (q' m' i' : Nat) :
    (s.setEvRing r x).desc q' m' i' = s.desc q' m' i' := rfl

@[simp] theorem State.word_setQueue (q : Nat) (x : IQueue) (r' : Reg) (u' sel' : Nat) :
    (s.setQueue q x).word r' u' sel' = s.word r' u' sel' := rfl
@[simp] theorem State.fld_setQueue (q : Nat) (x : IQueue) (g : Fld) (u' sel' : Nat) :
    (s.setQueue q x).fld g u' sel' = s.fld g u' sel' := rfl
@[simp] theorem State.flag_setQueue (q : Nat) (x : IQueue) (g : Fld) (u' sel' : Nat) :
    (s.setQueue q x).flag g u' sel' = s.flag g u' sel' := rfl
@[simp] theorem State.tile_setQueue (q : Nat) (x : IQueue) (q' : Nat) :
    (s.setQueue q x).tile q' = s.tile q' := rfl
@[simp] theorem State.cluster_setQueue (q : Nat) (x : IQueue) (q' : Nat) :
    (s.setQueue q x).cluster q' = s.cluster q' := rfl
@[simp] theorem State.ring_setQueue (q : Nat) (x : IQueue) (q' m' : Nat) :
    (s.setQueue q x).ring q' m' = s.ring q' m' := rfl
@[simp] theorem State.evRing_setQueue (q : Nat) (x : IQueue) (q' : Nat) :
    (s.setQueue q x).evRing q' = s.evRing q' := rfl
@[simp] theorem State.realm_setQueue (q : Nat) (x : IQueue) (q' : Nat) :
    (s.setQueue q x).realm q' = s.realm q' := rfl
@[simp] theorem State.job_setQueue (q : Nat) (x : IQueue) (q' : Nat) :
    (s.setQueue q x).job q' = s.job q' := rfl
@[simp] theorem State.sqcOf_setQueue (q : Nat) (x : IQueue) (r' : Reg) (u' : Nat) :
    (s.setQueue q x).sqcOf r' u' = s.sqcOf r' u' := rfl
@[simp] theorem State.descUid_setQueue (q : Nat) (x : IQueue) (q' m' i' : Nat) :
    (s.setQueue q x).descUid q' m' i' = s.descUid q' m' i' := rfl
@[simp] theorem State.desc_setQueue (q : Nat) (x : IQueue) (q' m' i' : Nat) :
    (s.setQueue q x).desc q' m' i' = s.desc q' m' i' := rfl

@[simp] theorem State.word_setRealm (r : Nat) (x : Realm) (r' : Reg) (u' sel' : Nat) :
    (s.setRealm r x).word r' u' sel' = s.word r' u' sel' := rfl
@[simp] theorem State.fld_setRealm (r : Nat) (x : Realm) (g : Fld) (u' sel' : Nat) :
    (s.setRealm r x).fld g u' sel' = s.fld g u' sel' := rfl
@[simp] theorem State.flag_setRealm (r : Nat) (x : Realm) (g : Fld) (u' sel' : Nat) :
    (s.setRealm r x).flag g u' sel' = s.flag g u' sel' := rfl
@[simp] theorem State.tile_setRealm (r : Nat) (x : Realm) (q' : Nat) :
    (s.setRealm r x).tile q' = s.tile q' := rfl
@[simp] theorem State.cluster_setRealm (r : Nat) (x : Realm) (q' : Nat) :
    (s.setRealm r x).cluster q' = s.cluster q' := rfl
@[simp] theorem State.ring_setRealm (r : Nat) (x : Realm) (q' m' : Nat) :
    (s.setRealm r x).ring q' m' = s.ring q' m' := rfl
@[simp] theorem State.evRing_setRealm (r : Nat) (x : Realm) (q' : Nat) :
    (s.setRealm r x).evRing q' = s.evRing q' := rfl
@[simp] theorem State.queue_setRealm (r : Nat) (x : Realm) (q' : Nat) :
    (s.setRealm r x).queue q' = s.queue q' := rfl
@[simp] theorem State.job_setRealm (r : Nat) (x : Realm) (q' : Nat) :
    (s.setRealm r x).job q' = s.job q' := rfl
@[simp] theorem State.sqcOf_setRealm (r : Nat) (x : Realm) (r' : Reg) (u' : Nat) :
    (s.setRealm r x).sqcOf r' u' = s.sqcOf r' u' := rfl
@[simp] theorem State.descUid_setRealm (r : Nat) (x : Realm) (q' m' i' : Nat) :
    (s.setRealm r x).descUid q' m' i' = s.descUid q' m' i' := rfl
@[simp] theorem State.desc_setRealm (r : Nat) (x : Realm) (q' m' i' : Nat) :
    (s.setRealm r x).desc q' m' i' = s.desc q' m' i' := rfl

@[simp] theorem State.word_setJob (uid : Nat) (j : Job) (r' : Reg) (u' sel' : Nat) :
    (s.setJob uid j).word r' u' sel' = s.word r' u' sel' := rfl
@[simp] theorem State.fld_setJob (uid : Nat) (j : Job) (g : Fld) (u' sel' : Nat) :
    (s.setJob uid j).fld g u' sel' = s.fld g u' sel' := rfl
@[simp] theorem State.flag_setJob (uid : Nat) (j : Job) (g : Fld) (u' sel' : Nat) :
    (s.setJob uid j).flag g u' sel' = s.flag g u' sel' := rfl
@[simp] theorem State.tile_setJob (uid : Nat) (j : Job) (q' : Nat) :
    (s.setJob uid j).tile q' = s.tile q' := rfl
@[simp] theorem State.cluster_setJob (uid : Nat) (j : Job) (q' : Nat) :
    (s.setJob uid j).cluster q' = s.cluster q' := rfl
@[simp] theorem State.ring_setJob (uid : Nat) (j : Job) (q' m' : Nat) :
    (s.setJob uid j).ring q' m' = s.ring q' m' := rfl
@[simp] theorem State.evRing_setJob (uid : Nat) (j : Job) (q' : Nat) :
    (s.setJob uid j).evRing q' = s.evRing q' := rfl
@[simp] theorem State.queue_setJob (uid : Nat) (j : Job) (q' : Nat) :
    (s.setJob uid j).queue q' = s.queue q' := rfl
@[simp] theorem State.realm_setJob (uid : Nat) (j : Job) (q' : Nat) :
    (s.setJob uid j).realm q' = s.realm q' := rfl
@[simp] theorem State.sqcOf_setJob (uid : Nat) (j : Job) (r' : Reg) (u' : Nat) :
    (s.setJob uid j).sqcOf r' u' = s.sqcOf r' u' := rfl
@[simp] theorem State.descUid_setJob (uid : Nat) (j : Job) (q' m' i' : Nat) :
    (s.setJob uid j).descUid q' m' i' = s.descUid q' m' i' := rfl
@[simp] theorem State.desc_setJob (uid : Nat) (j : Job) (q' m' i' : Nat) :
    (s.setJob uid j).desc q' m' i' = s.desc q' m' i' := rfl

@[simp] theorem State.word_updJob (uid : Nat) (f : Job → Job) (r' : Reg) (u' sel' : Nat) :
    (s.updJob uid f).word r' u' sel' = s.word r' u' sel' := rfl
@[simp] theorem State.fld_updJob (uid : Nat) (f : Job → Job) (g : Fld) (u' sel' : Nat) :
    (s.updJob uid f).fld g u' sel' = s.fld g u' sel' := rfl
@[simp] theorem State.flag_updJob (uid : Nat) (f : Job → Job) (g : Fld) (u' sel' : Nat) :
    (s.updJob uid f).flag g u' sel' = s.flag g u' sel' := rfl
@[simp] theorem State.tile_updJob (uid : Nat) (f : Job → Job) (q' : Nat) :
    (s.updJob uid f).tile q' = s.tile q' := rfl
@[simp] theorem State.cluster_updJob (uid : Nat) (f : Job → Job) (q' : Nat) :
    (s.updJob uid f).cluster q' = s.cluster q' := rfl
@[simp] theorem State.ring_updJob (uid : Nat) (f : Job → Job) (q' m' : Nat) :
    (s.updJob uid f).ring q' m' = s.ring q' m' := rfl
@[simp] theorem State.evRing_updJob (uid : Nat) (f : Job → Job) (q' : Nat) :
    (s.updJob uid f).evRing q' = s.evRing q' := rfl
@[simp] theorem State.queue_updJob (uid : Nat) (f : Job → Job) (q' : Nat) :
    (s.updJob uid f).queue q' = s.queue q' := rfl
@[simp] theorem State.realm_updJob (uid : Nat) (f : Job → Job) (q' : Nat) :
    (s.updJob uid f).realm q' = s.realm q' := rfl
@[simp] theorem State.sqcOf_updJob (uid : Nat) (f : Job → Job) (r' : Reg) (u' : Nat) :
    (s.updJob uid f).sqcOf r' u' = s.sqcOf r' u' := rfl
@[simp] theorem State.descUid_updJob (uid : Nat) (f : Job → Job) (q' m' i' : Nat) :
    (s.updJob uid f).descUid q' m' i' = s.descUid q' m' i' := rfl
@[simp] theorem State.desc_updJob (uid : Nat) (f : Job → Job) (q' m' i' : Nat) :
    (s.updJob uid f).desc q' m' i' = s.desc q' m' i' := rfl

@[simp] theorem State.word_setSqc (r : Reg) (u : Nat) (q : Sqc) (r' : Reg) (u' sel' : Nat) :
    (s.setSqc r u q).word r' u' sel' = s.word r' u' sel' := rfl
@[simp] theorem State.fld_setSqc (r : Reg) (u : Nat) (q : Sqc) (g : Fld) (u' sel' : Nat) :
    (s.setSqc r u q).fld g u' sel' = s.fld g u' sel' := rfl
@[simp] theorem State.flag_setSqc (r : Reg) (u : Nat) (q : Sqc) (g : Fld) (u' sel' : Nat) :
    (s.setSqc r u q).flag g u' sel' = s.flag g u' sel' := rfl
@[simp] theorem State.tile_setSqc (r : Reg) (u : Nat) (q : Sqc) (q' : Nat) :
    (s.setSqc r u q).tile q' = s.tile q' := rfl
@[simp] theorem State.cluster_setSqc (r : Reg) (u : Nat) (q : Sqc) (q' : Nat) :
    (s.setSqc r u q).cluster q' = s.cluster q' := rfl
@[simp] theorem State.ring_setSqc (r : Reg) (u : Nat) (q : Sqc) (q' m' : Nat) :
    (s.setSqc r u q).ring q' m' = s.ring q' m' := rfl
@[simp] theorem State.evRing_setSqc (r : Reg) (u : Nat) (q : Sqc) (q' : Nat) :
    (s.setSqc r u q).evRing q' = s.evRing q' := rfl
@[simp] theorem State.queue_setSqc (r : Reg) (u : Nat) (q : Sqc) (q' : Nat) :
    (s.setSqc r u q).queue q' = s.queue q' := rfl
@[simp] theorem State.realm_setSqc (r : Reg) (u : Nat) (q : Sqc) (q' : Nat) :
    (s.setSqc r u q).realm q' = s.realm q' := rfl
@[simp] theorem State.job_setSqc (r : Reg) (u : Nat) (q : Sqc) (q' : Nat) :
    (s.setSqc r u q).job q' = s.job q' := rfl
@[simp] theorem State.descUid_setSqc (r : Reg) (u : Nat) (q : Sqc) (q' m' i' : Nat) :
    (s.setSqc r u q).descUid q' m' i' = s.descUid q' m' i' := rfl
@[simp] theorem State.desc_setSqc (r : Reg) (u : Nat) (q : Sqc) (q' m' i' : Nat) :
    (s.setSqc r u q).desc q' m' i' = s.desc q' m' i' := rfl

@[simp] theorem State.word_onMem (f : Mem → Mem) (r' : Reg) (u' sel' : Nat) :
    (s.onMem f).word r' u' sel' = s.word r' u' sel' := rfl
@[simp] theorem State.fld_onMem (f : Mem → Mem) (g : Fld) (u' sel' : Nat) :
    (s.onMem f).fld g u' sel' = s.fld g u' sel' := rfl
@[simp] theorem State.flag_onMem (f : Mem → Mem) (g : Fld) (u' sel' : Nat) :
    (s.onMem f).flag g u' sel' = s.flag g u' sel' := rfl
@[simp] theorem State.tile_onMem (f : Mem → Mem) (q' : Nat) :
    (s.onMem f).tile q' = s.tile q' := rfl
@[simp] theorem State.cluster_onMem (f : Mem → Mem) (q' : Nat) :
    (s.onMem f).cluster q' = s.cluster q' := rfl
@[simp] theorem State.ring_onMem (f : Mem → Mem) (q' m' : Nat) :
    (s.onMem f).ring q' m' = s.ring q' m' := rfl
@[simp] theorem State.evRing_onMem (f : Mem → Mem) (q' : Nat) :
    (s.onMem f).evRing q' = s.evRing q' := rfl
@[simp] theorem State.queue_onMem (f : Mem → Mem) (q' : Nat) :
    (s.onMem f).queue q' = s.queue q' := rfl
@[simp] theorem State.realm_onMem (f : Mem → Mem) (q' : Nat) :
    (s.onMem f).realm q' = s.realm q' := rfl
@[simp] theorem State.job_onMem (f : Mem → Mem) (q' : Nat) :
    (s.onMem f).job q' = s.job q' := rfl
@[simp] theorem State.sqcOf_onMem (f : Mem → Mem) (r' : Reg) (u' : Nat) :
    (s.onMem f).sqcOf r' u' = s.sqcOf r' u' := rfl
@[simp] theorem State.descUid_onMem (f : Mem → Mem) (q' m' i' : Nat) :
    (s.onMem f).descUid q' m' i' = s.descUid q' m' i' := rfl
@[simp] theorem State.desc_onMem (f : Mem → Mem) (q' m' i' : Nat) :
    (s.onMem f).desc q' m' i' = s.desc q' m' i' := rfl

@[simp] theorem State.word_store (a : Nat) (bs : List Nat) (r' : Reg) (u' sel' : Nat) :
    (s.store a bs).word r' u' sel' = s.word r' u' sel' := rfl
@[simp] theorem State.fld_store (a : Nat) (bs : List Nat) (g : Fld) (u' sel' : Nat) :
    (s.store a bs).fld g u' sel' = s.fld g u' sel' := rfl
@[simp] theorem State.flag_store (a : Nat) (bs : List Nat) (g : Fld) (u' sel' : Nat) :
    (s.store a bs).flag g u' sel' = s.flag g u' sel' := rfl
@[simp] theorem State.tile_store (a : Nat) (bs : List Nat) (q' : Nat) :
    (s.store a bs).tile q' = s.tile q' := rfl
@[simp] theorem State.cluster_store (a : Nat) (bs : List Nat) (q' : Nat) :
    (s.store a bs).cluster q' = s.cluster q' := rfl
@[simp] theorem State.ring_store (a : Nat) (bs : List Nat) (q' m' : Nat) :
    (s.store a bs).ring q' m' = s.ring q' m' := rfl
@[simp] theorem State.evRing_store (a : Nat) (bs : List Nat) (q' : Nat) :
    (s.store a bs).evRing q' = s.evRing q' := rfl
@[simp] theorem State.queue_store (a : Nat) (bs : List Nat) (q' : Nat) :
    (s.store a bs).queue q' = s.queue q' := rfl
@[simp] theorem State.realm_store (a : Nat) (bs : List Nat) (q' : Nat) :
    (s.store a bs).realm q' = s.realm q' := rfl
@[simp] theorem State.job_store (a : Nat) (bs : List Nat) (q' : Nat) :
    (s.store a bs).job q' = s.job q' := rfl
@[simp] theorem State.sqcOf_store (a : Nat) (bs : List Nat) (r' : Reg) (u' : Nat) :
    (s.store a bs).sqcOf r' u' = s.sqcOf r' u' := rfl
@[simp] theorem State.descUid_store (a : Nat) (bs : List Nat) (q' m' i' : Nat) :
    (s.store a bs).descUid q' m' i' = s.descUid q' m' i' := rfl
@[simp] theorem State.desc_store (a : Nat) (bs : List Nat) (q' m' i' : Nat) :
    (s.store a bs).desc q' m' i' = s.desc q' m' i' := rfl

@[simp] theorem State.word_onKvm (f : Kvm → Kvm) (r' : Reg) (u' sel' : Nat) :
    (s.onKvm f).word r' u' sel' = s.word r' u' sel' := rfl
@[simp] theorem State.fld_onKvm (f : Kvm → Kvm) (g : Fld) (u' sel' : Nat) :
    (s.onKvm f).fld g u' sel' = s.fld g u' sel' := rfl
@[simp] theorem State.flag_onKvm (f : Kvm → Kvm) (g : Fld) (u' sel' : Nat) :
    (s.onKvm f).flag g u' sel' = s.flag g u' sel' := rfl
@[simp] theorem State.tile_onKvm (f : Kvm → Kvm) (q' : Nat) :
    (s.onKvm f).tile q' = s.tile q' := rfl
@[simp] theorem State.cluster_onKvm (f : Kvm → Kvm) (q' : Nat) :
    (s.onKvm f).cluster q' = s.cluster q' := rfl
@[simp] theorem State.ring_onKvm (f : Kvm → Kvm) (q' m' : Nat) :
    (s.onKvm f).ring q' m' = s.ring q' m' := rfl
@[simp] theorem State.evRing_onKvm (f : Kvm → Kvm) (q' : Nat) :
    (s.onKvm f).evRing q' = s.evRing q' := rfl
@[simp] theorem State.queue_onKvm (f : Kvm → Kvm) (q' : Nat) :
    (s.onKvm f).queue q' = s.queue q' := rfl
@[simp] theorem State.realm_onKvm (f : Kvm → Kvm) (q' : Nat) :
    (s.onKvm f).realm q' = s.realm q' := rfl
@[simp] theorem State.job_onKvm (f : Kvm → Kvm) (q' : Nat) :
    (s.onKvm f).job q' = s.job q' := rfl
@[simp] theorem State.sqcOf_onKvm (f : Kvm → Kvm) (r' : Reg) (u' : Nat) :
    (s.onKvm f).sqcOf r' u' = s.sqcOf r' u' := rfl
@[simp] theorem State.descUid_onKvm (f : Kvm → Kvm) (q' m' i' : Nat) :
    (s.onKvm f).descUid q' m' i' = s.descUid q' m' i' := rfl
@[simp] theorem State.desc_onKvm (f : Kvm → Kvm) (q' m' i' : Nat) :
    (s.onKvm f).desc q' m' i' = s.desc q' m' i' := rfl

@[simp] theorem State.word_onSrv (f : Srv → Srv) (r' : Reg) (u' sel' : Nat) :
    (s.onSrv f).word r' u' sel' = s.word r' u' sel' := rfl
@[simp] theorem State.fld_onSrv (f : Srv → Srv) (g : Fld) (u' sel' : Nat) :
    (s.onSrv f).fld g u' sel' = s.fld g u' sel' := rfl
@[simp] theorem State.flag_onSrv (f : Srv → Srv) (g : Fld) (u' sel' : Nat) :
    (s.onSrv f).flag g u' sel' = s.flag g u' sel' := rfl
@[simp] theorem State.tile_onSrv (f : Srv → Srv) (q' : Nat) :
    (s.onSrv f).tile q' = s.tile q' := rfl
@[simp] theorem State.cluster_onSrv (f : Srv → Srv) (q' : Nat) :
    (s.onSrv f).cluster q' = s.cluster q' := rfl
@[simp] theorem State.ring_onSrv (f : Srv → Srv) (q' m' : Nat) :
    (s.onSrv f).ring q' m' = s.ring q' m' := rfl
@[simp] theorem State.evRing_onSrv (f : Srv → Srv) (q' : Nat) :
    (s.onSrv f).evRing q' = s.evRing q' := rfl
@[simp] theorem State.queue_onSrv (f : Srv → Srv) (q' : Nat) :
    (s.onSrv f).queue q' = s.queue q' := rfl
@[simp] theorem State.realm_onSrv (f : Srv → Srv) (q' : Nat) :
    (s.onSrv f).realm q' = s.realm q' := rfl
@[simp] theorem State.job_onSrv (f : Srv → Srv) (q' : Nat) :
    (s.onSrv f).job q' = s.job q' := rfl
@[simp] theorem State.sqcOf_onSrv (f : Srv → Srv) (r' : Reg) (u' : Nat) :
    (s.onSrv f).sqcOf r' u' = s.sqcOf r' u' := rfl
@[simp] theorem State.descUid_onSrv (f : Srv → Srv) (q' m' i' : Nat) :
    (s.onSrv f).descUid q' m' i' = s.descUid q' m' i' := rfl
@[simp] theorem State.desc_onSrv (f : Srv → Srv) (q' m' i' : Nat) :
    (s.onSrv f).desc q' m' i' = s.desc q' m' i' := rfl

@[simp] theorem State.word_onLane (f : Lane → Lane) (r' : Reg) (u' sel' : Nat) :
    (s.onLane f).word r' u' sel' = s.word r' u' sel' := rfl
@[simp] theorem State.fld_onLane (f : Lane → Lane) (g : Fld) (u' sel' : Nat) :
    (s.onLane f).fld g u' sel' = s.fld g u' sel' := rfl
@[simp] theorem State.flag_onLane (f : Lane → Lane) (g : Fld) (u' sel' : Nat) :
    (s.onLane f).flag g u' sel' = s.flag g u' sel' := rfl
@[simp] theorem State.tile_onLane (f : Lane → Lane) (q' : Nat) :
    (s.onLane f).tile q' = s.tile q' := rfl
@[simp] theorem State.cluster_onLane (f : Lane → Lane) (q' : Nat) :
    (s.onLane f).cluster q' = s.cluster q' := rfl
@[simp] theorem State.ring_onLane (f : Lane → Lane) (q' m' : Nat) :
    (s.onLane f).ring q' m' = s.ring q' m' := rfl
@[simp] theorem State.evRing_onLane (f : Lane → Lane) (q' : Nat) :
    (s.onLane f).evRing q' = s.evRing q' := rfl
@[simp] theorem State.queue_onLane (f : Lane → Lane) (q' : Nat) :
    (s.onLane f).queue q' = s.queue q' := rfl
@[simp] theorem State.realm_onLane (f : Lane → Lane) (q' : Nat) :
    (s.onLane f).realm q' = s.realm q' := rfl
@[simp] theorem State.job_onLane (f : Lane → Lane) (q' : Nat) :
    (s.onLane f).job q' = s.job q' := rfl
@[simp] theorem State.sqcOf_onLane (f : Lane → Lane) (r' : Reg) (u' : Nat) :
    (s.onLane f).sqcOf r' u' = s.sqcOf r' u' := rfl
@[simp] theorem State.descUid_onLane (f : Lane → Lane) (q' m' i' : Nat) :
    (s.onLane f).descUid q' m' i' = s.descUid q' m' i' := rfl
@[simp] theorem State.desc_onLane (f : Lane → Lane) (q' m' i' : Nat) :
    (s.onLane f).desc q' m' i' = s.desc q' m' i' := rfl

@[simp] theorem State.word_onVid (f : Vid → Vid) (r' : Reg) (u' sel' : Nat) :
    (s.onVid f).word r' u' sel' = s.word r' u' sel' := rfl
@[simp] theorem State.fld_onVid (f : Vid → Vid) (g : Fld) (u' sel' : Nat) :
    (s.onVid f).fld g u' sel' = s.fld g u' sel' := rfl
@[simp] theorem State.flag_onVid (f : Vid → Vid) (g : Fld) (u' sel' : Nat) :
    (s.onVid f).flag g u' sel' = s.flag g u' sel' := rfl
@[simp] theorem State.tile_onVid (f : Vid → Vid) (q' : Nat) :
    (s.onVid f).tile q' = s.tile q' := rfl
@[simp] theorem State.cluster_onVid (f : Vid → Vid) (q' : Nat) :
    (s.onVid f).cluster q' = s.cluster q' := rfl
@[simp] theorem State.ring_onVid (f : Vid → Vid) (q' m' : Nat) :
    (s.onVid f).ring q' m' = s.ring q' m' := rfl
@[simp] theorem State.evRing_onVid (f : Vid → Vid) (q' : Nat) :
    (s.onVid f).evRing q' = s.evRing q' := rfl
@[simp] theorem State.queue_onVid (f : Vid → Vid) (q' : Nat) :
    (s.onVid f).queue q' = s.queue q' := rfl
@[simp] theorem State.realm_onVid (f : Vid → Vid) (q' : Nat) :
    (s.onVid f).realm q' = s.realm q' := rfl
@[simp] theorem State.job_onVid (f : Vid → Vid) (q' : Nat) :
    (s.onVid f).job q' = s.job q' := rfl
@[simp] theorem State.sqcOf_onVid (f : Vid → Vid) (r' : Reg) (u' : Nat) :
    (s.onVid f).sqcOf r' u' = s.sqcOf r' u' := rfl
@[simp] theorem State.descUid_onVid (f : Vid → Vid) (q' m' i' : Nat) :
    (s.onVid f).descUid q' m' i' = s.descUid q' m' i' := rfl
@[simp] theorem State.desc_onVid (f : Vid → Vid) (q' m' i' : Nat) :
    (s.onVid f).desc q' m' i' = s.desc q' m' i' := rfl

@[simp] theorem State.word_onBoot (f : Boot → Boot) (r' : Reg) (u' sel' : Nat) :
    (s.onBoot f).word r' u' sel' = s.word r' u' sel' := rfl
@[simp] theorem State.fld_onBoot (f : Boot → Boot) (g : Fld) (u' sel' : Nat) :
    (s.onBoot f).fld g u' sel' = s.fld g u' sel' := rfl
@[simp] theorem State.flag_onBoot (f : Boot → Boot) (g : Fld) (u' sel' : Nat) :
    (s.onBoot f).flag g u' sel' = s.flag g u' sel' := rfl
@[simp] theorem State.tile_onBoot (f : Boot → Boot) (q' : Nat) :
    (s.onBoot f).tile q' = s.tile q' := rfl
@[simp] theorem State.cluster_onBoot (f : Boot → Boot) (q' : Nat) :
    (s.onBoot f).cluster q' = s.cluster q' := rfl
@[simp] theorem State.ring_onBoot (f : Boot → Boot) (q' m' : Nat) :
    (s.onBoot f).ring q' m' = s.ring q' m' := rfl
@[simp] theorem State.evRing_onBoot (f : Boot → Boot) (q' : Nat) :
    (s.onBoot f).evRing q' = s.evRing q' := rfl
@[simp] theorem State.queue_onBoot (f : Boot → Boot) (q' : Nat) :
    (s.onBoot f).queue q' = s.queue q' := rfl
@[simp] theorem State.realm_onBoot (f : Boot → Boot) (q' : Nat) :
    (s.onBoot f).realm q' = s.realm q' := rfl
@[simp] theorem State.job_onBoot (f : Boot → Boot) (q' : Nat) :
    (s.onBoot f).job q' = s.job q' := rfl
@[simp] theorem State.sqcOf_onBoot (f : Boot → Boot) (r' : Reg) (u' : Nat) :
    (s.onBoot f).sqcOf r' u' = s.sqcOf r' u' := rfl
@[simp] theorem State.descUid_onBoot (f : Boot → Boot) (q' m' i' : Nat) :
    (s.onBoot f).descUid q' m' i' = s.descUid q' m' i' := rfl
@[simp] theorem State.desc_onBoot (f : Boot → Boot) (q' m' i' : Nat) :
    (s.onBoot f).desc q' m' i' = s.desc q' m' i' := rfl

@[simp] theorem State.word_onFlt (f : Flt → Flt) (r' : Reg) (u' sel' : Nat) :
    (s.onFlt f).word r' u' sel' = s.word r' u' sel' := rfl
@[simp] theorem State.fld_onFlt (f : Flt → Flt) (g : Fld) (u' sel' : Nat) :
    (s.onFlt f).fld g u' sel' = s.fld g u' sel' := rfl
@[simp] theorem State.flag_onFlt (f : Flt → Flt) (g : Fld) (u' sel' : Nat) :
    (s.onFlt f).flag g u' sel' = s.flag g u' sel' := rfl
@[simp] theorem State.tile_onFlt (f : Flt → Flt) (q' : Nat) :
    (s.onFlt f).tile q' = s.tile q' := rfl
@[simp] theorem State.cluster_onFlt (f : Flt → Flt) (q' : Nat) :
    (s.onFlt f).cluster q' = s.cluster q' := rfl
@[simp] theorem State.ring_onFlt (f : Flt → Flt) (q' m' : Nat) :
    (s.onFlt f).ring q' m' = s.ring q' m' := rfl
@[simp] theorem State.evRing_onFlt (f : Flt → Flt) (q' : Nat) :
    (s.onFlt f).evRing q' = s.evRing q' := rfl
@[simp] theorem State.queue_onFlt (f : Flt → Flt) (q' : Nat) :
    (s.onFlt f).queue q' = s.queue q' := rfl
@[simp] theorem State.realm_onFlt (f : Flt → Flt) (q' : Nat) :
    (s.onFlt f).realm q' = s.realm q' := rfl
@[simp] theorem State.job_onFlt (f : Flt → Flt) (q' : Nat) :
    (s.onFlt f).job q' = s.job q' := rfl
@[simp] theorem State.sqcOf_onFlt (f : Flt → Flt) (r' : Reg) (u' : Nat) :
    (s.onFlt f).sqcOf r' u' = s.sqcOf r' u' := rfl
@[simp] theorem State.descUid_onFlt (f : Flt → Flt) (q' m' i' : Nat) :
    (s.onFlt f).descUid q' m' i' = s.descUid q' m' i' := rfl
@[simp] theorem State.desc_onFlt (f : Flt → Flt) (q' m' i' : Nat) :
    (s.onFlt f).desc q' m' i' = s.desc q' m' i' := rfl

@[simp] theorem State.word_onDet (f : Det → Det) (r' : Reg) (u' sel' : Nat) :
    (s.onDet f).word r' u' sel' = s.word r' u' sel' := rfl
@[simp] theorem State.fld_onDet (f : Det → Det) (g : Fld) (u' sel' : Nat) :
    (s.onDet f).fld g u' sel' = s.fld g u' sel' := rfl
@[simp] theorem State.flag_onDet (f : Det → Det) (g : Fld) (u' sel' : Nat) :
    (s.onDet f).flag g u' sel' = s.flag g u' sel' := rfl
@[simp] theorem State.tile_onDet (f : Det → Det) (q' : Nat) :
    (s.onDet f).tile q' = s.tile q' := rfl
@[simp] theorem State.cluster_onDet (f : Det → Det) (q' : Nat) :
    (s.onDet f).cluster q' = s.cluster q' := rfl
@[simp] theorem State.ring_onDet (f : Det → Det) (q' m' : Nat) :
    (s.onDet f).ring q' m' = s.ring q' m' := rfl
@[simp] theorem State.evRing_onDet (f : Det → Det) (q' : Nat) :
    (s.onDet f).evRing q' = s.evRing q' := rfl
@[simp] theorem State.queue_onDet (f : Det → Det) (q' : Nat) :
    (s.onDet f).queue q' = s.queue q' := rfl
@[simp] theorem State.realm_onDet (f : Det → Det) (q' : Nat) :
    (s.onDet f).realm q' = s.realm q' := rfl
@[simp] theorem State.job_onDet (f : Det → Det) (q' : Nat) :
    (s.onDet f).job q' = s.job q' := rfl
@[simp] theorem State.sqcOf_onDet (f : Det → Det) (r' : Reg) (u' : Nat) :
    (s.onDet f).sqcOf r' u' = s.sqcOf r' u' := rfl
@[simp] theorem State.descUid_onDet (f : Det → Det) (q' m' i' : Nat) :
    (s.onDet f).descUid q' m' i' = s.descUid q' m' i' := rfl
@[simp] theorem State.desc_onDet (f : Det → Det) (q' m' i' : Nat) :
    (s.onDet f).desc q' m' i' = s.desc q' m' i' := rfl

@[simp] theorem State.word_onClk (f : Clk → Clk) (r' : Reg) (u' sel' : Nat) :
    (s.onClk f).word r' u' sel' = s.word r' u' sel' := rfl
@[simp] theorem State.fld_onClk (f : Clk → Clk) (g : Fld) (u' sel' : Nat) :
    (s.onClk f).fld g u' sel' = s.fld g u' sel' := rfl
@[simp] theorem State.flag_onClk (f : Clk → Clk) (g : Fld) (u' sel' : Nat) :
    (s.onClk f).flag g u' sel' = s.flag g u' sel' := rfl
@[simp] theorem State.tile_onClk (f : Clk → Clk) (q' : Nat) :
    (s.onClk f).tile q' = s.tile q' := rfl
@[simp] theorem State.cluster_onClk (f : Clk → Clk) (q' : Nat) :
    (s.onClk f).cluster q' = s.cluster q' := rfl
@[simp] theorem State.ring_onClk (f : Clk → Clk) (q' m' : Nat) :
    (s.onClk f).ring q' m' = s.ring q' m' := rfl
@[simp] theorem State.evRing_onClk (f : Clk → Clk) (q' : Nat) :
    (s.onClk f).evRing q' = s.evRing q' := rfl
@[simp] theorem State.queue_onClk (f : Clk → Clk) (q' : Nat) :
    (s.onClk f).queue q' = s.queue q' := rfl
@[simp] theorem State.realm_onClk (f : Clk → Clk) (q' : Nat) :
    (s.onClk f).realm q' = s.realm q' := rfl
@[simp] theorem State.job_onClk (f : Clk → Clk) (q' : Nat) :
    (s.onClk f).job q' = s.job q' := rfl
@[simp] theorem State.sqcOf_onClk (f : Clk → Clk) (r' : Reg) (u' : Nat) :
    (s.onClk f).sqcOf r' u' = s.sqcOf r' u' := rfl
@[simp] theorem State.descUid_onClk (f : Clk → Clk) (q' m' i' : Nat) :
    (s.onClk f).descUid q' m' i' = s.descUid q' m' i' := rfl
@[simp] theorem State.desc_onClk (f : Clk → Clk) (q' m' i' : Nat) :
    (s.onClk f).desc q' m' i' = s.desc q' m' i' := rfl

@[simp] theorem State.word_onStave (f : Stave → Stave) (r' : Reg) (u' sel' : Nat) :
    (s.onStave f).word r' u' sel' = s.word r' u' sel' := rfl
@[simp] theorem State.fld_onStave (f : Stave → Stave) (g : Fld) (u' sel' : Nat) :
    (s.onStave f).fld g u' sel' = s.fld g u' sel' := rfl
@[simp] theorem State.flag_onStave (f : Stave → Stave) (g : Fld) (u' sel' : Nat) :
    (s.onStave f).flag g u' sel' = s.flag g u' sel' := rfl
@[simp] theorem State.tile_onStave (f : Stave → Stave) (q' : Nat) :
    (s.onStave f).tile q' = s.tile q' := rfl
@[simp] theorem State.cluster_onStave (f : Stave → Stave) (q' : Nat) :
    (s.onStave f).cluster q' = s.cluster q' := rfl
@[simp] theorem State.ring_onStave (f : Stave → Stave) (q' m' : Nat) :
    (s.onStave f).ring q' m' = s.ring q' m' := rfl
@[simp] theorem State.evRing_onStave (f : Stave → Stave) (q' : Nat) :
    (s.onStave f).evRing q' = s.evRing q' := rfl
@[simp] theorem State.queue_onStave (f : Stave → Stave) (q' : Nat) :
    (s.onStave f).queue q' = s.queue q' := rfl
@[simp] theorem State.realm_onStave (f : Stave → Stave) (q' : Nat) :
    (s.onStave f).realm q' = s.realm q' := rfl
@[simp] theorem State.job_onStave (f : Stave → Stave) (q' : Nat) :
    (s.onStave f).job q' = s.job q' := rfl
@[simp] theorem State.sqcOf_onStave (f : Stave → Stave) (r' : Reg) (u' : Nat) :
    (s.onStave f).sqcOf r' u' = s.sqcOf r' u' := rfl
@[simp] theorem State.descUid_onStave (f : Stave → Stave) (q' m' i' : Nat) :
    (s.onStave f).descUid q' m' i' = s.descUid q' m' i' := rfl
@[simp] theorem State.desc_onStave (f : Stave → Stave) (q' m' i' : Nat) :
    (s.onStave f).desc q' m' i' = s.desc q' m' i' := rfl

@[simp] theorem State.word_onSec (f : Sec → Sec) (r' : Reg) (u' sel' : Nat) :
    (s.onSec f).word r' u' sel' = s.word r' u' sel' := rfl
@[simp] theorem State.fld_onSec (f : Sec → Sec) (g : Fld) (u' sel' : Nat) :
    (s.onSec f).fld g u' sel' = s.fld g u' sel' := rfl
@[simp] theorem State.flag_onSec (f : Sec → Sec) (g : Fld) (u' sel' : Nat) :
    (s.onSec f).flag g u' sel' = s.flag g u' sel' := rfl
@[simp] theorem State.tile_onSec (f : Sec → Sec) (q' : Nat) :
    (s.onSec f).tile q' = s.tile q' := rfl
@[simp] theorem State.cluster_onSec (f : Sec → Sec) (q' : Nat) :
    (s.onSec f).cluster q' = s.cluster q' := rfl
@[simp] theorem State.ring_onSec (f : Sec → Sec) (q' m' : Nat) :
    (s.onSec f).ring q' m' = s.ring q' m' := rfl
@[simp] theorem State.evRing_onSec (f : Sec → Sec) (q' : Nat) :
    (s.onSec f).evRing q' = s.evRing q' := rfl
@[simp] theorem State.queue_onSec (f : Sec → Sec) (q' : Nat) :
    (s.onSec f).queue q' = s.queue q' := rfl
@[simp] theorem State.realm_onSec (f : Sec → Sec) (q' : Nat) :
    (s.onSec f).realm q' = s.realm q' := rfl
@[simp] theorem State.job_onSec (f : Sec → Sec) (q' : Nat) :
    (s.onSec f).job q' = s.job q' := rfl
@[simp] theorem State.sqcOf_onSec (f : Sec → Sec) (r' : Reg) (u' : Nat) :
    (s.onSec f).sqcOf r' u' = s.sqcOf r' u' := rfl
@[simp] theorem State.descUid_onSec (f : Sec → Sec) (q' m' i' : Nat) :
    (s.onSec f).descUid q' m' i' = s.descUid q' m' i' := rfl
@[simp] theorem State.desc_onSec (f : Sec → Sec) (q' m' i' : Nat) :
    (s.onSec f).desc q' m' i' = s.desc q' m' i' := rfl

@[simp] theorem State.word_onPwr (f : Pwr → Pwr) (r' : Reg) (u' sel' : Nat) :
    (s.onPwr f).word r' u' sel' = s.word r' u' sel' := rfl
@[simp] theorem State.fld_onPwr (f : Pwr → Pwr) (g : Fld) (u' sel' : Nat) :
    (s.onPwr f).fld g u' sel' = s.fld g u' sel' := rfl
@[simp] theorem State.flag_onPwr (f : Pwr → Pwr) (g : Fld) (u' sel' : Nat) :
    (s.onPwr f).flag g u' sel' = s.flag g u' sel' := rfl
@[simp] theorem State.tile_onPwr (f : Pwr → Pwr) (q' : Nat) :
    (s.onPwr f).tile q' = s.tile q' := rfl
@[simp] theorem State.cluster_onPwr (f : Pwr → Pwr) (q' : Nat) :
    (s.onPwr f).cluster q' = s.cluster q' := rfl
@[simp] theorem State.ring_onPwr (f : Pwr → Pwr) (q' m' : Nat) :
    (s.onPwr f).ring q' m' = s.ring q' m' := rfl
@[simp] theorem State.evRing_onPwr (f : Pwr → Pwr) (q' : Nat) :
    (s.onPwr f).evRing q' = s.evRing q' := rfl
@[simp] theorem State.queue_onPwr (f : Pwr → Pwr) (q' : Nat) :
    (s.onPwr f).queue q' = s.queue q' := rfl
@[simp] theorem State.realm_onPwr (f : Pwr → Pwr) (q' : Nat) :
    (s.onPwr f).realm q' = s.realm q' := rfl
@[simp] theorem State.job_onPwr (f : Pwr → Pwr) (q' : Nat) :
    (s.onPwr f).job q' = s.job q' := rfl
@[simp] theorem State.sqcOf_onPwr (f : Pwr → Pwr) (r' : Reg) (u' : Nat) :
    (s.onPwr f).sqcOf r' u' = s.sqcOf r' u' := rfl
@[simp] theorem State.descUid_onPwr (f : Pwr → Pwr) (q' m' i' : Nat) :
    (s.onPwr f).descUid q' m' i' = s.descUid q' m' i' := rfl
@[simp] theorem State.desc_onPwr (f : Pwr → Pwr) (q' m' i' : Nat) :
    (s.onPwr f).desc q' m' i' = s.desc q' m' i' := rfl

@[simp] theorem State.word_send (m : OutMsg) (r' : Reg) (u' sel' : Nat) :
    (s.send m).word r' u' sel' = s.word r' u' sel' := rfl
@[simp] theorem State.fld_send (m : OutMsg) (g : Fld) (u' sel' : Nat) :
    (s.send m).fld g u' sel' = s.fld g u' sel' := rfl
@[simp] theorem State.flag_send (m : OutMsg) (g : Fld) (u' sel' : Nat) :
    (s.send m).flag g u' sel' = s.flag g u' sel' := rfl
@[simp] theorem State.tile_send (m : OutMsg) (q' : Nat) :
    (s.send m).tile q' = s.tile q' := rfl
@[simp] theorem State.cluster_send (m : OutMsg) (q' : Nat) :
    (s.send m).cluster q' = s.cluster q' := rfl
@[simp] theorem State.ring_send (m : OutMsg) (q' m' : Nat) :
    (s.send m).ring q' m' = s.ring q' m' := rfl
@[simp] theorem State.evRing_send (m : OutMsg) (q' : Nat) :
    (s.send m).evRing q' = s.evRing q' := rfl
@[simp] theorem State.queue_send (m : OutMsg) (q' : Nat) :
    (s.send m).queue q' = s.queue q' := rfl
@[simp] theorem State.realm_send (m : OutMsg) (q' : Nat) :
    (s.send m).realm q' = s.realm q' := rfl
@[simp] theorem State.job_send (m : OutMsg) (q' : Nat) :
    (s.send m).job q' = s.job q' := rfl
@[simp] theorem State.sqcOf_send (m : OutMsg) (r' : Reg) (u' : Nat) :
    (s.send m).sqcOf r' u' = s.sqcOf r' u' := rfl
@[simp] theorem State.descUid_send (m : OutMsg) (q' m' i' : Nat) :
    (s.send m).descUid q' m' i' = s.descUid q' m' i' := rfl
@[simp] theorem State.desc_send (m : OutMsg) (q' m' i' : Nat) :
    (s.send m).desc q' m' i' = s.desc q' m' i' := rfl

end Sys2Proof.Machine
end

