-- ==== Sys2Proof/Laws/Tab.lean ====
section
/-! SUPPORT. Laws of the sparse tables and of the byte memory: read after write, and the canonical form that every operation keeps. -/

namespace Sys2Proof.Machine

/-! ### Reading a table after a change -/

theorem Tab.get_put_self {α : Type} (d : Nat → α) (k : Nat) (v : α) (t : Tab α) : Tab.get d (Tab.put k v t) k = v := by
  induction t with
  | nil => simp [Tab.put, Tab.get]
  | cons e t ih =>
    obtain ⟨k', v'⟩ := e
    simp only [Tab.put]
    split
    · simp [Tab.get]
    · split
      · simp [Tab.get]
      · simp [Tab.get, *]

theorem Tab.get_put_of_ne {α : Type} (d : Nat → α) {k k' : Nat} (v : α) (t : Tab α) (h : k' ≠ k) :
    Tab.get d (Tab.put k v t) k' = Tab.get d t k' := by
  induction t with
  | nil => simp [Tab.put, Tab.get, Ne.symm h]
  | cons e t ih =>
    obtain ⟨q, w⟩ := e
    simp only [Tab.put]
    split
    · simp [Tab.get, Ne.symm h]
    · split
      · subst_vars; simp [Tab.get, Ne.symm h]
      · simp [Tab.get, ih]

theorem Tab.get_del_self {α : Type} (d : Nat → α) (k : Nat) (t : Tab α) : Tab.get d (Tab.del k t) k = d k := by
  induction t with
  | nil => rfl
  | cons e t ih =>
    obtain ⟨q, w⟩ := e
    simp only [Tab.del]
    split
    · exact ih
    · simp [Tab.get, *]

theorem Tab.get_del_of_ne {α : Type} (d : Nat → α) {k k' : Nat} (t : Tab α) (h : k' ≠ k) :
    Tab.get d (Tab.del k t) k' = Tab.get d t k' := by
  induction t with
  | nil => rfl
  | cons e t ih =>
    obtain ⟨q, w⟩ := e
    simp only [Tab.del]
    split
    · subst_vars; simp [Tab.get, Ne.symm h, ih]
    · simp [Tab.get, ih]

/-- A table reads back what was written. -/
@[simp] theorem Tab.get_set_self {α : Type} [DecidableEq α] (d : Nat → α) (k : Nat) (v : α) (t : Tab α) :
    Tab.get d (Tab.set d k v t) k = v := by
  unfold Tab.set
  split
  · rw [Tab.get_del_self]; exact (‹v = d k›).symm
  · exact Tab.get_put_self d k v t

/-- A write leaves every other key as it was. -/
theorem Tab.get_set_of_ne {α : Type} [DecidableEq α] (d : Nat → α) {k k' : Nat} (v : α) (t : Tab α) (h : k' ≠ k) :
    Tab.get d (Tab.set d k v t) k' = Tab.get d t k' := by
  unfold Tab.set
  split
  · exact Tab.get_del_of_ne d t h
  · exact Tab.get_put_of_ne d v t h

@[simp] theorem Tab.find_put_self {α : Type} (k : Nat) (v : α) (t : Tab α) : Tab.find k (Tab.put k v t) = some v := by
  induction t with
  | nil => simp [Tab.put, Tab.find]
  | cons e t ih =>
    obtain ⟨q, w⟩ := e
    simp only [Tab.put]
    split
    · simp [Tab.find]
    · split
      · simp [Tab.find]
      · simp [Tab.find, *]

theorem Tab.find_put_of_ne {α : Type} {k k' : Nat} (v : α) (t : Tab α) (h : k' ≠ k) : Tab.find k' (Tab.put k v t) = Tab.find k' t := by
  induction t with
  | nil => simp [Tab.put, Tab.find, Ne.symm h]
  | cons e t ih =>
    obtain ⟨q, w⟩ := e
    simp only [Tab.put]
    split
    · simp [Tab.find, Ne.symm h]
    · split
      · subst_vars; simp [Tab.find, Ne.symm h]
      · simp [Tab.find, ih]

@[simp] theorem Tab.find_del_self {α : Type} (k : Nat) (t : Tab α) : Tab.find k (Tab.del k t) = none := by
  induction t with
  | nil => rfl
  | cons e t ih =>
    obtain ⟨q, w⟩ := e
    simp only [Tab.del]
    split
    · exact ih
    · simp [Tab.find, *]

theorem Tab.find_del_of_ne {α : Type} {k k' : Nat} (t : Tab α) (h : k' ≠ k) : Tab.find k' (Tab.del k t) = Tab.find k' t := by
  induction t with
  | nil => rfl
  | cons e t ih =>
    obtain ⟨q, w⟩ := e
    simp only [Tab.del]
    split
    · subst_vars; simp [Tab.find, Ne.symm h, ih]
    · simp [Tab.find, ih]

@[simp] theorem Tab.find_upd_self {α : Type} (k : Nat) (f : α → α) (t : Tab α) : Tab.find k (Tab.upd k f t) = (Tab.find k t).map f := by
  induction t with
  | nil => rfl
  | cons e t ih =>
    obtain ⟨q, w⟩ := e
    by_cases h : q = k <;> simp [Tab.upd, Tab.find, h, ih]

theorem Tab.find_upd_of_ne {α : Type} {k k' : Nat} (f : α → α) (t : Tab α) (h : k' ≠ k) : Tab.find k' (Tab.upd k f t) = Tab.find k' t := by
  induction t with
  | nil => rfl
  | cons e t ih =>
    obtain ⟨q, w⟩ := e
    by_cases hq : q = k
    · subst hq; simp [Tab.upd, Tab.find, Ne.symm h]
    · simp [Tab.upd, Tab.find, hq, ih]

/-! ### The canonical form -/

theorem Tab.sortedFrom_mono {α : Type} {a b : Nat} {t : Tab α} (h : a ≤ b) (w : Tab.sortedFrom b t = true) : Tab.sortedFrom a t = true := by
  cases t with
  | nil => rfl
  | cons e t =>
    obtain ⟨k, v⟩ := e
    simp only [Tab.sortedFrom, Bool.and_eq_true, decide_eq_true_eq] at w ⊢
    exact ⟨h.trans w.1, w.2⟩

theorem Tab.sortedFrom_put {α : Type} {b k : Nat} (v : α) {t : Tab α} (h : b ≤ k) (w : Tab.sortedFrom b t = true) :
    Tab.sortedFrom b (Tab.put k v t) = true := by
  induction t generalizing b with
  | nil => simp [Tab.put, Tab.sortedFrom, h]
  | cons e t ih =>
    obtain ⟨q, x⟩ := e
    simp only [Tab.sortedFrom, Bool.and_eq_true, decide_eq_true_eq] at w
    simp only [Tab.put]
    split
    · simp only [Tab.sortedFrom, Bool.and_eq_true, decide_eq_true_eq]
      exact ⟨h, by omega, w.2⟩
    · split
      · subst_vars; simp only [Tab.sortedFrom, Bool.and_eq_true, decide_eq_true_eq]; exact ⟨h, w.2⟩
      · simp only [Tab.sortedFrom, Bool.and_eq_true, decide_eq_true_eq]
        exact ⟨w.1, ih (by omega) w.2⟩

theorem Tab.sortedFrom_filter {α : Type} {b : Nat} (p : Nat × α → Bool) {t : Tab α} (w : Tab.sortedFrom b t = true) :
    Tab.sortedFrom b (t.filter p) = true := by
  induction t generalizing b with
  | nil => rfl
  | cons e t ih =>
    obtain ⟨q, x⟩ := e
    simp only [Tab.sortedFrom, Bool.and_eq_true, decide_eq_true_eq] at w
    simp only [List.filter_cons]
    split
    · simp only [Tab.sortedFrom, Bool.and_eq_true, decide_eq_true_eq]
      exact ⟨w.1, ih w.2⟩
    · exact Tab.sortedFrom_mono (by omega) (ih w.2)

theorem Tab.del_eq_filter {α : Type} (k : Nat) (t : Tab α) : Tab.del k t = t.filter (fun e => decide (e.1 ≠ k)) := by
  induction t with
  | nil => rfl
  | cons e t ih =>
    obtain ⟨q, x⟩ := e
    by_cases h : q = k <;> simp [Tab.del, h, ih]

theorem Tab.mem_put {α : Type} {k : Nat} {v : α} {t : Tab α} {e : Nat × α} (h : e ∈ Tab.put k v t) : e = (k, v) ∨ e ∈ t := by
  induction t with
  | nil => left; simpa [Tab.put] using h
  | cons x t ih =>
    obtain ⟨q, w⟩ := x
    simp only [Tab.put] at h
    split at h
    · rcases List.mem_cons.1 h with h | h
      · exact .inl h
      · exact .inr h
    · split at h
      · rcases List.mem_cons.1 h with h | h
        · exact .inl h
        · exact .inr (List.mem_cons_of_mem _ h)
      · rcases List.mem_cons.1 h with h | h
        · exact .inr (h ▸ List.mem_cons_self ..)
        · exact (ih h).imp id (List.mem_cons_of_mem _)

/-- Every write keeps a table canonical. -/
theorem Tab.wf_set {α : Type} [DecidableEq α] {d : Nat → α} {t : Tab α} (k : Nat) (v : α) (w : Tab.wf d t = true) :
    Tab.wf d (Tab.set d k v t) = true := by
  simp only [Tab.wf, Bool.and_eq_true, List.all_eq_true, decide_eq_true_eq] at w ⊢
  unfold Tab.set
  split
  · rw [Tab.del_eq_filter]
    exact ⟨Tab.sortedFrom_filter _ w.1, fun e h => w.2 e (List.mem_of_mem_filter h)⟩
  · refine ⟨Tab.sortedFrom_put v (Nat.zero_le _) w.1, fun e h => ?_⟩
    rcases Tab.mem_put h with h | h
    · subst h; assumption
    · exact w.2 e h

theorem Tab.wf_filter {α : Type} [DecidableEq α] {d : Nat → α} {t : Tab α} (p : Nat × α → Bool) (w : Tab.wf d t = true) :
    Tab.wf d (t.filter p) = true := by
  simp only [Tab.wf, Bool.and_eq_true, List.all_eq_true, decide_eq_true_eq] at w ⊢
  exact ⟨Tab.sortedFrom_filter _ w.1, fun e h => w.2 e (List.mem_of_mem_filter h)⟩

/-! ### Memory -/

@[simp] theorem Memory.read_write_self (m : Memory) (a : Nat) (v : Byte) : (m.write a v).read a = v := Tab.get_set_self _ _ _ _

theorem Memory.read_write_of_ne (m : Memory) {a b : Nat} (v : Byte) (h : b ≠ a) : (m.write a v).read b = m.read b :=
  Tab.get_set_of_ne _ _ _ h

/-- A store leaves every byte outside its range as it was. -/
theorem Memory.read_store_outside (m : Memory) (a : Nat) (bs : List Nat) (b : Nat) (h : b < a ∨ a + bs.length ≤ b) :
    (m.store a bs).read b = m.read b := by
  induction bs generalizing m a with
  | nil => rfl
  | cons x t ih =>
    simp only [List.length_cons] at h
    rw [Memory.store, ih _ _ (by omega), Memory.read_write_of_ne _ _ (by omega)]

/-- A byte of a stored range reads back. -/
theorem Memory.read_store_inside (m : Memory) (a : Nat) (bs : List Nat) (i : Nat) (h : i < bs.length) :
    (m.store a bs).read (a + i) = BitVec.ofNat 8 (bs[i]) := by
  induction bs generalizing m a i with
  | nil => exact absurd h (Nat.not_lt_zero _)
  | cons x t ih =>
    cases i with
    | zero =>
      rw [Memory.store, Memory.read_store_outside _ _ _ _ (by omega)]
      simp
    | succ i =>
      have := ih (m.write a (BitVec.ofNat 8 x)) (a + 1) i (by simpa using h)
      rw [Memory.store, show a + (i + 1) = a + 1 + i by omega, this]
      simp

/-- Every store keeps memory canonical. -/
theorem Memory.wf_store {m : Memory} (a : Nat) (bs : List Nat) (w : m.wf) : (m.store a bs).wf := by
  induction bs generalizing m a with
  | nil => exact w
  | cons x t ih => exact ih _ (Tab.wf_set a _ w)

theorem Mem.wf_store {m : Mem} (a : Nat) (bs : List Nat) (w : m.cells.wf) : (m.store a bs).cells.wf := Memory.wf_store a bs w
theorem Mem.wf_spoil {m : Mem} (k : Nat) (w : m.cells.wf) : (m.spoil k).cells.wf := w
theorem Mem.wf_clear {m : Mem} (a n : Nat) (w : m.cells.wf) : (m.clear a n).cells.wf := Tab.wf_filter _ w

/-- A cleared range reads zero. -/
theorem Memory.read_clear_inside (m : Mem) (a n b : Nat) (h : a ≤ b) (h' : b < a + n) : (m.clear a n).cells.read b = 0 := by
  have key : ∀ t : Memory, Tab.get memDefault (t.filter (fun e => decide (e.1 < a) || decide (a + n ≤ e.1))) b = 0 := by
    intro t
    induction t with
    | nil => rfl
    | cons e t ih =>
      obtain ⟨q, v⟩ := e
      simp only [List.filter_cons]
      split
      · rename_i hq
        simp only [Bool.or_eq_true, decide_eq_true_eq] at hq
        simp only [Tab.get]
        rw [if_neg (by omega)]
        exact ih
      · exact ih
  exact key _

/-- Clearing leaves every byte outside its range as it was. -/
theorem Memory.read_clear_outside (m : Mem) (a n b : Nat) (h : b < a ∨ a + n ≤ b) : (m.clear a n).cells.read b = m.cells.read b := by
  have key : ∀ t : Memory, Tab.get memDefault (t.filter (fun e => decide (e.1 < a) || decide (a + n ≤ e.1))) b = Tab.get memDefault t b := by
    intro t
    induction t with
    | nil => rfl
    | cons e t ih =>
      obtain ⟨q, v⟩ := e
      simp only [List.filter_cons]
      split
      · simp only [Tab.get, ih]
      · rename_i hq
        simp only [Bool.or_eq_true, decide_eq_true_eq, not_or, not_lt, not_le] at hq
        simp only [Tab.get]
        rw [if_neg (by omega)]
        exact ih
  exact key _

end Sys2Proof.Machine
end

