-- ==== Sys2Proof/Laws/Regs.lean ====
section
/-! SUPPORT. Laws of the registers: a word or a field reads back what was written, and every other one is as it was. -/

namespace Sys2Proof.Machine

variable (s : State)

@[simp] theorem State.word_setWord_self (r : Reg) (u sel : Nat) (w : Word) : (s.setWord r u sel w).word r u sel = w :=
  Tab.get_set_self _ _ _ _

theorem State.word_setWord_of_ne {r r' : Reg} {u u' sel sel' : Nat} (w : Word) (h : r'.key u' sel' ≠ r.key u sel) :
    (s.setWord r u sel w).word r' u' sel' = s.word r' u' sel' := Tab.get_set_of_ne _ _ _ h

theorem Fld.testBit_of (f : Fld) (w : Word) (i : Nat) : (f.of w).testBit i = (decide (i < f.width) && w.getLsbD (f.lo + i)) := by
  simp [Fld.of, Nat.testBit_mod_two_pow, ← Nat.shiftRight_eq_div_pow, Nat.testBit_shiftRight, BitVec.getLsbD]

theorem Fld.getLsbD_mask (f : Fld) (i : Nat) : f.mask.getLsbD i = (decide (i < 32) && decide (f.lo ≤ i) && decide (i < f.lo + f.width)) := by
  simp only [Fld.mask, BitVec.getLsbD_ofNat, ← Nat.shiftLeft_eq, Nat.testBit_shiftLeft, Nat.testBit_two_pow_sub_one]
  by_cases h1 : i < 32 <;> by_cases h2 : f.lo ≤ i <;> simp [h1, h2]
  omega

theorem Fld.getLsbD_into (f : Fld) (v : Nat) (w : Word) (i : Nat) (hi : i < 32) :
    (f.into v w).getLsbD i = if f.lo ≤ i ∧ i < f.lo + f.width then v.testBit (i - f.lo) else w.getLsbD i := by
  simp only [Fld.into, BitVec.getLsbD_or, BitVec.getLsbD_and, BitVec.getLsbD_not, Fld.getLsbD_mask, BitVec.getLsbD_ofNat,
    ← Nat.shiftLeft_eq, Nat.testBit_shiftLeft, Nat.testBit_mod_two_pow, hi, decide_true, Bool.true_and]
  by_cases h1 : f.lo ≤ i <;> by_cases h2 : i < f.lo + f.width <;> simp [h1, h2] <;> omega

/-- A field reads back the low bits of what was written. -/
theorem Fld.of_into (f : Fld) (v : Nat) (w : Word) (h : f.fits) : f.of (f.into v w) = v % 2 ^ f.width := by
  apply Nat.eq_of_testBit_eq
  intro i
  unfold Fld.fits at h
  rw [Fld.testBit_of, Nat.testBit_mod_two_pow]
  by_cases hi : i < f.width
  · rw [Fld.getLsbD_into _ _ _ _ (by omega)]
    simp [hi]
  · simp [hi]

/-- A field that shares no bit with the one written reads as before. -/
theorem Fld.of_into_of_disjoint (f g : Fld) (v : Nat) (w : Word) (hg : g.fits) (h : g.lo + g.width ≤ f.lo ∨ f.lo + f.width ≤ g.lo) :
    g.of (f.into v w) = g.of w := by
  apply Nat.eq_of_testBit_eq
  intro i
  unfold Fld.fits at hg
  rw [Fld.testBit_of, Fld.testBit_of]
  by_cases hi : i < g.width
  · rw [Fld.getLsbD_into _ _ _ _ (by omega), if_neg (by omega)]
  · simp [hi]

theorem State.fld_setFld_self (f : Fld) (v u sel : Nat) (h : f.fits) : (s.setFld f v u sel).fld f u sel = v % 2 ^ f.width := by
  simp [State.fld, State.setFld, Fld.of_into _ _ _ h]

theorem State.fld_setFld_of_ne {f g : Fld} (v u sel : Nat) {u' sel' : Nat} (h : g.reg.key u' sel' ≠ f.reg.key u sel) :
    (s.setFld f v u sel).fld g u' sel' = s.fld g u' sel' := by
  simp only [State.fld, State.setFld]
  rw [State.word_setWord_of_ne _ _ h]

theorem State.fld_setWord_of_ne {r : Reg} {g : Fld} (w : Word) {u sel u' sel' : Nat} (h : g.reg.key u' sel' ≠ r.key u sel) :
    (s.setWord r u sel w).fld g u' sel' = s.fld g u' sel' := by
  simp only [State.fld]
  rw [State.word_setWord_of_ne _ _ h]

@[simp] theorem State.fld_setWord_self (g : Fld) (w : Word) (u sel : Nat) : (s.setWord g.reg u sel w).fld g u sel = g.of w := by
  simp [State.fld]

theorem State.fld_setFld_of_disjoint {f g : Fld} (v u sel : Nat) (hr : g.reg = f.reg) (hg : g.fits)
    (h : g.lo + g.width ≤ f.lo ∨ f.lo + f.width ≤ g.lo) : (s.setFld f v u sel).fld g u sel = s.fld g u sel := by
  simp only [State.fld, State.setFld, hr, State.word_setWord_self]
  exact Fld.of_into_of_disjoint f g v _ hg h

/-- Different registers have different keys, whatever their units and selectors are. -/
theorem Reg.key_ne {r r' : Reg} {u u' sel sel' : Nat} (hu : u < 1024) (hu' : u' < 1024) (hs : sel < 1024) (hs' : sel' < 1024)
    (h : r'.block * 64 + r'.off / 4 ≠ r.block * 64 + r.off / 4 ∨ u' ≠ u ∨ sel' ≠ sel) : r'.key u' sel' ≠ r.key u sel := by
  unfold Reg.key
  omega

end Sys2Proof.Machine
end

