-- ==== Sys2Proof/Laws/Events.lean ====
section
/-! SUPPORT. What an event record and a status event can do (R204-R207, R459): which parts of the state they touch, and that they touch no
store of the module and no register but RING_EQ_DROP. -/

namespace Sys2Proof.Machine

/-- Two states differ at most in what event records touch; no byte outside host memory differs, no register but RING_EQ_DROP of a realm, no
status register but RING_STS of a realm, and no internal queue but firmware's. -/
structure EventStep (s t : State) : Prop where
  parts : t = { s with mem := t.mem, regs := t.regs, sqc := t.sqc, evSeq := t.evSeq, queues := t.queues, evRings := t.evRings }
  stores : s.storesKept t
  regs : ∀ k, (∀ r < 4, k ≠ Reg.RING_EQ_DROP.key r 0) → Tab.get regDefault t.regs k = Tab.get regDefault s.regs k
  sqc : ∀ r u, (∀ q < 4, sqcKey r u ≠ sqcKey .RING_STS q) → t.sqcOf r u = s.sqcOf r u
  bad : ∀ k, lpddrBase ≤ 8 * k → (k ∈ t.mem.bad ↔ k ∈ s.mem.bad)
  sts : ∀ r u b, s.stsBit r b u = true → t.stsBit r b u = true
  fw : ∀ q, q ≠ fwQueue → t.queue q = s.queue q

theorem EventStep.refl (s : State) : EventStep s s := ⟨rfl, fun _ _ => rfl, fun _ _ => rfl, fun _ _ _ => rfl, fun _ _ => Iff.rfl, fun _ _ _ h => h, fun _ _ => rfl⟩

theorem EventStep.trans {s t u : State} (h : EventStep s t) (g : EventStep t u) : EventStep s u where
  parts := by rw [g.parts, h.parts]
  stores := fun a ha => (g.stores a ha).trans (h.stores a ha)
  regs := fun k hk => (g.regs k hk).trans (h.regs k hk)
  sqc := fun r u hr => (g.sqc r u hr).trans (h.sqc r u hr)
  bad := fun k hk => (g.bad k hk).trans (h.bad k hk)
  sts := fun r u b hb => g.sts r u b (h.sts r u b hb)
  fw := fun q hq => (g.fw q hq).trans (h.fw q hq)

variable (s : State)

theorem eventStep_setEvRing (r : Nat) (x : EvRing) : EventStep s (s.setEvRing r x) := ⟨rfl, fun _ _ => rfl, fun _ _ => rfl, fun _ _ _ => rfl, fun _ _ => Iff.rfl, fun _ _ _ h => h, fun _ _ => rfl⟩
theorem eventStep_setQueue (x : IQueue) : EventStep s (s.setQueue fwQueue x) :=
  ⟨rfl, fun _ _ => rfl, fun _ _ => rfl, fun _ _ _ => rfl, fun _ _ => Iff.rfl, fun _ _ _ h => h, fun _ hq => Tab.get_set_of_ne _ _ _ hq⟩
theorem eventStep_takeSeq (src : Nat) : EventStep s (s.takeSeq src).2 := ⟨rfl, fun _ _ => rfl, fun _ _ => rfl, fun _ _ _ => rfl, fun _ _ => Iff.rfl, fun _ _ _ h => h, fun _ _ => rfl⟩

theorem Fld.of_lt (f : Fld) (w : Word) : f.of w < 2 ^ f.width := Nat.mod_lt _ (Nat.two_pow_pos _)

theorem eqBase_lt (r : Nat) : s.eqBase r < 2 ^ 64 := by
  have h1 := Fld.of_lt .RING_EQ_LO_BASE_LO (s.word Reg.RING_EQ_LO r 0)
  have h2 := Fld.of_lt .RING_EQ_HI_BASE_HI (s.word Reg.RING_EQ_HI r 0)
  simp only [State.eqBase, State.fld]
  simp only at h1 h2
  omega

theorem eqLog_lt (r : Nat) : s.eqLog r ≤ 16 := by
  have key : ∀ v : Nat, v < 16 → (if v = 0 then 16 else if v < 6 then 6 else v) ≤ 16 := by decide
  exact key _ (Fld.of_lt .RING_EQ_CFG_EQ_LOG (s.word Reg.RING_EQ_CFG r 0))

@[simp] theorem length_leBytes (n v : Nat) : (leBytes n v).length = n := by
  induction n generalizing v with
  | zero => rfl
  | succ n ih => simp [leBytes, ih]

@[simp] theorem length_eventBytes (a b c d e f g h : Nat) : (eventBytes a b c d e f g h).length = 32 := by
  simp [eventBytes]

/-- A store into host memory is an event step. -/
theorem eventStep_hostStore (a : Nat) (bs : List Nat) (h : a + bs.length ≤ lpddrBase) : EventStep s (s.store a bs) where
  parts := rfl
  stores := fun b hb => Memory.read_store_outside _ _ _ _ (by omega)
  regs := fun _ _ => rfl
  sqc := fun _ _ _ => rfl
  bad := fun k hk => by
    simp only [State.store_mem, Mem.store, List.mem_filter, coversWord]
    constructor
    · exact fun h => h.1
    · intro hk'
      refine ⟨hk', ?_⟩
      simp only [Bool.not_eq_true', Bool.and_eq_false_iff, decide_eq_false_iff_not]
      omega
  sts := fun _ _ _ h => h
  fw := fun _ _ => rfl

theorem eventStep_eqWrite (r stamp src cls code seq realm payload : Nat) : EventStep s (s.eqWrite r stamp src cls code seq realm payload) := by
  unfold State.eqWrite
  refine EventStep.trans (eventStep_hostStore _ _ _ ?_) (eventStep_setEvRing _ _ _)
  have h1 := eqBase_lt s r
  have h2 : (s.evRing r).tail % s.eqSize r < s.eqSize r := Nat.mod_lt _ (Nat.two_pow_pos _)
  have h3 : s.eqSize r ≤ 2 ^ 16 := Nat.pow_le_pow_right (by decide) (eqLog_lt s r)
  simp only [length_eventBytes, hostBase, lpddrBase]
  omega

theorem eventStep_eqOverflow (r : Nat) : EventStep s (s.eqOverflow r) := by
  unfold State.eqOverflow
  simp only
  split
  · exact EventStep.refl _
  · exact (((eventStep_takeSeq s _).trans (eventStep_setQueue _ _)).trans (eventStep_eqWrite _ _ _ _ _ _ _ _ _)).trans (eventStep_setEvRing _ _ _)

theorem eventStep_drop {r : Nat} (n : Nat) (hr : r < 4) : EventStep s (s.bumpSat .RING_EQ_DROP_COUNT n r) where
  parts := rfl
  stores := fun _ _ => rfl
  regs := fun _ hk => Tab.get_set_of_ne _ _ _ (hk r hr)
  sqc := fun _ _ _ => rfl
  bad := fun _ _ => Iff.rfl
  sts := fun _ _ _ h => h
  fw := fun _ _ => rfl

theorem eventStep_eqDeliver {r : Nat} (src cls code seq payload : Nat) (hr : r < 4) : EventStep s (s.eqDeliver r src cls code seq payload).2 := by
  unfold State.eqDeliver
  split
  · exact EventStep.refl _
  · simp only
    split
    · exact (eventStep_eqOverflow s r).trans (eventStep_eqWrite _ _ _ _ _ _ _ _ _)
    · exact ((eventStep_eqOverflow s r).trans (eventStep_drop _ _ hr)).trans (eventStep_setEvRing _ _ _)

theorem eventStep_emitOne (src cls code realm payload : Nat) : EventStep s (s.emitOne src cls code realm payload).2 := by
  unfold State.emitOne
  simp only
  split
  · exact ((eventStep_takeSeq s _).trans (eventStep_setQueue _ _)).trans (eventStep_eqDeliver _ _ _ _ _ _ (by assumption))
  · exact (eventStep_takeSeq s _).trans (eventStep_setQueue _ _)

/-- What setting status bits does to the state, its STATUS record apart. -/
theorem stsSet_state (r : Reg) (u : Nat) (mask : List Nat) : (s.stsSet r u mask).2 = s.setSqc r u ((s.sqcOf r u).event mask) := by
  unfold State.stsSet
  simp only
  split <;> rfl

/-- Bits of an SQC event are set after it. -/
theorem Sqc.event_find (q : Sqc) (mask : List Nat) (b : Nat) (h : b ∈ mask) : (Tab.find b (q.event mask).setBits).isSome = true := by
  unfold Sqc.event
  simp only
  generalize (q.setBits.map _) = t
  generalize (if q.read = true then (q.c + 1) % 256 else q.c) = c
  have key : ∀ (l : List Nat) (t : Tab Nat), b ∈ l ∨ (Tab.find b t).isSome = true → (Tab.find b (l.foldl (fun t b => Tab.put b c t) t)).isSome = true := by
    intro l
    induction l with
    | nil => intro t h; simpa using h
    | cons x l ih =>
      intro t h
      simp only [List.foldl_cons]
      apply ih
      by_cases hx : b = x
      · subst hx; right; simp
      · rcases h with h | h
        · rcases List.mem_cons.1 h with h | h
          · exact absurd h hx
          · exact .inl h
        · right; rw [Tab.find_put_of_ne _ _ hx]; exact h
  exact key mask t (.inl h)

/-- Bits that were set stay set through an SQC event. -/
theorem Sqc.event_keep (q : Sqc) (mask : List Nat) (b : Nat) (h : (Tab.find b q.setBits).isSome = true) :
    (Tab.find b (q.event mask).setBits).isSome = true := by
  unfold Sqc.event
  simp only
  generalize (if q.read = true then (q.c + 1) % 256 else q.c) = c
  have h0 : (Tab.find b (q.setBits.map (fun e => (e.1, if (c + 256 - e.2) % 256 ≥ 128 then (c + 129) % 256 else e.2)))).isSome = true := by
    revert h
    induction q.setBits with
    | nil => simp [Tab.find]
    | cons e l ih =>
      obtain ⟨k, v⟩ := e
      by_cases hk : k = b
      · simp [Tab.find, hk]
      · simpa [Tab.find, hk] using ih
  revert h0
  generalize (q.setBits.map _) = t
  induction mask generalizing t with
  | nil => exact id
  | cons x m ih =>
    intro h0
    simp only [List.foldl_cons]
    apply ih
    by_cases hx : b = x
    · subst hx; simp
    · rw [Tab.find_put_of_ne _ _ hx]; exact h0

/-- No run of drops begins at a realm that has no event ring. -/
theorem emitOne_dropped (src cls code realm payload : Nat) (h : (s.emitOne src cls code realm payload).1 = true) : realm < 4 := by
  unfold State.emitOne at h
  simp only at h
  split at h
  · assumption
  · simp at h

theorem eventStep_setSqc {r : Nat} (mask : List Nat) (hr : r < 4) : EventStep s (s.setSqc .RING_STS r ((s.sqcOf .RING_STS r).event mask)) where
  parts := rfl
  stores := fun _ _ => rfl
  regs := fun _ _ => rfl
  sqc := fun _ _ hk => Tab.get_set_of_ne _ _ _ (hk r hr)
  bad := fun _ _ => Iff.rfl
  sts := fun g u b hb => by
    unfold State.stsBit State.sqcOf State.setSqc at *
    by_cases hk : sqcKey g u = sqcKey .RING_STS r
    · rw [hk] at hb ⊢
      simp only [Tab.get_set_self]
      exact Sqc.event_keep _ _ _ hb
    · simp only
      rw [Tab.get_set_of_ne _ _ _ hk]
      exact hb
  fw := fun _ _ => rfl

/-- An event record touches nothing but the event rings, RING_EQ_DROP, RING_STS, SEQ and firmware's queue (R204-R207). -/
theorem eventStep_emit (src cls code realm payload : Nat) : EventStep s (s.emit src cls code realm payload) := by
  unfold State.emit
  simp only
  have h := eventStep_emitOne s src cls code realm payload
  split
  · rename_i hd
    have hr := emitOne_dropped s src cls code realm payload hd
    have h2 : EventStep s ((s.emitOne src cls code realm payload).2.stsSet .RING_STS realm [3]).2 := by
      rw [stsSet_state]
      exact h.trans (eventStep_setSqc _ _ hr)
    split
    · exact h2.trans (eventStep_emitOne _ _ _ _ _ _)
    · exact h2
  · exact h

/-- A status event is the SQC event of its register followed by an event step (R205, R459). -/
theorem eventStep_setSts (r : Reg) (mask : List Nat) (u : Nat) (h : mask ≠ []) :
    EventStep (s.setSqc r u ((s.sqcOf r u).event mask)) (s.setSts r mask u) := by
  unfold State.setSts
  rw [if_neg (by simpa using h)]
  simp only
  split
  · rw [stsSet_state]; exact eventStep_emit _ _ _ _ _ _
  · rw [stsSet_state]; exact EventStep.refl _

/-- No status event and no event record touches an internal queue but firmware's. -/
theorem queue_setSts (r : Reg) (mask : List Nat) (u q : Nat) (hq : q ≠ fwQueue) : (s.setSts r mask u).queue q = s.queue q := by
  by_cases h : mask = []
  · subst h; rfl
  · exact ((eventStep_setSts s r mask u h).fw q hq).trans rfl

/-- A status event sets its bits (R459). -/
theorem stsBit_setSts {r : Reg} {mask : List Nat} {u b : Nat} (h : b ∈ mask) : (s.setSts r mask u).stsBit r b u = true := by
  refine (eventStep_setSts s r mask u (List.ne_nil_of_mem h)).sts r u b ?_
  simp only [State.stsBit, State.sqcOf, State.setSqc, Tab.get_set_self]
  exact Sqc.event_find _ _ _ h

/-- An event clears no status bit. -/
theorem stsBit_emit {src cls code realm payload : Nat} {r : Reg} {u b : Nat} (h : s.stsBit r b u = true) :
    (s.emit src cls code realm payload).stsBit r b u = true := (eventStep_emit s src cls code realm payload).sts r u b h

/-- A status event touches the parts of an event record alone. -/
theorem sameBut_setSts (r : Reg) (mask : List Nat) (u : Nat) (p : Part) (hp : p ∉ eventParts) : p.same s (s.setSts r mask u) := by
  by_cases h : mask = []
  · subst h; cases p <;> rfl
  · rw [(eventStep_setSts s r mask u h).parts]
    cases p <;> first | rfl | (exact absurd (by simp [eventParts]) hp)

/-- A status event changes no register but RING_EQ_DROP. -/
theorem word_setSts {r : Reg} {mask : List Nat} {u : Nat} {g : Reg} {u' sel : Nat} (hg : ∀ q < 4, g.key u' sel ≠ Reg.RING_EQ_DROP.key q 0) :
    (s.setSts r mask u).word g u' sel = s.word g u' sel := by
  by_cases h : mask = []
  · subst h; rfl
  · exact (eventStep_setSts s r mask u h).regs _ hg

theorem word_emit {src cls code realm payload : Nat} {g : Reg} {u' sel : Nat} (hg : ∀ q < 4, g.key u' sel ≠ Reg.RING_EQ_DROP.key q 0) :
    (s.emit src cls code realm payload).word g u' sel = s.word g u' sel := (eventStep_emit s src cls code realm payload).regs _ hg

theorem fld_setSts {r : Reg} {mask : List Nat} {u : Nat} {g : Fld} {u' sel : Nat} (hg : ∀ q < 4, g.reg.key u' sel ≠ Reg.RING_EQ_DROP.key q 0) :
    (s.setSts r mask u).fld g u' sel = s.fld g u' sel := by unfold State.fld; rw [word_setSts s hg]

theorem fld_emit {src cls code realm payload : Nat} {g : Fld} {u' sel : Nat} (hg : ∀ q < 4, g.reg.key u' sel ≠ Reg.RING_EQ_DROP.key q 0) :
    (s.emit src cls code realm payload).fld g u' sel = s.fld g u' sel := by unfold State.fld; rw [word_emit s hg]

end Sys2Proof.Machine
end

