-- ==== Sys2Proof/Laws/Records.lean ====
section
/-! SUPPORT. What a descriptor's completion can do (R176-R178, R199): its record, its ring pair, and the parts of the state it touches. -/

namespace Sys2Proof.Machine

variable (s : State)

@[simp] theorem ring_setRing_self (r n : Nat) (x : Ring) : (s.setRing r n x).ring r n = x := Tab.get_set_self _ _ _ _

theorem ring_updDesc_self (r n uid : Nat) (f : Desc → Desc) :
    (s.updDesc r n uid f).ring r n = { s.ring r n with descs := (s.ring r n).descs.map (fun d => if d.uid = uid then f d else d) } := by
  simp [State.updDesc]

/-- What an update that keeps numbers leaves of the other descriptors. -/
theorem filter_map_uid (l : List Desc) (uid : Nat) (f : Desc → Desc) (hf : ∀ d, (f d).uid = d.uid) :
    (l.map (fun d => if d.uid = uid then f d else d)).filter (fun e => e.uid != uid) = l.filter (fun e => e.uid != uid) := by
  induction l with
  | nil => rfl
  | cons d l ih =>
    by_cases h : d.uid = uid
    · simp only [List.map_cons, h, if_true, List.filter_cons, hf, bne_self_eq_false, Bool.false_eq_true, if_false]
      simpa using ih
    · simp only [List.map_cons, h, if_false, List.filter_cons]
      simp only [bne_iff_ne, ne_eq, h, not_false_eq_true, if_true]
      rw [ih]

theorem find_map_uid (l : List Desc) (uid : Nat) (f : Desc → Desc) (hf : ∀ d, (f d).uid = d.uid) :
    (l.map (fun d => if d.uid = uid then f d else d)).find? (fun e => e.uid == uid) = (l.find? (fun e => e.uid == uid)).map f := by
  induction l with
  | nil => rfl
  | cons d l ih =>
    by_cases h : d.uid = uid
    · simp [h, hf]
    · simp [h, ih]

theorem descUid_updDesc_self (r n uid : Nat) (f : Desc → Desc) (hf : ∀ d, (f d).uid = d.uid) :
    (s.updDesc r n uid f).descUid r n uid = (s.descUid r n uid).map f := by
  simp only [State.descUid, ring_updDesc_self]
  exact find_map_uid _ _ _ hf

theorem starting_desc {r n i ty : Nat} {d : Desc} (h : s.starting r n i ty = some d) :
    s.desc r n i = some d ∧ d.started.isSome = true ∧ d.acted = false ∧ d.ty = ty := by
  unfold State.starting at h
  rw [Option.filter_eq_some_iff] at h
  obtain ⟨h1, h2⟩ := h
  simp only [Bool.and_eq_true, Bool.not_eq_true', beq_iff_eq] at h2
  exact ⟨h1, h2.1.1, h2.1.2, h2.2⟩

theorem onDesc_some {r n i ty : Nat} {d : Desc} (f : Desc → State → State) (h : s.starting r n i ty = some d) :
    s.onDesc r n i ty f = f d (s.updDesc r n d.uid (fun d => { d with acted := true })) := by
  simp only [State.onDesc, h]

theorem EventStep.sameBut {t u : State} (h : EventStep t u) : t.sameBut u eventParts := by
  intro p hp
  rw [h.parts]
  cases p <;> first | rfl | (exact absurd (by simp [eventParts]) hp)

theorem sameBut_trans {t u v : State} {ps : List Part} (h : t.sameBut u ps) (g : u.sameBut v ps) : t.sameBut v ps := by
  intro p hp
  have h1 := h p hp
  have h2 := g p hp
  cases p <;> exact Eq.trans h1 h2

theorem sameBut_mono {t u : State} {ps qs : List Part} (h : t.sameBut u ps) (hs : ps ⊆ qs) : t.sameBut u qs := fun p hp => h p (fun hq => hp (hs hq))

theorem sameBut_refl (t : State) (ps : List Part) : t.sameBut t ps := fun p _ => by cases p <;> rfl

theorem getElem_recordBytes (r n : Nat) (d : Desc) (ph : Bool) (x : Rec) :
    ∃ h : 5 < (s.recordBytes r n d ph x).length, (s.recordBytes r n d ph x)[5] = x.status % 256 := by
  unfold State.recordBytes
  simp only
  split <;> simp [leBytes]

/-- Completing a recordable descriptor writes its record, frees its slot of the ring pair and advances CQ_TAIL (R176-R178). -/
theorem complete_spec {r n : Nat} {d : Desc} (x : Rec) (h : s.recordable r n d) :
    s.completed (s.complete r n d.uid x) r n d x.status ∧ s.sameBut (s.complete r n d.uid x) recordParts := by
  obtain ⟨hd, hr, hc, hq, hf⟩ := h
  unfold State.complete
  simp only [hf, Bool.false_eq_true, if_false, hd, hq, hc]
  have hsame : ∀ (a : Nat) (bs : List Nat) (x1 x2 : Ring), s.sameBut ((((s.store a bs).setRing r n x1).setRing r n x2).bumpWrap .RING_PERF_DONE_COUNT 1 r) recordParts := by
    intro a bs x1 x2 p hp
    cases p <;> first | rfl | (exact absurd (by simp [recordParts, eventParts]) hp)
  obtain ⟨hl, hb⟩ := getElem_recordBytes s r n d (s.ring r n).phase x
  constructor
  · refine ⟨?_, ?_, ?_⟩
    · split
      · rw [show ∀ t : State, ∀ a b c d e, (t.emit a b c d e).ring r n = t.ring r n from fun t a b c d e => by
          simp only [State.ring]; rw [(eventStep_emit t a b c d e).parts]]
        simp
      · simp
    · split
      · rw [show ∀ t : State, ∀ a b c d e, (t.emit a b c d e).ring r n = t.ring r n from fun t a b c d e => by
          simp only [State.ring]; rw [(eventStep_emit t a b c d e).parts]]
        simp
      · simp
    · intro hbit
      simp only [hbit, Bool.false_eq_true, if_false]
      have := Memory.read_store_inside s.mem.cells (hostBase + s.cqBase r n + s.recBytes r n * ((s.ring r n).cqTail % s.cqSize r n))
        (s.recordBytes r n d (s.ring r n).phase x) 5 hl
      rw [hb] at this
      simp only [State.bumpWrap_mem, State.setRing_mem, State.store_mem, Mem.store]
      rw [this]
      apply BitVec.eq_of_toNat_eq
      simp
  · split
    · exact sameBut_trans (hsame _ _ _ _) (sameBut_mono (EventStep.sameBut (eventStep_emit _ _ _ _ _ _)) (by simp [recordParts]))
    · exact hsame _ _ _ _

theorem done_spec {r n : Nat} {d : Desc} (st : Nat) (h : s.recordable r n d) :
    s.completed (s.done r n d.uid st) r n d st ∧ s.sameBut (s.done r n d.uid st) recordParts := by
  have := complete_spec s { status := st } h
  simp only [State.done, State.finish, h.1, h.2.1, if_true]
  exact this

theorem finish_spec {r n : Nat} {d : Desc} (x : Rec) (h : s.recordable r n d) :
    s.completed (s.finish r n d.uid x) r n d x.status ∧ s.sameBut (s.finish r n d.uid x) recordParts := by
  have := complete_spec s x h
  simp only [State.finish, h.1, h.2.1, if_true]
  exact this

/-- Completion is judged by the ring pair and the ring registers alone. -/
theorem completed_congr {t u : State} {r n : Nat} {d e : Desc} {st : Nat} (hu : e.uid = d.uid) (hf : e.flags = d.flags)
    (hdesc : (t.ring r n).descs.filter (fun x => x.uid != d.uid) = (s.ring r n).descs.filter (fun x => x.uid != d.uid))
    (htail : (t.ring r n).cqTail = (s.ring r n).cqTail) (hsize : t.cqSize r n = s.cqSize r n) (hbase : t.cqBase r n = s.cqBase r n)
    (hrec : t.recBytes r n = s.recBytes r n) (h : t.completed u r n e st) : s.completed u r n d st := by
  obtain ⟨h1, h2, h3⟩ := h
  rw [hu] at h1
  refine ⟨h1.trans hdesc, ?_, ?_⟩
  · rw [h2, htail, hsize]
  · rw [hf, htail, hbase, hrec, hsize] at h3; exact h3

/-- A started descriptor that has acted is as recordable as before, and what completes it then completes it now. -/
theorem recordable_acted {r n : Nat} {d : Desc} (h : s.recordable r n d) :
    (s.updDesc r n d.uid (fun d => { d with acted := true })).recordable r n { d with acted := true } := by
  obtain ⟨hd, hr, hc, hq, hf⟩ := h
  refine ⟨?_, hr, hc, ?_, hf⟩
  · exact (descUid_updDesc_self s r n d.uid (fun d => { d with acted := true }) (fun _ => rfl)).trans (by rw [hd]; rfl)
  · rw [ring_updDesc_self]; exact hq

theorem completed_acted {t : State} {r n : Nat} {d : Desc} {st : Nat}
    (h : (s.updDesc r n d.uid (fun d => { d with acted := true })).completed t r n { d with acted := true } st) : s.completed t r n d st := by
  refine completed_congr s (t := s.updDesc r n d.uid (fun d => { d with acted := true })) (e := { d with acted := true }) rfl rfl ?_ ?_ rfl rfl rfl h
  · rw [ring_updDesc_self]
    exact filter_map_uid _ _ _ (fun _ => rfl)
  · rw [ring_updDesc_self]

theorem sameBut_updDesc {t : State} (r n uid : Nat) (f : Desc → Desc) {ps : List Part} (hp : Part.rings ∈ ps)
    (h : (s.updDesc r n uid f).sameBut t ps) : s.sameBut t ps := by
  refine sameBut_trans (u := s.updDesc r n uid f) (fun p hq => ?_) h
  cases p <;> first | rfl | (exact absurd hp hq)

/-! ### A completion stays in host memory -/

theorem storesKept_trans {t u v : State} (h : t.storesKept u) (g : u.storesKept v) : t.storesKept v := fun a ha => (g a ha).trans (h a ha)

theorem cqBase_lt (r n : Nat) : s.cqBase r n < 2 ^ 64 := by
  have h1 := Fld.of_lt .RING_CQ_LO_BASE_LO (s.word Reg.RING_CQ_LO r n)
  have h2 := Fld.of_lt .RING_CQ_HI_BASE_HI (s.word Reg.RING_CQ_HI r n)
  simp only [State.cqBase, State.fld]
  simp only at h1 h2
  omega

theorem cqSize_le (r n : Nat) : s.cqSize r n ≤ 2 ^ 15 := by
  have key : ∀ v : Nat, v < 16 → ringLog v ≤ 15 := by decide
  exact Nat.pow_le_pow_right (by decide) (key _ (Fld.of_lt .RING_SIZE_CQ_LOG (s.word Reg.RING_SIZE r n)))

theorem length_recordBytes (r n : Nat) (d : Desc) (ph : Bool) (x : Rec) (h : (x.digest.getD []).length ≤ 32) :
    (s.recordBytes r n d ph x).length ≤ 128 := by
  unfold State.recordBytes
  simp only
  cases hx : x.digest with
  | none => split <;> simp [Function.comp_def]
  | some l => rw [hx] at h; simp at h; split <;> simp [Function.comp_def] <;> omega

theorem storesKept_setSts (r : Reg) (mask : List Nat) (u : Nat) : s.storesKept (s.setSts r mask u) := by
  by_cases h : mask = []
  · subst h; exact fun _ _ => rfl
  · exact (eventStep_setSts s r mask u h).stores

theorem storesKept_emit (a b c d e : Nat) : s.storesKept (s.emit a b c d e) := (eventStep_emit s a b c d e).stores
theorem storesKept_setRing (r n : Nat) (x : Ring) : s.storesKept (s.setRing r n x) := fun _ _ => rfl

/-- A record is a store into host memory (R178). -/
theorem storesKept_complete (r n uid : Nat) (x : Rec) (h : (x.digest.getD []).length ≤ 32) : s.storesKept (s.complete r n uid x) := by
  unfold State.complete
  simp only
  split
  · exact fun _ _ => rfl
  · rename_i d _
    have h1 : s.storesKept (if (s.ring r n).cqDead then s.setRing r n { s.ring r n with lost := (s.ring r n).lost + 1 }
      else if d.cqErr then
        (s.setRing r n { s.ring r n with cqDead := true, stopped := true, lost := (s.ring r n).lost + 1 }).setSts .RING_STS [2] r
          |>.emit 15 0x20 0x0003 r n
      else
        (s.store (hostBase + s.cqBase r n + s.recBytes r n * ((s.ring r n).cqTail % s.cqSize r n)) (s.recordBytes r n d (s.ring r n).phase x)).setRing r n
          { s.ring r n with cqTail := ((s.ring r n).cqTail + 1) % s.cqSize r n,
                            phase := if ((s.ring r n).cqTail + 1) % s.cqSize r n = 0 then !(s.ring r n).phase else (s.ring r n).phase,
                            irqDue := s.coalesce (s.ring r n).irqDue (s.flag .RING_SIZE_IRQ_EN r n) (s.fld .RING_SIZE_COAL_US r n) }) := by
      split
      · exact fun _ _ => rfl
      · split
        · exact storesKept_trans (storesKept_setRing s r n _) (storesKept_trans (storesKept_setSts _ _ _ _) (storesKept_emit _ _ _ _ _ _))
        · refine (eventStep_hostStore s _ _ ?_).stores
          have h2 := cqBase_lt s r n
          have h3 := cqSize_le s r n
          have h4 : (s.ring r n).cqTail % s.cqSize r n < s.cqSize r n := Nat.mod_lt _ (Nat.two_pow_pos _)
          have h5 : s.recBytes r n ≤ 128 := by unfold State.recBytes; split <;> decide
          have h6 : s.recBytes r n * ((s.ring r n).cqTail % s.cqSize r n) ≤ 128 * 2 ^ 15 := Nat.mul_le_mul h5 (by omega)
          have h7 := length_recordBytes s r n d (s.ring r n).phase x h
          simp only [hostBase, lpddrBase]
          omega
    split
    · refine storesKept_trans h1 (storesKept_trans ?_ (storesKept_emit _ _ _ _ _ _))
      exact fun _ _ => rfl
    · exact storesKept_trans h1 (fun _ _ => rfl)

theorem sameBut_record_setSts (r : Reg) (mask : List Nat) (u : Nat) : s.sameBut (s.setSts r mask u) recordParts :=
  fun p hp => sameBut_setSts s r mask u p (fun h => hp (by simp [recordParts, h]))

/-- A completion touches the parts of a record, whatever becomes of it. -/
theorem sameBut_complete (r n uid : Nat) (x : Rec) : s.sameBut (s.complete r n uid x) recordParts := by
  unfold State.complete
  simp only
  split
  · exact sameBut_refl s _
  · rename_i d _
    have h1 : s.sameBut (if (s.ring r n).cqDead then s.setRing r n { s.ring r n with lost := (s.ring r n).lost + 1 }
      else if d.cqErr then
        (s.setRing r n { s.ring r n with cqDead := true, stopped := true, lost := (s.ring r n).lost + 1 }).setSts .RING_STS [2] r
          |>.emit 15 0x20 0x0003 r n
      else
        (s.store (hostBase + s.cqBase r n + s.recBytes r n * ((s.ring r n).cqTail % s.cqSize r n)) (s.recordBytes r n d (s.ring r n).phase x)).setRing r n
          { s.ring r n with cqTail := ((s.ring r n).cqTail + 1) % s.cqSize r n,
                            phase := if ((s.ring r n).cqTail + 1) % s.cqSize r n = 0 then !(s.ring r n).phase else (s.ring r n).phase,
                            irqDue := s.coalesce (s.ring r n).irqDue (s.flag .RING_SIZE_IRQ_EN r n) (s.fld .RING_SIZE_COAL_US r n) }) recordParts := by
      split
      · intro p hp; cases p <;> first | rfl | (exact absurd (by simp [recordParts, eventParts]) hp)
      · split
        · refine sameBut_trans (u := s.setRing r n { s.ring r n with cqDead := true, stopped := true, lost := (s.ring r n).lost + 1 }) ?_
            (sameBut_trans (sameBut_record_setSts _ _ _ _) (sameBut_mono (eventStep_emit _ _ _ _ _ _).sameBut (by simp [recordParts])))
          intro p hp; cases p <;> first | rfl | (exact absurd (by simp [recordParts, eventParts]) hp)
        · intro p hp; cases p <;> first | rfl | (exact absurd (by simp [recordParts, eventParts]) hp)
    have h2 : ∀ (t : State) (q : Ring), t.sameBut ((t.setRing r n q).bumpWrap .RING_PERF_DONE_COUNT 1 r) recordParts := by
      intro t q p hp; cases p <;> first | rfl | (exact absurd (by simp [recordParts, eventParts]) hp)
    split
    · exact sameBut_trans h1 (sameBut_trans (h2 _ _) (sameBut_mono (eventStep_emit _ _ _ _ _ _).sameBut (by simp [recordParts])))
    · exact sameBut_trans h1 (h2 _ _)

theorem sameBut_finish (r n uid : Nat) (x : Rec) : s.sameBut (s.finish r n uid x) recordParts := by
  unfold State.finish
  split
  · exact sameBut_refl s _
  · split
    · exact sameBut_complete s r n uid x
    · intro p hp; cases p <;> first | rfl | (exact absurd (by simp [recordParts, eventParts]) hp)

theorem sameBut_done (r n uid st : Nat) : s.sameBut (s.done r n uid st) recordParts := sameBut_finish s r n uid _

theorem storesKept_finish (r n uid : Nat) (x : Rec) (h : (x.digest.getD []).length ≤ 32) : s.storesKept (s.finish r n uid x) := by
  unfold State.finish
  split
  · exact fun _ _ => rfl
  · split
    · exact storesKept_complete s r n uid x h
    · exact fun _ _ => rfl

theorem storesKept_done (r n uid st : Nat) : s.storesKept (s.done r n uid st) := storesKept_finish s r n uid _ (by simp)

end Sys2Proof.Machine
end

