-- ==== Sys2Proof/Laws/Faults.lean ====
section
/-! SUPPORT. What reporting an error can do (R358-R365): the parts of the state it touches, and that it touches no store of the module. -/

namespace Sys2Proof.Machine

/-- Two states differ at most in what the report of an error touches, and in no byte outside host memory. -/
def ReportStep (s t : State) : Prop := s.sameBut t reportParts ∧ s.storesKept t

theorem ReportStep.refl (s : State) : ReportStep s s := ⟨sameBut_refl s _, fun _ _ => rfl⟩
theorem ReportStep.trans {s t u : State} (h : ReportStep s t) (g : ReportStep t u) : ReportStep s u := ⟨sameBut_trans h.1 g.1, storesKept_trans h.2 g.2⟩

variable (s : State)

theorem reportStep_emit (a b c d e : Nat) : ReportStep s (s.emit a b c d e) :=
  ⟨sameBut_mono (eventStep_emit s a b c d e).sameBut (fun x hx => by simp [reportParts, hx]), storesKept_emit s a b c d e⟩

theorem reportStep_setSts (r : Reg) (m : List Nat) (u : Nat) : ReportStep s (s.setSts r m u) :=
  ⟨fun p hp => sameBut_setSts s r m u p (fun h => hp (by simp [reportParts, h])), storesKept_setSts s r m u⟩

theorem reportStep_setFld (f : Fld) (v u sel : Nat) : ReportStep s (s.setFld f v u sel) :=
  ⟨fun p hp => by cases p <;> first | rfl | (exact absurd (by simp [reportParts, eventParts]) hp), fun _ _ => rfl⟩

theorem reportStep_onFlt (f : Flt → Flt) : ReportStep s (s.onFlt f) :=
  ⟨fun p hp => by cases p <;> first | rfl | (exact absurd (by simp [reportParts, eventParts]) hp), fun _ _ => rfl⟩

theorem reportStep_onStave (f : Stave → Stave) : ReportStep s (s.onStave f) :=
  ⟨fun p hp => by cases p <;> first | rfl | (exact absurd (by simp [reportParts, eventParts]) hp), fun _ _ => rfl⟩

theorem reportStep_foldl {α : Type} (f : State → α → State) (hf : ∀ t x, ReportStep t (f t x)) (l : List α) (s : State) : ReportStep s (l.foldl f s) := by
  induction l generalizing s with
  | nil => exact ReportStep.refl s
  | cons x l ih => exact (hf s x).trans (ih _)

theorem reportStep_emitTo (l : List Nat) (a b c e : Nat) : ReportStep s (s.emitTo l a b c e) :=
  reportStep_foldl _ (fun t _ => reportStep_emit t _ _ _ _ _) _ _

theorem reportStep_fltShow : ReportStep s s.fltShow := by
  unfold State.fltShow
  exact (reportStep_setFld _ _ _ _ _).trans ((reportStep_setFld _ _ _ _ _).trans ((reportStep_setFld _ _ _ _ _).trans ((reportStep_setFld _ _ _ _ _).trans
    ((reportStep_setFld _ _ _ _ _).trans ((reportStep_setFld _ _ _ _ _).trans (reportStep_setFld _ _ _ _ _))))))

theorem reportStep_modAlert : ReportStep s s.modAlert := by
  unfold State.modAlert
  simp only
  split
  · exact ReportStep.refl s
  · exact ⟨fun p hp => by cases p <;> first | rfl | (exact absurd (by simp [reportParts, eventParts]) hp), fun _ _ => rfl⟩

theorem reportStep_evalState : ReportStep s s.evalState := by
  unfold State.evalState
  have h : ReportStep s s.latchNow := by unfold State.latchNow; exact reportStep_onFlt _ _
  refine h.trans ?_
  simp only
  split
  · exact (reportStep_fltShow _).trans (reportStep_modAlert _)
  · refine ReportStep.trans ?_ (reportStep_setSts _ _ _ _)
    refine ReportStep.trans ?_ (reportStep_foldl _ (fun t _ => reportStep_emit t _ _ _ _ _) _ _)
    exact (reportStep_onFlt _ _).trans ((reportStep_fltShow _).trans (reportStep_modAlert _))

theorem reportStep_freeze (k : Nat) : ReportStep s (s.freeze k) := by
  unfold State.freeze
  split
  · exact (reportStep_onFlt _ _).trans (reportStep_setFld _ _ _ _ _)
  · exact (reportStep_setSts _ _ _ _).trans (reportStep_emit _ _ _ _ _ _)

theorem reportStep_stvState : ReportStep s s.stvState := by
  unfold State.stvState State.stvSend
  split
  · exact reportStep_setSts _ _ _ _
  · exact reportStep_onStave _ _

theorem reportStep_fatal : ReportStep s s.fatal := by
  unfold State.fatal
  split
  · exact ReportStep.refl s
  · refine (reportStep_onFlt s (fun f => { f with failed := true })).trans ?_
    simp only
    generalize s.onFlt (fun f => { f with failed := true }) = t
    have h1 : ReportStep t (if t.flag .GLB_STATE_READY then t else t.setFld .GLB_STATE_STAGE 6) := by
      split
      · exact ReportStep.refl t
      · exact reportStep_setFld _ _ _ _ _
    refine h1.trans ?_
    generalize (if t.flag .GLB_STATE_READY then t else t.setFld .GLB_STATE_STAGE 6) = u
    refine (reportStep_stvState u).trans ?_
    split
    · exact reportStep_freeze _ _
    · exact ReportStep.refl _

theorem reportStep_setUnit (k : Nat) (u : UnitRec) : ReportStep s (s.setUnit k u) := reportStep_onFlt _ _

/-- The report of an error touches the parts of events, the fault block, the message queues and the alert pin alone. -/
theorem reportStep_report (sev cause kind index scope : Nat) (realms : List Nat) (detail : Nat) (esc ret : Bool) (from_ : Option Nat) :
    ReportStep s (s.report sev cause kind index scope realms detail esc ret from_) := by
  unfold State.report
  extract_lets src s1 s2 s3 own k x1 x2 x3 x4 x5 x6 x7 x8 x9 s4
  refine ReportStep.trans ?_ (reportStep_evalState s4)
  have h1 : ReportStep s s1 := reportStep_emitTo _ _ _ _ _ _
  have h2 : ReportStep s s2 := h1.trans (reportStep_setSts _ _ _ _)
  have h3 : ReportStep s s3 := by
    refine h2.trans ?_
    simp only [s3]
    split
    · exact reportStep_setFld _ _ _ _ _
    · split
      · exact reportStep_setFld _ _ _ _ _
      · exact ReportStep.refl _
  have h4 : ReportStep s x7 := by
    refine h3.trans ?_
    simp only [x7]
    split
    · exact ReportStep.refl _
    · split
      · exact (reportStep_setUnit _ _ _).trans (reportStep_setUnit _ _ _)
      · split
        · exact (reportStep_setUnit _ _ _).trans (reportStep_setUnit _ _ _)
        · exact ReportStep.refl _
  have h5 : ReportStep s x9 := by
    refine h4.trans ?_
    simp only [x9]
    split
    · exact ⟨fun p hp => by cases p <;> first | rfl | (exact absurd (by simp [reportParts, eventParts]) hp), fun _ _ => rfl⟩
    · exact ReportStep.refl _
  refine h5.trans ?_
  simp only [s4]
  split
  · exact reportStep_fatal _
  · exact ReportStep.refl _

theorem reportStep_reportMod (sev cause : Nat) (realms : List Nat) (detail : Nat) (from_ : Option Nat) : ReportStep s (s.reportMod sev cause realms detail from_) :=
  (reportStep_report _ _ _ _ _ _ _ _ _ _ _).trans (reportStep_onFlt _ _)

theorem reportStep_tileCe (p n : Nat) : ReportStep s (s.tileCe p n) := by
  unfold State.tileCe
  split
  · exact ReportStep.refl s
  · exact (reportStep_setFld _ _ _ _ _).trans ((reportStep_setSts _ _ _ _).trans (reportStep_report _ _ _ _ _ _ _ _ _ _ _))

/-- A contained error touches what its report touches, and puts its tile into FAULT (R361). -/
theorem sameBut_contain (cause kind index base detail : Nat) (ex : Bool) : s.sameBut (s.contain cause kind index base detail ex) (.tiles :: reportParts) := by
  unfold State.contain
  extract_lets c scope realms logical t s1 s2
  have h1 : s.sameBut s1 (.tiles :: reportParts) := by
    simp only [s1]
    split
    · intro p hp; cases p <;> first | rfl | (exact absurd (by simp) hp)
    · exact sameBut_refl s _
  have h2 := (reportStep_report s1 2 cause kind index scope realms detail (decide (base < scope)) false none).trans (reportStep_onFlt s2 (fun f => { f with queue := f.queue ++ [{ sev := 2, cause := cause, kind := kind, index := index, logical := logical, scope := scope, esc := decide (base < scope), detail := detail, exhaust := ex }] }))
  exact sameBut_trans h1 (sameBut_mono h2.1 (by simp))

theorem storesKept_contain (cause kind index base detail : Nat) (ex : Bool) : s.storesKept (s.contain cause kind index base detail ex) := by
  unfold State.contain
  extract_lets c scope realms logical t s1 s2
  have h1 : s.storesKept s1 := by
    simp only [s1]
    split
    · exact fun _ _ => rfl
    · exact fun _ _ => rfl
  have h2 := (reportStep_report s1 2 cause kind index scope realms detail (decide (base < scope)) false none).trans (reportStep_onFlt s2 (fun f => { f with queue := f.queue ++ [{ sev := 2, cause := cause, kind := kind, index := index, logical := logical, scope := scope, esc := decide (base < scope), detail := detail, exhaust := ex }] }))
  exact storesKept_trans h1 h2.2

end Sys2Proof.Machine
end

