-- ==== Sys2Proof/Laws/Jobs.lean ====
section
/-! SUPPORT. What the end of an operator and of a JOB can do (R187, R202): the operator has its status, and no byte outside host memory changes. -/

namespace Sys2Proof.Machine

theorem disturb_jobs (s : State) (p : Nat) (env : OpEnv) : (s.disturb p env).jobs = s.jobs := by
  unfold State.disturb
  simp only
  have h := (reportStep_tileCe (env.bad.foldl (fun s k => s.onMem (fun m => m.spoil k)) s) p env.ce.length).1 .jobs (by decide)
  simp only [Part.same] at h
  rw [← h]
  generalize env.bad = l
  clear h
  induction l generalizing s with
  | nil => rfl
  | cons k l ih => exact ih _

theorem storesKept_of_mem {s t : State} (h : t.mem = s.mem) : s.storesKept t := fun a _ => by rw [h]

theorem jobs_setSts (s : State) (g : Reg) (m : List Nat) (u : Nat) : (s.setSts g m u).jobs = s.jobs := (sameBut_setSts s g m u .jobs (by decide)).symm

theorem foldl_vacate (l : List Nat) (s : State) : (l.foldl (fun s p => s.vacate p) s).mem = s.mem ∧ (l.foldl (fun s p => s.vacate p) s).jobs = s.jobs := by
  induction l generalizing s with
  | nil => exact ⟨rfl, rfl⟩
  | cons p l ih => exact ih _

theorem jobs_finish (s : State) (r n u : Nat) (x : Rec) : (s.finish r n u x).jobs = s.jobs := (sameBut_finish s r n u x .jobs (by decide)).symm

theorem epochRise_spec (s : State) : s.storesKept s.epochRise ∧ s.epochRise.jobs = s.jobs := by
  unfold State.epochRise
  split
  · simp only; split
    · exact ⟨fun _ _ => rfl, rfl⟩
    · exact ⟨storesKept_trans (fun _ _ => rfl) (storesKept_setSts _ _ _ _), jobs_setSts _ _ _ _⟩
  · exact ⟨fun _ _ => rfl, rfl⟩

theorem jobOver_spec (s : State) (u : Nat) (j : Job) (hj : s.job u = some j) (hd : (j.digest.getD []).length ≤ 32) :
    s.storesKept (s.jobOver u) ∧ ∀ j', (s.jobOver u).job u = some j' → ∀ k, j'.op k = j.op k := by
  unfold State.jobOver
  rw [hj]
  simp only
  split
  · refine ⟨fun _ _ => rfl, fun j' h k => ?_⟩
    rw [hj] at h; cases h; rfl
  · have he : s.storesKept (s.jobEpoch j) ∧ (s.jobEpoch j).jobs = s.jobs := by
      unfold State.jobEpoch; split
      · exact epochRise_spec s
      · exact ⟨fun _ _ => rfl, rfl⟩
    split
    · refine ⟨storesKept_trans he.1 (fun _ _ => rfl), fun j' h => ?_⟩
      simp [State.job, State.dropJob] at h
    · split
      · refine ⟨storesKept_trans he.1 (fun _ _ => rfl), fun j' h k => ?_⟩
        simp only [State.job, State.updJob, he.2] at h
        rw [show Tab.find u (Tab.upd u (fun j => { j with finished := true }) s.jobs) = (Tab.find u s.jobs).map (fun j => { j with finished := true }) from by
          generalize s.jobs = t
          induction t with
          | nil => rfl
          | cons e t ih => obtain ⟨a, b⟩ := e; by_cases ha : a = u <;> simp [Tab.upd, Tab.find, ha, ih]] at h
        simp only [State.job] at hj
        rw [hj] at h; cases h; rfl
      · refine ⟨storesKept_trans he.1 (storesKept_trans (storesKept_of_mem rfl) (storesKept_finish _ _ _ _ _ hd)), fun j' h => ?_⟩
        simp only [State.job, jobs_finish] at h
        simp [State.dropJob] at h

theorem forget_mem (t : State) (x : OpKey) (u : Nat) (y : Job) : ((t.forgetOp x).setJob u y).mem = t.mem := by
  unfold State.setJob State.forgetOp; rfl

theorem opEnd_spec (s : State) (u k st : Nat) (cs : List Nat) (j : Job) (hj : s.job u = some j) (hd : (j.digest.getD []).length ≤ 32) :
    s.storesKept (s.opEnd ⟨u, k⟩ st cs) ∧ ∀ j', (s.opEnd ⟨u, k⟩ st cs).job u = some j' → (j'.op k).st = .ended st := by
  have key : ∀ t, t = s.opEnd ⟨u, k⟩ st cs → s.storesKept t ∧ ∀ j', t.job u = some j' → (j'.op k).st = .ended st := by
    intro t ht
    unfold State.opEnd at ht
    split at ht
    · rename_i h; rw [hj] at h; cases h
    · rename_i j0 h
      rw [hj] at h; cases h
      extract_lets o s1 s2 s3 j1 j2 at ht
      have h2 := jobOver_spec (s3.setJob u j2) u j2 (Tab.find_put_self _ _ _) hd
      subst ht
      have h3 : s2.mem = s.mem := by
        simp only [s2]
        split
        · exact (show ∀ t : State, ∀ e, (t.epochDrop e).mem = t.mem from fun _ _ => rfl) _ _ |>.trans (foldl_vacate _ _).1
        · exact (foldl_vacate _ _).1
      clear_value s2
      refine ⟨storesKept_trans (storesKept_of_mem (s := s) (t := s3.setJob u j2) ?_) h2.1, fun j' h => ?_⟩
      · exact (forget_mem s2 ⟨u, k⟩ u j2).trans h3
      · rw [h2.2 j' h k]
        simp [j2, j1, Job.setOp, Job.op]
  exact key _ rfl

theorem jobs_applyWrites (s : State) (l : List WriteOut) : (s.applyWrites l).jobs = s.jobs := by
  unfold State.applyWrites
  have hp : ∀ (l : List Nat) (t : State), (l.foldl (fun s k => s.onMem (fun m => m.spoil k)) t).jobs = t.jobs := by
    intro l; induction l with
    | nil => intro t; rfl
    | cons k l ih => intro t; exact ih _
  induction l generalizing s with
  | nil => rfl
  | cons w l ih => simp only [List.foldl_cons]; rw [ih, hp]; rfl

theorem perf_spec (s : State) (p : Nat) (env : OpEnv) : (s.perf p env).mem = s.mem ∧ (s.perf p env).jobs = s.jobs := ⟨rfl, rfl⟩

theorem applyPages_spec (s : State) (x : OpRes) (h : x.kvPoison = []) : (s.applyPages x).mem = s.mem ∧ (s.applyPages x).jobs = s.jobs := by
  unfold State.applyPages State.credit State.onKvm
  rw [h]
  exact ⟨rfl, rfl⟩

end Sys2Proof.Machine
end

