-- ==== Sys2Proof/Laws/Commands.lean ====
section
/-! SUPPORT. What the common forms of a command do: a write to a page of firmware's, a descriptor that completes after other changes, a run of changes. -/

namespace Sys2Proof.Machine

/-! ### Firmware's pages (R428, R450, R457) -/

theorem fwCommand_spec (s : State) (r : Reg) (u v : Nat) (f : State → State) :
    (s.openTo r.block u = true → (∀ q, s.fwCommand (.realm q) r u v f = .next s)
      ∧ s.fwCommand .fw r u v f = .next (f s)
      ∧ ∃ t, s.fwCommand .mgmt r u v f = .next t ∧ t.boot.requests = s.boot.requests ++ [⟨r.block, r.off, u, v⟩]
        ∧ t.fld .GLB_STATE_REQ_PEND = satAt 255 (s.boot.requests.length + 1) % 256 ∧ s.sameBut t [.boot, .regs] ∧ s.regsBut t [Reg.GLB_STATE.key 0 0])
    ∧ (s.openTo r.block u = false → ∀ w, s.fwCommand w r u v f = .next s) := by
  unfold State.openTo State.fwCommand
  refine ⟨fun h => ?_, fun h w => ?_⟩
  · have h1 : (!s.pageUp r.block || s.blockGated r.block u) = false := by
      simp only [Bool.and_eq_true, Bool.not_eq_true'] at h; simp [h.1, h.2]
    simp only [h1, Bool.false_eq_true, if_false]
    refine ⟨fun q => trivial, trivial, s.request r u v, rfl, rfl, ?_, ?_, ?_⟩
    · simp only [State.request]
      rw [State.fld_setFld_self _ _ _ _ _ (by unfold Fld.fits; decide)]
      simp [State.onBoot]
    · intro p hp; cases p <;> first | rfl | (exact absurd (by simp) hp)
    · intro k hk; exact Tab.get_set_of_ne _ _ _ (by simpa using hk)
  · have h1 : (!s.pageUp r.block || s.blockGated r.block u) = true := by
      revert h; cases s.pageUp r.block <;> cases s.blockGated r.block u <;> simp
    simp [h1]

/-- Firmware's write to a page that answers acts at once. -/
theorem fw_open (s : State) (r : Reg) (u v : Nat) (f : State → State) (h : s.openTo r.block u = true) : s.fwCommand .fw r u v f = .next (f s) :=
  ((fwCommand_spec s r u v f).1 h).2.1

/-! ### Completions after other changes -/

theorem recordable_congr {s t : State} {r n : Nat} {d : Desc} (h : s.recordable r n d) (h1 : s.rings = t.rings) (h2 : s.flt = t.flt) : t.recordable r n d := by
  unfold State.recordable State.descUid State.ring at *
  rw [← h1, ← h2]; exact h

/-- The registers that a completion reads (R173, R178). -/
def completionRegs : List Reg := [.RING_SIZE, .RING_CQ_LO, .RING_CQ_HI]

theorem completed_of {s t u : State} {r n : Nat} {d : Desc} {st : Nat} (h1 : s.rings = t.rings) (h2 : ∀ g ∈ completionRegs, t.word g r n = s.word g r n)
    (h : t.completed u r n d st) : s.completed u r n d st := by
  have hr : t.ring r n = s.ring r n := by unfold State.ring; rw [h1]
  have hs := h2 .RING_SIZE (by decide)
  refine completed_congr s (t := t) (e := d) (d := d) rfl rfl (by rw [hr]) (by rw [hr]) ?_ ?_ ?_ h
  · simp only [State.cqSize, State.fld]
    exact congrArg (fun w => 2 ^ ringLog (Fld.of .RING_SIZE_CQ_LOG w)) hs
  · simp only [State.cqBase, State.fld]
    have hl := h2 .RING_CQ_LO (by decide)
    have hh := h2 .RING_CQ_HI (by decide)
    exact congrArg₂ (fun a b => Fld.of .RING_CQ_LO_BASE_LO a * 2 ^ 12 + Fld.of .RING_CQ_HI_BASE_HI b * 2 ^ 32) hl hh
  · unfold State.recBytes State.flag State.fld
    exact congrArg (fun w => if (Fld.of .RING_SIZE_CQ_REC w == 1) = true then 128 else 64) hs

/-- Records that are events change no register that a completion reads. -/
theorem eventStep_ringWords {s t : State} {r n : Nat} (h : EventStep s t) (hr : r < 4) (hn : n < 64) : ∀ g ∈ completionRegs, t.word g r n = s.word g r n := by
  intro g hg
  refine h.regs _ (fun q hq => ?_)
  simp only [completionRegs, List.mem_cons, List.not_mem_nil, or_false] at hg
  rcases hg with rfl | rfl | rfl <;> (simp only [Reg.key]; omega)

theorem setSts_ringWords (s : State) (g : Reg) (m : List Nat) (u : Nat) {r n : Nat} (hr : r < 4) (hn : n < 64) :
    ∀ x ∈ completionRegs, (s.setSts g m u).word x r n = s.word x r n := by
  intro x hx
  refine word_setSts s (fun q hq => ?_)
  simp only [completionRegs, List.mem_cons, List.not_mem_nil, or_false] at hx
  rcases hx with rfl | rfl | rfl <;> (simp only [Reg.key]; omega)

/-- A status event clears no status bit. -/
theorem stsBit_setSts_keep {s : State} {g r : Reg} {m : List Nat} {b u v : Nat} (h : s.stsBit g b u = true) : (s.setSts r m v).stsBit g b u = true := by
  by_cases hm : m = []
  · subst hm; exact h
  · refine (eventStep_setSts s r m v hm).sts g u b ?_
    unfold State.stsBit State.sqcOf State.setSqc at *
    by_cases hk : sqcKey g u = sqcKey r v
    · simp only [hk] at h ⊢
      rw [Tab.get_set_self]
      exact Sqc.event_keep _ _ _ h
    · simp only
      rw [Tab.get_set_of_ne _ _ _ hk]
      exact h

/-- A status bit stays set over a completion. -/
theorem stsBit_finish {s : State} {g : Reg} {b u : Nat} (r n uid : Nat) (x : Rec) (h : s.stsBit g b u = true) : (s.finish r n uid x).stsBit g b u = true := by
  unfold State.finish
  split
  · exact h
  · split
    · unfold State.complete
      split
      · exact h
      · extract_lets q size s0 t0 s1 s2 s3
        have h1 : s1.stsBit g b u = true := by
          simp only [s1]
          split
          · exact h
          · split
            · exact stsBit_emit _ (stsBit_setSts_keep (s := s.setRing r n _) h)
            · exact h
        have h3 : s3.stsBit g b u = true := by
          unfold State.stsBit State.sqcOf at h1 ⊢
          exact h1
        split
        · exact stsBit_emit _ h3
        · exact h3
    · exact h

/-- Changes that keep what a completion needs can stand before it. -/
theorem done_after {s t : State} {r n : Nat} {d : Desc} (st : Nat) (h : s.recordable r n d) (h1 : s.rings = t.rings) (h2 : s.flt = t.flt)
    (h3 : ∀ g ∈ completionRegs, t.word g r n = s.word g r n) : s.completed (t.done r n d.uid st) r n d st :=
  completed_of h1 h3 (done_spec t st (recordable_congr h h1 h2)).1

theorem finish_after {s t : State} {r n : Nat} {d : Desc} (x : Rec) (h : s.recordable r n d) (h1 : s.rings = t.rings) (h2 : s.flt = t.flt)
    (h3 : ∀ g ∈ completionRegs, t.word g r n = s.word g r n) : s.completed (t.finish r n d.uid x) r n d x.status :=
  completed_of h1 h3 (finish_spec t x (recordable_congr h h1 h2)).1

/-! ### Parts that events leave alone -/

theorem srv_setSts (s : State) (g : Reg) (m : List Nat) (u : Nat) : (s.setSts g m u).srv = s.srv := (sameBut_setSts s g m u .srv (by decide)).symm
theorem srv_emit (s : State) (a b c d e : Nat) : (s.emit a b c d e).srv = s.srv := ((eventStep_emit s a b c d e).sameBut .srv (by decide)).symm
theorem srv_done (s : State) (r n u st : Nat) : (s.done r n u st).srv = s.srv := (sameBut_done s r n u st .srv (by decide)).symm
theorem kvm_setSts (s : State) (g : Reg) (m : List Nat) (u : Nat) : (s.setSts g m u).kvm = s.kvm := (sameBut_setSts s g m u .kvm (by decide)).symm
theorem det_setSts (s : State) (g : Reg) (m : List Nat) (u : Nat) : (s.setSts g m u).det = s.det := (sameBut_setSts s g m u .det (by decide)).symm

/-- Events leave a part that is none of theirs, and so does what follows them. -/
theorem sameBut_sts {s : State} (g : Reg) (m : List Nat) (u : Nat) (ps : List Part) (h : eventParts ⊆ ps) : s.sameBut (s.setSts g m u) ps :=
  fun p hp => sameBut_setSts s g m u p (fun hq => hp (h hq))
theorem sameBut_emit {s : State} (a b c d e : Nat) (ps : List Part) (h : eventParts ⊆ ps) : s.sameBut (s.emit a b c d e) ps :=
  sameBut_mono (eventStep_emit s a b c d e).sameBut h

/-- A run of changes, each of which leaves all but some parts the same. -/
theorem sameBut_foldl {α : Type} {ps : List Part} (f : State → α → State) (h : ∀ (t : State) (x : α), t.sameBut (f t x) ps) (l : List α) (s : State) : s.sameBut (l.foldl f s) ps := by
  induction l generalizing s with
  | nil => exact sameBut_refl s _
  | cons x l ih => exact sameBut_trans (h s x) (ih _)

end Sys2Proof.Machine
end

