-- ==== Sys2Proof/Laws/Reports.lean ====
section
/-! SUPPORT. The registers and status bits over the report of an error (R358-R365, R374): it changes registers of the blocks GLB, STV, RING and FLT alone, and
clears no status bit. -/

namespace Sys2Proof.Machine

/-- The block of a register's key. -/
def keyBlock (k : Nat) : Nat := k / 2 ^ 26

/-- Registers of the other blocks read as before, and the status bits that were set still are. -/
structure ReportRegs (s t : State) : Prop where
  regs : ∀ k, keyBlock k ∉ [0, 3, 4, 12] → Tab.get regDefault t.regs k = Tab.get regDefault s.regs k
  sts : ∀ g u b, s.stsBit g b u = true → t.stsBit g b u = true

theorem ReportRegs.refl (s : State) : ReportRegs s s := ⟨fun _ _ => rfl, fun _ _ _ h => h⟩
theorem ReportRegs.trans {s t u : State} (h : ReportRegs s t) (g : ReportRegs t u) : ReportRegs s u :=
  ⟨fun k hk => (g.regs k hk).trans (h.regs k hk), fun x y z hz => g.sts x y z (h.sts x y z hz)⟩

/-- A change that touches neither registers nor status bits. -/
theorem ReportRegs.of {s t : State} (h1 : t.regs = s.regs) (h2 : t.sqc = s.sqc) : ReportRegs s t :=
  ⟨fun k _ => by rw [h1], fun g u b h => by unfold State.stsBit State.sqcOf at *; rw [h2]; exact h⟩

theorem ReportRegs.word {s t : State} (h : ReportRegs s t) (g : Reg) (u sel : Nat) (hb : g.block ∉ [0, 3, 4, 12]) (hu : u < 1024) (hs : sel < 1024) (ho : g.off < 256) :
    t.word g u sel = s.word g u sel := by
  refine h.regs _ ?_
  have : keyBlock (g.key u sel) = g.block := by
    simp only [keyBlock, Reg.key]; omega
  rw [this]; exact hb

theorem ReportRegs.fld {s t : State} (h : ReportRegs s t) (f : Fld) (u sel : Nat) (hb : f.reg.block ∉ [0, 3, 4, 12]) (hu : u < 1024) (hs : sel < 1024) (ho : f.reg.off < 256) :
    t.fld f u sel = s.fld f u sel := by unfold State.fld; rw [h.word _ u sel hb hu hs ho]

variable (s : State)

theorem eqDrop_block : ∀ r < 4, keyBlock (Reg.RING_EQ_DROP.key r 0) = 4 := by decide

theorem reportRegs_event {s t : State} (h : EventStep s t) : ReportRegs s t :=
  ⟨fun k hk => h.regs k (fun r hr hkr => hk (by rw [hkr, eqDrop_block r hr]; decide)), h.sts⟩

theorem reportRegs_emit (a b c d e : Nat) : ReportRegs s (s.emit a b c d e) := reportRegs_event (eventStep_emit s a b c d e)

theorem reportRegs_setSts (g : Reg) (m : List Nat) (u : Nat) : ReportRegs s (s.setSts g m u) := by
  by_cases hm : m = []
  · subst hm; exact ReportRegs.refl s
  · exact ⟨fun k hk => (eventStep_setSts s g m u hm).regs k (fun r hr hkr => hk (by rw [hkr, eqDrop_block r hr]; decide)),
      fun _ _ _ h => stsBit_setSts_keep h⟩

theorem reportRegs_setFld (f : Fld) (v : Nat) (h : keyBlock (f.reg.key 0 0) ∈ [0, 3, 4, 12]) : ReportRegs s (s.setFld f v) :=
  ⟨fun k hk => Tab.get_set_of_ne _ _ _ (fun hkk => hk (by rw [hkk]; exact h)), fun _ _ _ h => h⟩

theorem reportRegs_onFlt (f : Flt → Flt) : ReportRegs s (s.onFlt f) := .of rfl rfl
theorem reportRegs_onStave (f : Stave → Stave) : ReportRegs s (s.onStave f) := .of rfl rfl

theorem reportRegs_foldl {α : Type} (f : State → α → State) (hf : ∀ (t : State) (x : α), ReportRegs t (f t x)) (l : List α) (s : State) : ReportRegs s (l.foldl f s) := by
  induction l generalizing s with
  | nil => exact ReportRegs.refl s
  | cons x l ih => exact (hf s x).trans (ih _)

theorem reportRegs_emitTo (l : List Nat) (a b c e : Nat) : ReportRegs s (s.emitTo l a b c e) :=
  reportRegs_foldl _ (fun t _ => reportRegs_emit t _ _ _ _ _) _ _

theorem reportRegs_fltShow : ReportRegs s s.fltShow := by
  unfold State.fltShow
  exact (reportRegs_setFld _ _ _ (by decide)).trans ((reportRegs_setFld _ _ _ (by decide)).trans ((reportRegs_setFld _ _ _ (by decide)).trans ((reportRegs_setFld _ _ _ (by decide)).trans
    ((reportRegs_setFld _ _ _ (by decide)).trans ((reportRegs_setFld _ _ _ (by decide)).trans (reportRegs_setFld _ _ _ (by decide)))))))

theorem reportRegs_modAlert : ReportRegs s s.modAlert := by
  unfold State.modAlert
  simp only
  split
  · exact ReportRegs.refl s
  · exact .of rfl rfl

theorem reportRegs_evalState : ReportRegs s s.evalState := by
  unfold State.evalState
  have h : ReportRegs s s.latchNow := by unfold State.latchNow; exact reportRegs_onFlt _ _
  refine h.trans ?_
  simp only
  split
  · exact (reportRegs_fltShow _).trans (reportRegs_modAlert _)
  · refine ReportRegs.trans ?_ (reportRegs_setSts _ _ _ _)
    refine ReportRegs.trans ?_ (reportRegs_foldl _ (fun t _ => reportRegs_emit t _ _ _ _ _) _ _)
    exact (reportRegs_onFlt _ _).trans ((reportRegs_fltShow _).trans (reportRegs_modAlert _))

theorem reportRegs_freeze (k : Nat) : ReportRegs s (s.freeze k) := by
  unfold State.freeze
  split
  · exact (reportRegs_onFlt _ _).trans (reportRegs_setFld _ _ _ (by decide))
  · exact (reportRegs_setSts _ _ _ _).trans (reportRegs_emit _ _ _ _ _ _)

theorem reportRegs_stvSend (a b c : Nat) (l : List Nat) : ReportRegs s (s.stvSend a b c l) := by
  unfold State.stvSend
  split
  · exact reportRegs_setSts _ _ _ _
  · exact reportRegs_onStave _ _

theorem reportRegs_fatal : ReportRegs s s.fatal := by
  unfold State.fatal
  split
  · exact ReportRegs.refl s
  · refine (reportRegs_onFlt s (fun f => { f with failed := true })).trans ?_
    simp only
    generalize s.onFlt (fun f => { f with failed := true }) = t
    have h1 : ReportRegs t (if t.flag .GLB_STATE_READY then t else t.setFld .GLB_STATE_STAGE 6) := by
      split
      · exact ReportRegs.refl t
      · exact reportRegs_setFld _ _ _ (by decide)
    refine h1.trans ?_
    generalize (if t.flag .GLB_STATE_READY then t else t.setFld .GLB_STATE_STAGE 6) = u
    have h2 : ReportRegs u u.stvState := reportRegs_stvSend _ _ _ _ _
    refine h2.trans ?_
    split
    · exact reportRegs_freeze _ _
    · exact ReportRegs.refl _

theorem reportRegs_setUnit (k : Nat) (u : UnitRec) : ReportRegs s (s.setUnit k u) := reportRegs_onFlt _ _

theorem reportRegs_report (sev cause kind index scope : Nat) (realms : List Nat) (detail : Nat) (esc ret : Bool) (from_ : Option Nat) :
    ReportRegs s (s.report sev cause kind index scope realms detail esc ret from_) := by
  unfold State.report
  extract_lets src s1 s2 s3 own k x1 x2 x3 x4 x5 x6 x7 x8 x9 s4
  refine ReportRegs.trans ?_ (reportRegs_evalState s4)
  have h1 : ReportRegs s s1 := reportRegs_emitTo _ _ _ _ _ _
  have h2 : ReportRegs s s2 := h1.trans (reportRegs_setSts _ _ _ _)
  have h3 : ReportRegs s s3 := by
    refine h2.trans ?_
    simp only [s3]
    split
    · exact reportRegs_setFld _ _ _ (by decide)
    · split
      · exact reportRegs_setFld _ _ _ (by decide)
      · exact ReportRegs.refl _
  have h4 : ReportRegs s x7 := by
    refine h3.trans ?_
    simp only [x7]
    split
    · exact ReportRegs.refl _
    · split
      · exact (reportRegs_setUnit _ _ _).trans (reportRegs_setUnit _ _ _)
      · split
        · exact (reportRegs_setUnit _ _ _).trans (reportRegs_setUnit _ _ _)
        · exact ReportRegs.refl _
  have h5 : ReportRegs s x9 := by
    refine h4.trans ?_
    simp only [x9]
    split
    · exact .of rfl rfl
    · exact ReportRegs.refl _
  refine h5.trans ?_
  simp only [s4]
  split
  · exact reportRegs_fatal _
  · exact ReportRegs.refl _

theorem reportRegs_reportMod (sev cause : Nat) (realms : List Nat) (detail : Nat) (from_ : Option Nat) : ReportRegs s (s.reportMod sev cause realms detail from_) := by
  unfold State.reportMod
  exact (reportRegs_report s _ _ _ _ _ _ _ _ _ _).trans (reportRegs_onFlt _ _)

theorem reportRegs_contain (cause kind index base detail : Nat) (ex : Bool) : ReportRegs s (s.contain cause kind index base detail ex) := by
  unfold State.contain
  extract_lets c scope realms logical t s1 s2
  have h1 : ReportRegs s s1 := by
    simp only [s1]
    split
    · exact .of rfl rfl
    · exact ReportRegs.refl s
  exact h1.trans ((reportRegs_report s1 _ _ _ _ _ _ _ _ _ _).trans (reportRegs_onFlt s2 _))

end Sys2Proof.Machine
end

