-- ==== Sys2Proof/Laws/Halves.lean ====
section
/-! SUPPORT. What a half's change of state can do (R283, R293): its own state field and HOLDER and SIMPLEX change in CTL_STATE, and no other register of the lane. -/

namespace Sys2Proof.Machine

/-- The field lies apart from HOLDER and SIMPLEX. -/
def Fld.apart (f : Fld) : Prop := f.reg = .CTL_STATE ∧ f.fits ∧ (f.lo + f.width ≤ 8 ∨ 9 ≤ f.lo) ∧ (f.lo + f.width ≤ 10 ∨ 11 ≤ f.lo)

/-- The lane's status bits follow its halves: nothing of the lane but HOLDER, SIMPLEX and the mark of a pair changes, and an error may be reported. -/
structure LaneShown (s t : State) : Prop where
  flds : ∀ f : Fld, f.apart → t.fld f = s.fld f
  regs : ∀ k, keyBlock k ∉ [0, 3, 4, 12] → k ≠ Reg.CTL_STATE.key 0 0 → Tab.get regDefault t.regs k = Tab.get regDefault s.regs k
  sts : ∀ g u b, s.stsBit g b u = true → t.stsBit g b u = true
  parts : s.sameBut t (.lane :: reportParts)
  stores : s.storesKept t
  lane : ∃ p, t.lane = { s.lane with paired := p }

theorem LaneShown.trans {s t u : State} (h : LaneShown s t) (g : LaneShown t u) : LaneShown s u where
  flds := fun f hf => (g.flds f hf).trans (h.flds f hf)
  regs := fun k h1 h2 => (g.regs k h1 h2).trans (h.regs k h1 h2)
  sts := fun x y z hz => g.sts x y z (h.sts x y z hz)
  parts := sameBut_trans h.parts g.parts
  stores := storesKept_trans h.stores g.stores
  lane := by
    obtain ⟨p, hp⟩ := h.lane
    obtain ⟨q, hq⟩ := g.lane
    exact ⟨q, by rw [hq, hp]⟩

theorem LaneShown.refl (s : State) : LaneShown s s := ⟨fun _ _ => rfl, fun _ _ _ => rfl, fun _ _ _ h => h, sameBut_refl s _, fun _ _ => rfl, s.lane.paired, rfl⟩

theorem laneShown_report {s t : State} (h : ReportRegs s t) (g : ReportStep s t) : LaneShown s t where
  flds := fun f hf => by
    have hk := h.regs (Reg.CTL_STATE.key 0 0) (by decide)
    unfold State.fld State.word; rw [hf.1]; exact congrArg _ hk
  regs := fun k h1 _ => h.regs k h1
  sts := h.sts
  parts := sameBut_mono g.1 (by simp)
  stores := g.2
  lane := ⟨s.lane.paired, (g.1 .lane (by decide)).symm⟩

theorem laneShown_setFld (s : State) (f : Fld) (v : Nat) (h : f = .CTL_STATE_HOLDER ∨ f = .CTL_STATE_SIMPLEX) : LaneShown s (s.setFld f v) where
  flds := fun g hg => by
    obtain ⟨h1, h2, h3, h4⟩ := hg
    rcases h with rfl | rfl
    · exact State.fld_setFld_of_disjoint _ _ _ _ h1 h2 (by simp only; omega)
    · exact State.fld_setFld_of_disjoint _ _ _ _ h1 h2 (by simp only; omega)
  regs := fun k _ hk => Tab.get_set_of_ne _ _ _ (by rcases h with rfl | rfl <;> exact hk)
  sts := fun _ _ _ h => h
  parts := fun p hp => by cases p <;> first | rfl | (exact absurd (by simp [reportParts, eventParts]) hp)
  stores := fun _ _ => rfl
  lane := ⟨s.lane.paired, rfl⟩

theorem laneShown_paired (s : State) (p : Bool) : LaneShown s (s.onLane (fun l => { l with paired := p })) :=
  ⟨fun _ _ => rfl, fun _ _ _ => rfl, fun _ _ _ h => h, fun p hp => by cases p <;> first | rfl | (exact absurd (by simp) hp), fun _ _ => rfl, p, rfl⟩

theorem laneShown_emit (s : State) (a b c d e : Nat) : LaneShown s (s.emit a b c d e) :=
  laneShown_report (reportRegs_emit s a b c d e) (reportStep_emit s a b c d e)

theorem laneShown_laneShow (s : State) : LaneShown s s.laneShow := by
  unfold State.laneShow
  extract_lets act two s1 now had s2 h s3 s4
  clear_value act h
  have h1 : LaneShown s s1 := by
    simp only [s1]; split
    · exact laneShown_setFld _ _ _ (.inl rfl)
    · exact .refl s
  have h2 : LaneShown s1 s2 := by
    simp only [s2]; split
    · exact laneShown_paired _ _
    · split
      · exact laneShown_paired _ _
      · exact .refl s1
  have h3 : LaneShown s2 s3 := by
    simp only [s3]; split
    · exact laneShown_emit _ _ _ _ _ _
    · exact .refl s2
  have h4 : LaneShown s3 s4 := laneShown_setFld s3 .CTL_STATE_SIMPLEX _ (.inr rfl)
  refine h1.trans (h2.trans (h3.trans (h4.trans ?_)))
  split
  · exact laneShown_report (reportRegs_report s4 _ _ _ _ _ _ _ _ _ _) (reportStep_report s4 _ _ _ _ _ _ _ _ _ _)
  · exact laneShown_report (reportRegs_evalState s4) (reportStep_evalState s4)

/-- The state fields of the two halves. -/
theorem apart_stateFld (h : Nat) : (stateFld h).apart := by
  unfold stateFld; split <;> exact ⟨rfl, by unfold Fld.fits; decide, by decide, by decide⟩

/-- A half enters a state (R283): its field holds the state, the other half's stays, and everything else is what `laneShow` does. -/
theorem enterHalf_spec (s : State) (h st : Nat) (hst : st < 16) : (s.enterHalf h st).halfSt h = st
    ∧ (∀ f : Fld, f.apart → (f.lo + f.width ≤ (stateFld h).lo ∨ (stateFld h).lo + (stateFld h).width ≤ f.lo) → (s.enterHalf h st).fld f = s.fld f)
    ∧ (∀ k, keyBlock k ∉ [0, 3, 4, 12] → k ≠ Reg.CTL_STATE.key 0 0 → Tab.get regDefault (s.enterHalf h st).regs k = Tab.get regDefault s.regs k)
    ∧ (∀ g u b, s.stsBit g b u = true → (s.enterHalf h st).stsBit g b u = true)
    ∧ s.sameBut (s.enterHalf h st) (.lane :: reportParts) ∧ s.storesKept (s.enterHalf h st) ∧ ∃ p, (s.enterHalf h st).lane = { s.lane with paired := p } := by
  unfold State.enterHalf
  simp only
  split
  · rename_i he
    exact ⟨he, fun _ _ _ => rfl, fun _ _ _ => rfl, fun _ _ _ h => h, sameBut_refl s _, fun _ _ => rfl, s.lane.paired, rfl⟩
  · have hreg : (stateFld h).reg = .CTL_STATE := (apart_stateFld h).1
    have hw : (stateFld h).width = 4 := by unfold stateFld; split <;> rfl
    let u := s.setFld (stateFld h) st
    let v := if (roleState (s.halfSt h) || roleState st) = true then u.bumpEpoch (roleHalf h) else u
    have hv : v.regs = u.regs ∧ v.sqc = u.sqc ∧ v.lane = u.lane ∧ u.sameBut v reportParts ∧ u.storesKept v := by
      simp only [v]; split
      · exact ⟨rfl, rfl, rfl, (reportStep_onFlt _ _).1, fun _ _ => rfl⟩
      · exact ⟨rfl, rfl, rfl, sameBut_refl _ _, fun _ _ => rfl⟩
    have hl : LaneShown v ((v.laneEvent 3 (st + h * 2 ^ 16)).laneShow) := (laneShown_emit v _ _ _ _ _).trans (laneShown_laneShow _)
    have hvf : ∀ f : Fld, f.apart → ((v.laneEvent 3 (st + h * 2 ^ 16)).laneShow).fld f = u.fld f := fun f hf => by
      rw [hl.flds f hf]; unfold State.fld State.word; rw [hv.1]
    refine ⟨?_, fun f hf hd => ?_, fun k h1 h2 => ?_, fun g x b hb => ?_, ?_, ?_, ?_⟩
    · refine (hvf _ (apart_stateFld h)).trans ?_
      rw [State.fld_setFld_self _ _ _ _ _ (apart_stateFld h).2.1, hw]; exact Nat.mod_eq_of_lt hst
    · refine (hvf f hf).trans ?_
      exact State.fld_setFld_of_disjoint _ _ _ _ (hf.1.trans hreg.symm) hf.2.1 hd
    · refine (hl.regs k h1 h2).trans ?_
      rw [hv.1]
      exact Tab.get_set_of_ne _ _ _ (by rw [hreg]; exact h2)
    · refine hl.sts g x b ?_
      unfold State.stsBit State.sqcOf at *; rw [hv.2.1]; exact hb
    · refine sameBut_trans (u := u) ?_ (sameBut_trans (sameBut_mono hv.2.2.2.1 (by simp)) hl.parts)
      intro p hp; cases p <;> first | rfl | (exact absurd (by simp [reportParts, eventParts]) hp)
    · exact storesKept_trans (t := u) (fun _ _ => rfl) (storesKept_trans hv.2.2.2.2 hl.stores)
    · obtain ⟨p, hp⟩ := hl.lane
      exact ⟨p, by rw [hp, hv.2.2.1]; rfl⟩

/-! ### The two halves -/

theorem half_setHalf (s : State) (h : Nat) (x : Half) : (s.setHalf h x).half h = x := by
  unfold State.half State.setHalf State.onLane; simp only; split <;> rfl

theorem half_setHalf_other (s : State) (h : Nat) (x : Half) (hh : h ≤ 1) : (s.setHalf h x).half (otherHalf h) = s.half (otherHalf h) := by
  unfold State.half State.setHalf State.onLane otherHalf
  rcases Nat.le_one_iff_eq_zero_or_eq_one.1 hh with rfl | rfl <;> rfl

theorem half_congr {s t : State} (h : Nat) (p : Bool) (ht : t.lane = { s.lane with paired := p }) : t.half h = s.half h := by
  unfold State.half; rw [ht]

theorem other_apart (h : Nat) (hh : h ≤ 1) : (stateFld (otherHalf h)).lo + (stateFld (otherHalf h)).width ≤ (stateFld h).lo
    ∨ (stateFld h).lo + (stateFld h).width ≤ (stateFld (otherHalf h)).lo := by
  rcases Nat.le_one_iff_eq_zero_or_eq_one.1 hh with rfl | rfl <;> decide

theorem enterHalf_other (s : State) (h st : Nat) (hh : h ≤ 1) (hst : st < 16) : (s.enterHalf h st).halfSt (otherHalf h) = s.halfSt (otherHalf h) :=
  (enterHalf_spec s h st hst).2.1 _ (apart_stateFld _) (other_apart h hh)

theorem sameBut_enterHalf (s : State) (h st : Nat) (hst : st < 16) : s.sameBut (s.enterHalf h st) (.lane :: reportParts) := (enterHalf_spec s h st hst).2.2.2.2.1

theorem sameBut_lane (s : State) (f : Lane → Lane) (ps : List Part) (h : Part.lane ∈ ps) : s.sameBut (s.onLane f) ps := by
  intro p hp; cases p <;> first | rfl | (exact absurd h hp)

/-- A half goes to OFF (R283): its claim is 0 and it holds no copy. -/
theorem halfToOff_spec (s : State) (h : Nat) (hh : h ≤ 1) : (s.halfToOff h).halfSt h = halfOff ∧ (s.halfToOff h).halfSt (otherHalf h) = s.halfSt (otherHalf h)
    ∧ (s.halfToOff h).fld (claimFld h) = 0 ∧ (s.halfToOff h).half h = { nextPlace := (s.half h).nextPlace } ∧ s.sameBut (s.halfToOff h) (.lane :: reportParts)
    ∧ ∀ k, keyBlock k ∉ [0, 3, 4, 12] → k ≠ Reg.CTL_STATE.key 0 0 → k ≠ Reg.CTL_CLAIM.key 0 0 → Tab.get regDefault (s.halfToOff h).regs k = Tab.get regDefault s.regs k := by
  unfold State.halfToOff
  let u := (s.announce h 0).setHalf h { fresh := false, nextPlace := (s.half h).nextPlace }
  have hsp := enterHalf_spec u h halfOff (by decide)
  obtain ⟨p, hp⟩ := hsp.2.2.2.2.2.2
  have hreg : (claimFld h).reg = .CTL_CLAIM := by unfold claimFld; split <;> rfl
  have hann : s.announce h 0 = (s.setFld (claimFld h) 0).setHalf h { (s.setFld (claimFld h) 0).half h with accepted := 0 } := by unfold State.announce; simp only [if_true]
  have hreg' : u.regs = (s.setFld (claimFld h) 0).regs := by simp only [u, hann]; rfl
  have hus : ∀ k, u.halfSt k = s.halfSt k := fun k => by
    have hw : (s.setFld (claimFld h) 0).fld (stateFld k) = s.fld (stateFld k) := State.fld_setFld_of_ne s 0 0 0 (by rw [hreg, (apart_stateFld k).1]; decide)
    unfold State.halfSt
    rw [← hw]
    unfold State.fld State.word; rw [hreg']
  refine ⟨hsp.1, (enterHalf_other u h _ hh (by decide)).trans (hus _), ?_, (half_congr h p hp).trans (half_setHalf _ _ _), ?_, fun k h1 h2 h3 => ?_⟩
  · have hc : u.fld (claimFld h) = 0 := by
      have := State.fld_setFld_self s (claimFld h) 0 0 0 (by unfold claimFld Fld.fits; split <;> decide)
      rw [Nat.zero_mod] at this
      refine Eq.trans ?_ this
      unfold State.fld State.word; rw [hreg']
    refine Eq.trans ?_ hc
    unfold State.fld State.word
    rw [hsp.2.2.1 _ (by rw [hreg]; decide) (by rw [hreg]; decide)]
  · refine sameBut_trans (u := u) ?_ hsp.2.2.2.2.1
    simp only [u, hann]
    intro q hq; cases q <;> first | rfl | (exact absurd (by simp [reportParts, eventParts]) hq)
  · rw [hsp.2.2.1 k h1 h2, hreg']
    exact Tab.get_set_of_ne _ _ _ (by rw [hreg]; exact h3)

/-- Nothing is held by a lane that is off: what it held is cleared and returned (R392). -/
theorem laneHold_off (s : State) (he : s.flag .CTL_CTRL_LANE_EN = false) :
    s.laneHold.laneTiles = [] ∧ s.laneHold.laneParts = [] ∧ s.laneHold.regs = s.regs ∧ s.sameBut s.laneHold [.mem, .laneTiles, .laneParts] := by
  let t1 := s.laneTiles.foldl (fun s t => s.clearTile (s.physTile t)) s
  let t2 := t1.laneParts.foldl State.clearPart t1
  have h1 : s.sameBut t1 [.mem] := sameBut_foldl _ (fun t x => fun p hp => by cases p <;> first | rfl | (exact absurd (by simp) hp)) _ _
  have h2 : t1.sameBut t2 [.mem] := sameBut_foldl _ (fun t x => fun p hp => by cases p <;> first | rfl | (exact absurd (by simp) hp)) _ _
  have h3 := sameBut_trans h1 h2
  have e : s.laneHold = { t2 with laneTiles := [], laneParts := [] } := by
    have hf1 : s.laneTiles.filter (fun t => !([] : List Nat).contains t) = s.laneTiles := List.filter_eq_self.2 (by simp)
    have hf2 : t1.laneParts.filter (fun x => !([] : List (Nat × Nat)).contains x) = t1.laneParts := List.filter_eq_self.2 (by simp)
    unfold State.laneHold
    simp only [he, Bool.false_eq_true, if_false, List.filter_nil, List.filterMap_nil, List.eraseDups_nil, List.foldl_nil, List.isEmpty_nil, if_true, List.nil_append, hf1]
    rw [hf2]
  clear_value t1 t2
  rw [e]
  refine ⟨rfl, rfl, (h3 .regs (by decide)).symm, sameBut_trans (u := t2) (sameBut_mono h3 (by simp)) ?_⟩
  intro p hp; cases p <;> first | rfl | (exact absurd (by simp) hp)

end Sys2Proof.Machine
end

