-- ==== Sys2Proof/Laws/Fields.lean ====
section
/-! SUPPORT. Fields after the writes and counts of R455 and R458: what a write leaves, what a count leaves, and that a setting event, an event record or a
report leaves them. -/

namespace Sys2Proof.Machine

variable {s : State}

theorem fld_setFld_lt (s : State) (f : Fld) (v u sel : Nat) (h : f.fits) (hv : v < 2 ^ f.width) : (s.setFld f v u sel).fld f u sel = v :=
  (State.fld_setFld_self s f v u sel h).trans (Nat.mod_eq_of_lt hv)

/-- A counter of R458 goes up and stops at its largest value. -/
theorem fld_bumpSat_self (s : State) (f : Fld) (n u sel : Nat) (h : f.fits) : (s.bumpSat f n u sel).fld f u sel = min (2 ^ f.width - 1) (s.fld f u sel + n) := by
  unfold State.bumpSat satAt
  have : 0 < 2 ^ f.width := Nat.two_pow_pos _
  exact fld_setFld_lt s f _ u sel h (by omega)

theorem sameBut_setFld (s : State) (f : Fld) (v u sel : Nat) (ps : List Part) (h : Part.regs ∈ ps) : s.sameBut (s.setFld f v u sel) ps := by
  intro p hp; cases p <;> first | rfl | (exact absurd h hp)
theorem sameBut_setWord (s : State) (r : Reg) (v : Word) (u sel : Nat) (ps : List Part) (h : Part.regs ∈ ps) : s.sameBut (s.setWord r u sel v) ps := by
  intro p hp; cases p <;> first | rfl | (exact absurd h hp)
theorem sameBut_queue (s : State) (q : Nat) (x : IQueue) (ps : List Part) (h : Part.queues ∈ ps) : s.sameBut (s.setQueue q x) ps := by
  intro p hp; cases p <;> first | rfl | (exact absurd h hp)
theorem sameBut_gauge (s : State) (g : Nat) (ps : List Part) (h : Part.gauge ∈ ps) : s.sameBut { s with gauge := g } ps := by
  intro p hp; cases p <;> first | rfl | (exact absurd h hp)

theorem sameBut_store (s : State) (a : Nat) (bs : List Nat) (ps : List Part) (h : Part.mem ∈ ps) : s.sameBut (s.store a bs) ps := by
  intro p hp; cases p <;> first | rfl | (exact absurd h hp)
theorem sameBut_keys (s : State) (k : Tab KeySlot) (ps : List Part) (h : Part.keys ∈ ps) : s.sameBut { s with keys := k } ps := by
  intro p hp; cases p <;> first | rfl | (exact absurd h hp)
theorem sameBut_realm (s : State) (r : Nat) (x : Realm) (ps : List Part) (h : Part.realms ∈ ps) : s.sameBut (s.setRealm r x) ps := by
  intro p hp; cases p <;> first | rfl | (exact absurd h hp)
theorem sameBut_sec (s : State) (f : Sec → Sec) (ps : List Part) (h : Part.sec ∈ ps) : s.sameBut (s.onSec f) ps := by
  intro p hp; cases p <;> first | rfl | (exact absurd h hp)
theorem sameBut_free (s : State) (n : Nat) (ps : List Part) (h : Part.free ∈ ps) : s.sameBut { s with free := n } ps := by
  intro p hp; cases p <;> first | rfl | (exact absurd h hp)

theorem regsBut_setFld (s : State) (f : Fld) (v u sel : Nat) (ks : List Nat) (h : f.reg.key u sel ∈ ks) : s.regsBut (s.setFld f v u sel) ks :=
  fun k hk => Tab.get_set_of_ne _ _ _ (fun he => hk (he ▸ h))

theorem regsBut_refl (s : State) (ks : List Nat) : s.regsBut s ks := fun _ _ => rfl
theorem regsBut_trans {s t u : State} {ks : List Nat} (h : s.regsBut t ks) (g : t.regsBut u ks) : s.regsBut u ks := fun k hk => (g k hk).trans (h k hk)

end Sys2Proof.Machine
end

