-- ==== Sys2Proof/Laws/Handling.lean ====
section
/-! SUPPORT. What the end of an operator and the report of an error leave alone of the fault block (R187, R358-R376). -/

namespace Sys2Proof.Machine

variable (s : State)

/-- The parts that the end of an operator touches (R187, R202). -/
def opEndParts : List Part := .jobs :: .tiles :: .clusters :: .kvm :: .det :: recordParts

theorem sameBut_vacates (l : List Nat) (s : State) : s.sameBut (l.foldl (fun s p => s.vacate p) s) opEndParts :=
  sameBut_foldl _ (fun t p => by unfold State.vacate; intro q hq; cases q <;> first | rfl | (exact absurd (by simp [opEndParts]) hq)) l s

theorem sameBut_jobEpoch (j : Job) : s.sameBut (s.jobEpoch j) opEndParts := by
  unfold State.jobEpoch
  split
  · unfold State.epochRise
    split
    · simp only
      split
      · intro q hq; cases q <;> first | rfl | (exact absurd (by simp [opEndParts]) hq)
      · refine sameBut_trans (u := s.onKvm (fun k => { k with cur := (k.cur + 1) % 65536 })) ?_ (sameBut_sts _ _ _ _ (fun x hx => by simp [opEndParts, recordParts, hx]))
        intro q hq; cases q <;> first | rfl | (exact absurd (by simp [opEndParts]) hq)
    · exact sameBut_refl s _
  · exact sameBut_refl s _

theorem sameBut_jobOver (u : Nat) : s.sameBut (s.jobOver u) opEndParts := by
  unfold State.jobOver
  split
  · exact sameBut_refl s _
  · rename_i j _
    split
    · exact sameBut_refl s _
    · simp only
      have h := sameBut_jobEpoch s j
      generalize s.jobEpoch j = t at *
      refine sameBut_trans h ?_
      have hd : t.sameBut (t.dropJob u) opEndParts := by
        intro q hq; cases q <;> first | rfl | (exact absurd (by simp [opEndParts]) hq)
      split
      · exact hd
      · split
        · intro q hq; cases q <;> first | rfl | (exact absurd (by simp [opEndParts]) hq)
        · exact sameBut_trans hd (sameBut_mono (sameBut_finish _ _ _ _ _) (fun x hx => by simp [opEndParts, hx]))

theorem sameBut_epochDrop (e : Nat) : s.sameBut (s.epochDrop e) opEndParts := by
  intro q hq; cases q <;> first | rfl | (exact absurd (by simp [opEndParts]) hq)
theorem sameBut_clusters (c : Tab Cluster) : s.sameBut { s with clusters := c } opEndParts := by
  intro q hq; cases q <;> first | rfl | (exact absurd (by simp [opEndParts]) hq)
theorem sameBut_setJob (u : Nat) (j : Job) : s.sameBut (s.setJob u j) opEndParts := by
  intro q hq; cases q <;> first | rfl | (exact absurd (by simp [opEndParts]) hq)
theorem sameBut_forgotten (k : OpKey) (u : Nat) (j : Job) : s.sameBut ((s.forgetOp k).setJob u j) opEndParts := by
  refine sameBut_trans (u := s.forgetOp k) ?_ (sameBut_setJob _ _ _)
  unfold State.forgetOp
  exact sameBut_clusters _ _

/-- The end of an operator touches its JOB, its tiles and clusters, the epochs of its pages and a record's parts alone. -/
theorem sameBut_opEnd (k : OpKey) (st : Nat) (cs : List Nat) : s.sameBut (s.opEnd k st cs) opEndParts := by
  unfold State.opEnd
  split
  · exact sameBut_refl s _
  · extract_lets o s1 s2 s3 j1 j2
    have h1 : s.sameBut s1 opEndParts := sameBut_vacates _ _
    clear_value s1
    have h2 : s1.sameBut s2 opEndParts := by
      simp only [s2]
      split
      · exact sameBut_epochDrop _ _
      · exact sameBut_refl s1 _
    clear_value s2
    have h3 : s2.sameBut (s3.setJob k.desc j2) opEndParts := sameBut_forgotten _ _ _ _
    exact sameBut_trans h1 (sameBut_trans h2 (sameBut_trans h3 (sameBut_jobOver _ _)))

theorem sameBut_endTile (p : Nat) : s.sameBut (s.endTile p) opEndParts := by
  unfold State.endTile
  split
  · exact sameBut_opEnd s _ _ _
  · exact sameBut_refl s _

/-! ### The fault block over an event and over the module's state -/

theorem flt_setSts (g : Reg) (m : List Nat) (u : Nat) : (s.setSts g m u).flt = s.flt := (sameBut_setSts s g m u .flt (by decide)).symm
theorem flt_emit (a b c d e : Nat) : (s.emit a b c d e).flt = s.flt := ((eventStep_emit s a b c d e).sameBut .flt (by decide)).symm
theorem flt_emits (l : List Nat) (a c d p : Nat) (s : State) : (l.foldl (fun s r => s.emit a c d r p) s).flt = s.flt := by
  induction l generalizing s with
  | nil => rfl
  | cons x l ih => exact (ih _).trans (flt_emit _ _ _ _ _ _)
theorem flt_modAlert : s.modAlert.flt = s.flt := by unfold State.modAlert; simp only; split <;> rfl
theorem flt_fltShow : s.fltShow.flt = s.flt := by unfold State.fltShow; rfl

/-- The module's state is what its conditions report; nothing else of the fault block changes (R374, R376). -/
theorem flt_evalState : s.evalState.flt = { s.latchNow.flt with state := s.latchNow.flt.report } := by
  have key : ∀ (a : State) (n : Nat) (l : List Nat) (c : Nat), n = a.flt.report → (if n = a.flt.state then a.fltShow.modAlert else
      (l.foldl (fun s r => s.emit 1 c 0x0012 r (faultPayload 4 0 3 false false 0xFF 0 0)) (a.onFlt (fun f => { f with state := n })).fltShow.modAlert).setSts .FLT_STS [7]).flt
      = { a.flt with state := n } := by
    intro a n l c _
    split
    · next h => rw [flt_modAlert, flt_fltShow, h]
    · rw [flt_setSts, flt_emits, flt_modAlert, flt_fltShow]; rfl
  exact key s.latchNow _ _ _ rfl

/-- What a report of an error leaves of the fault block: all but the units, the conditions and the reported state. -/
structure FltKept (s t : State) : Prop where
  queue : t.flt.queue = s.flt.queue
  cur : t.flt.cur = s.flt.cur
  retiring : t.flt.retiring = s.flt.retiring
  copying : t.flt.copying = s.flt.copying
  mpDown : t.flt.mpDown = s.flt.mpDown
  frozen : t.flt.frozen = s.flt.frozen
  mpError : t.flt.mpError = s.flt.mpError

theorem FltKept.of {s t : State} (h : t.flt = s.flt) : FltKept s t := by constructor <;> rw [h]
theorem FltKept.trans {s t u : State} (h : FltKept s t) (g : FltKept t u) : FltKept s u :=
  ⟨g.1.trans h.1, g.2.trans h.2, g.3.trans h.3, g.4.trans h.4, g.5.trans h.5, g.6.trans h.6, g.7.trans h.7⟩

theorem fltKept_evalState : FltKept s s.evalState := by
  constructor <;> rw [flt_evalState] <;> rfl
theorem units_evalState : s.evalState.flt.units = s.flt.units := by rw [flt_evalState]; rfl
theorem fltKept_setUnit (k : Nat) (u : UnitRec) : FltKept s (s.setUnit k u) := by constructor <;> rfl

theorem flt_emitTo (l : List Nat) (a b c d : Nat) : (s.emitTo l a b c d).flt = s.flt := flt_emits _ _ _ _ _ _

/-- A report below FATAL leaves the errors that wait and that are handled. -/
theorem fltKept_report (sev cause kind index scope : Nat) (realms : List Nat) (detail : Nat) (esc ret : Bool) (from_ : Option Nat) (hs : sev ≠ 5) :
    FltKept s (s.report sev cause kind index scope realms detail esc ret from_) := by
  unfold State.report
  extract_lets src s1 s2 s3 own k x1 x2 x3 x4 x5 x6 x7 x8 x9 s4
  refine FltKept.trans ?_ (fltKept_evalState s4)
  have h2 : s2.flt = s.flt := (flt_setSts _ _ _ _).trans (flt_emitTo _ _ _ _ _ _)
  have h3 : s3.flt = s2.flt := by
    simp only [s3]
    split
    · rfl
    · split <;> rfl
  have h4 : FltKept s3 x7 := by
    simp only [x7]
    split
    · exact .of rfl
    · split
      · exact (fltKept_setUnit _ _ _).trans (fltKept_setUnit _ _ _)
      · split
        · exact (fltKept_setUnit _ _ _).trans (fltKept_setUnit _ _ _)
        · exact .of rfl
  have h5 : x9.flt = x7.flt := by simp only [x9]; split <;> rfl
  have h6 : s4 = x9 := if_neg hs
  rw [h6]
  exact (FltKept.of (h3.trans h2)).trans (h4.trans (.of h5))

/-! ### The root of trust over a report -/

theorem sec_modAlert : s.modAlert.sec = s.sec := by unfold State.modAlert; simp only; split <;> rfl
theorem sec_fltShow : s.fltShow.sec = s.sec := by unfold State.fltShow; rfl
theorem sec_setSts (g : Reg) (m : List Nat) (u : Nat) : (s.setSts g m u).sec = s.sec := (sameBut_setSts s g m u .sec (by decide)).symm
theorem sec_emits (l : List Nat) (a c d p : Nat) (s : State) : (l.foldl (fun s r => s.emit a c d r p) s).sec = s.sec := by
  induction l generalizing s with
  | nil => rfl
  | cons x l ih => exact (ih _).trans ((eventStep_emit s a c d x p).sameBut .sec (by decide)).symm
theorem sec_evalState : s.evalState.sec = s.sec := by
  have key : ∀ (a : State) (n : Nat) (l : List Nat) (c : Nat), (if n = a.flt.state then a.fltShow.modAlert else
      (l.foldl (fun s r => s.emit 1 c 0x0012 r (faultPayload 4 0 3 false false 0xFF 0 0)) (a.onFlt (fun f => { f with state := n })).fltShow.modAlert).setSts .FLT_STS [7]).sec = a.sec := by
    intro a n l c
    split
    · rw [sec_modAlert, sec_fltShow]
    · rw [sec_setSts, sec_emits, sec_modAlert, sec_fltShow]; rfl
  exact (key s.latchNow _ _ _).trans rfl

/-- A SERVICE report tells the root of trust of trouble and leaves the rest of it. -/
theorem sec_report4 (cause kind index scope : Nat) (realms : List Nat) (detail : Nat) (esc ret : Bool) (from_ : Option Nat) :
    (s.report 4 cause kind index scope realms detail esc ret from_).sec = { s.sec with trouble := true } := by
  unfold State.report
  extract_lets src s1 s2 s3 own k x1 x2 x3 x4 x5 x6 x7 x8 x9 s4
  refine (sec_evalState s4).trans ?_
  have h2 : s2.sec = s.sec := (sec_setSts _ _ _ _).trans (sec_emits _ _ _ _ _ _)
  have h3 : s3.sec = s2.sec := rfl
  have h4 : x7.sec = s3.sec := by simp only [x7]; split <;> rfl
  have h5 : x9.sec = { x7.sec with trouble := true } := congrArg State.sec (if_pos (show 4 ≤ 4 by decide))
  have h6 : s4 = x9 := if_neg (by decide)
  rw [h6, h5, h4, h3, h2]

/-! ### Registers over the module's state and over a report -/

variable {s}

theorem word_setFld_ne {f : Fld} {v u sel : Nat} {g : Reg} {u' sel' : Nat} (h : g.key u' sel' ≠ f.reg.key u sel) : (s.setFld f v u sel).word g u' sel' = s.word g u' sel' :=
  State.word_setWord_of_ne s _ h

theorem word_modAlert (g : Reg) (u sel : Nat) : s.modAlert.word g u sel = s.word g u sel := by unfold State.modAlert; simp only; split <;> rfl
theorem word_fltShow {g : Reg} {u sel : Nat} (h1 : g.key u sel ≠ Reg.FLT_STATE.key 0 0) (h2 : g.key u sel ≠ Reg.FLT_SPARES.key 0 0) : s.fltShow.word g u sel = s.word g u sel := by
  unfold State.fltShow
  extract_lets a b
  have hS : ∀ f : Fld, f.reg = .FLT_SPARES → ∀ (t : State) (v : Nat), (t.setFld f v).word g u sel = t.word g u sel := fun f hf t v => word_setFld_ne (by rw [hf]; exact h2)
  have hT : ∀ f : Fld, f.reg = .FLT_STATE → ∀ (t : State) (v : Nat), (t.setFld f v).word g u sel = t.word g u sel := fun f hf t v => word_setFld_ne (by rw [hf]; exact h1)
  exact (hS _ rfl _ _).trans ((hS _ rfl _ _).trans ((hT _ rfl _ _).trans ((hT _ rfl _ _).trans ((hT _ rfl _ _).trans ((hT _ rfl _ _).trans (hT _ rfl _ _))))))
theorem word_emits {g : Reg} {u sel : Nat} (h : ∀ q < 4, g.key u sel ≠ Reg.RING_EQ_DROP.key q 0) (l : List Nat) (a c d p : Nat) (s : State) :
    (l.foldl (fun s r => s.emit a c d r p) s).word g u sel = s.word g u sel := by
  induction l generalizing s with
  | nil => rfl
  | cons x l ih => exact (ih _).trans (word_emit _ h)

theorem word_evalState {g : Reg} {u sel : Nat} (h1 : g.key u sel ≠ Reg.FLT_STATE.key 0 0) (h2 : g.key u sel ≠ Reg.FLT_SPARES.key 0 0)
    (h3 : ∀ q < 4, g.key u sel ≠ Reg.RING_EQ_DROP.key q 0) : s.evalState.word g u sel = s.word g u sel := by
  have key : ∀ (a : State) (n : Nat) (l : List Nat) (c : Nat), (if n = a.flt.state then a.fltShow.modAlert else
      (l.foldl (fun s r => s.emit 1 c 0x0012 r (faultPayload 4 0 3 false false 0xFF 0 0)) (a.onFlt (fun f => { f with state := n })).fltShow.modAlert).setSts .FLT_STS [7]).word g u sel
      = a.word g u sel := by
    intro a n l c
    split
    · exact (word_modAlert _ _ _).trans (word_fltShow h1 h2)
    · exact (word_setSts _ h3).trans ((word_emits h3 _ _ _ _ _ _).trans ((word_modAlert _ _ _).trans ((word_fltShow h1 h2).trans rfl)))
  exact (key s.latchNow _ _ _).trans rfl

/-- The fields of FLT_SPARES that firmware writes. -/
theorem fld_fltShow {g : Fld} (hg : g.reg = .FLT_SPARES) (hf : g.fits) (h1 : 10 ≤ g.lo) : s.fltShow.fld g = s.fld g := by
  unfold State.fltShow
  extract_lets a b
  have hd : ∀ f : Fld, f = .FLT_SPARES_TILE_USED ∨ f = .FLT_SPARES_CLU_USED → ∀ (t : State) (v : Nat), (t.setFld f v).fld g = t.fld g := by
    intro f hf' t v
    rcases hf' with rfl | rfl
    · exact State.fld_setFld_of_disjoint t v 0 0 hg hf (.inr (by show 0 + 9 ≤ g.lo; omega))
    · exact State.fld_setFld_of_disjoint t v 0 0 hg hf (.inr (by show 9 + 1 ≤ g.lo; omega))
  have hn : ∀ f : Fld, f.reg = .FLT_STATE → ∀ (t : State) (v : Nat), (t.setFld f v).fld g = t.fld g := by
    intro f hr t v
    exact State.fld_setFld_of_ne t v 0 0 (by rw [hg, hr]; decide)
  exact (hd _ (.inr rfl) _ _).trans ((hd _ (.inl rfl) _ _).trans ((hn _ rfl _ _).trans ((hn _ rfl _ _).trans ((hn _ rfl _ _).trans ((hn _ rfl _ _).trans (hn _ rfl _ _))))))

theorem fld_evalState {g : Fld} (hg : g.reg = .FLT_SPARES) (hf : g.fits) (h1 : 10 ≤ g.lo) : s.evalState.fld g = s.fld g := by
  have h3 : ∀ q < 4, g.reg.key 0 0 ≠ Reg.RING_EQ_DROP.key q 0 := by rw [hg]; decide
  have key : ∀ (a : State) (n : Nat) (l : List Nat) (c : Nat), (if n = a.flt.state then a.fltShow.modAlert else
      (l.foldl (fun s r => s.emit 1 c 0x0012 r (faultPayload 4 0 3 false false 0xFF 0 0)) (a.onFlt (fun f => { f with state := n })).fltShow.modAlert).setSts .FLT_STS [7]).fld g
      = a.fld g := by
    intro a n l c
    have hm : ∀ t : State, t.modAlert.fld g = t.fld g := fun t => congrArg g.of (word_modAlert g.reg 0 0)
    split
    · exact (hm _).trans (fld_fltShow hg hf h1)
    · exact (fld_setSts _ h3).trans ((congrArg g.of (word_emits h3 _ _ _ _ _ _)).trans ((hm _).trans ((fld_fltShow hg hf h1).trans rfl)))
  exact (key s.latchNow _ _ _).trans rfl

theorem reg_report (sev cause kind index scope : Nat) (realms : List Nat) (detail : Nat) (esc ret : Bool) (from_ : Option Nat) (hs : sev ≠ 5) :
    ∃ u : State, s.report sev cause kind index scope realms detail esc ret from_ = u.evalState
      ∧ (∀ (g : Reg) (a b : Nat), (∀ q < 4, g.key a b ≠ Reg.RING_EQ_DROP.key q 0) → g.key a b ≠ Reg.FLT_PERF_CE.key 0 0 → g.key a b ≠ Reg.FLT_PERF_CONTAINED.key 0 0 → u.word g a b = s.word g a b)
      ∧ u.stsBit .FLT_STS (sev - 1) = true ∧ (ret = true → u.stsBit .FLT_STS 6 = true) := by
  unfold State.report
  extract_lets src s1 s2 s3 own k x1 x2 x3 x4 x5 x6 x7 x8 x9 s4
  refine ⟨s4, rfl, ?_⟩
  have h6 : s4 = x9 := if_neg hs
  rw [h6]
  have h3 : ∀ (g : Reg) (a b : Nat), (∀ q < 4, g.key a b ≠ Reg.RING_EQ_DROP.key q 0) → g.key a b ≠ Reg.FLT_PERF_CE.key 0 0 → g.key a b ≠ Reg.FLT_PERF_CONTAINED.key 0 0 → s3.word g a b = s.word g a b := by
    intro g a b h1 h2 h4
    have h0 : s2.word g a b = s.word g a b := (word_setSts _ h1).trans (word_emits h1 _ _ _ _ _ _)
    refine Eq.trans ?_ h0
    simp only [s3]
    split
    · exact word_setFld_ne h2
    · split
      · exact word_setFld_ne h4
      · rfl
  have hq : s3.sqc = s2.sqc := by
    simp only [s3]
    split
    · rfl
    · split <;> rfl
  have h7 : x7.regs = s3.regs ∧ x7.sqc = s3.sqc := by
    simp only [x7]
    split
    · exact ⟨rfl, rfl⟩
    · split
      · exact ⟨rfl, rfl⟩
      · split <;> exact ⟨rfl, rfl⟩
  have h9 : x9.regs = x7.regs ∧ x9.sqc = x7.sqc := by simp only [x9]; split <;> exact ⟨rfl, rfl⟩
  have hs9 : x9.sqc = s2.sqc := h9.2.trans (h7.2.trans hq)
  have hst : ∀ b, x9.stsBit .FLT_STS b = s2.stsBit .FLT_STS b := fun b => by unfold State.stsBit State.sqcOf; rw [hs9]
  refine ⟨fun g a b h1 h2 h4 => ?_, ?_, fun hr => ?_⟩
  · unfold State.word at *
    rw [h9.1, h7.1]; exact h3 g a b h1 h2 h4
  · rw [hst]; exact stsBit_setSts s1 (by simp)
  · rw [hst]; exact stsBit_setSts s1 (by simp [hr])

end Sys2Proof.Machine
end

