-- ==== Sys2Proof/WellFormed.lean ====
section
/-! DEFINITION. Which commands are well formed: every operand lies in the range that the spec gives it. The meanings are total and do not
rely on it. -/

namespace Sys2Proof

/-- Realms 0-3 and rings 0-63 of a realm (R173), slots of a submission ring and of the request table (R173, R220). -/
def isRealm (r : Nat) : Bool := decide (r < 4)
def isRing (n : Nat) : Bool := decide (n < 64)
def isSlot (i : Nat) : Bool := decide (i < 65536)

/-- Physical clusters 0-8 and tiles 17 c + t (R5). -/
def isCluster (c : Nat) : Bool := decide (c < 9)
def isTile (p : Nat) : Bool := decide (p < 153)

/-- Halves of the control lane, its ports, and the four queues of a port (R265, R268, R278). -/
def isHalf (h : Nat) : Bool := decide (h < 2)
def isPort (p : Nat) : Bool := decide (p < 4)

/-- Page-map entries (R140) and internal queues (R211). -/
def isEntry (e : Nat) : Bool := decide (e < 2 ^ 20)
def isQueue (q : Nat) : Bool := decide (q < 256)

/-- Bytes, 32-bit words, 64-bit counts and offsets of a register window (R453, R456). -/
def isByte (b : Nat) : Bool := decide (b < 256)
def isWord (v : Nat) : Bool := decide (v < 2 ^ 32)
def isCount (v : Nat) : Bool := decide (v < 2 ^ 64)
def isOffset (v : Nat) : Bool := decide (v < 2 ^ 20)

/-- An item of one to eight words (R211); a control frame may have no data word. -/
def isItem (ws : List Nat) : Bool := decide (ws.length ≤ 8) && ws.all isCount

/-- Answers of a lane evaluation: up to seven words for each axis (R271). -/
def isAnswer (outs : List (Nat × List Nat)) : Bool := outs.all (fun o => isByte o.1 && decide (o.2.length ≤ 7) && o.2.all isCount)

/-- The two sensors of a hot spot, in half degrees, -256 to 255.5 (R493). -/
def isReading (x : Option Int × Option Int) : Bool :=
  x.1.all (fun t => decide (-512 ≤ t) && decide (t ≤ 511)) && x.2.all (fun t => decide (-512 ≤ t) && decide (t ≤ 511))

def Win.wf : Win → Bool
  | .realm r => isRealm r
  | .mgmt => true
  | .fw => true

def OpEnv.wf (e : OpEnv) : Bool := isCluster e.cluster && isTile e.tile

def SeqOut.wf (o : SeqOut) : Bool := isSlot o.slot && o.rows.all isByte && o.tokens.all isWord && o.parents.all isByte && o.logits.all (·.all isWord)

def LaneAxis.wf (a : LaneAxis) : Bool := isPort a.queue && a.header.all isByte && a.ports.all isPort

def LanePkg.wf (p : LanePkg) : Bool := p.axes.all LaneAxis.wf && p.init.all isByte && decide (p.domain < 128) && decide (p.etherType < 2 ^ 16)

def VidOut.wf (o : VidOut) : Bool := o.picture.all isByte && o.satd.all isByte && o.kind.all isByte && o.stream.all isByte && o.stream2.all isByte

def ErrIn.wf (e : ErrIn) : Bool := decide (1 ≤ e.sev) && decide (e.sev ≤ 5) && decide (e.cause ≤ 0x13) && decide (e.kind < 5) && isWord e.detail

def RegEnv.wf (e : RegEnv) : Bool := e.pkg.all LanePkg.wf && decide (e.dir < 3) && e.chain.all isByte

/-- Every operand of a command is in range. -/
def Instr.wf : Instr → Bool
  | .spillStart r => isRealm r
  | .spillCopyDone e => isEntry e
  | .pageFetchDone e wait => isEntry e && isWord wait
  | .deferredReclaim e => isEntry e
  | .reclaimNow w => w.wf
  | .kvmCntClr w => w.wf
  | .nop r n i => isRealm r && isRing n && isSlot i
  | .job r n i => isRealm r && isRing n && isSlot i
  | .dma r n i => isRealm r && isRing n && isSlot i
  | .scatterKv r n i => isRealm r && isRing n && isSlot i
  | .fence r n i => isRealm r && isRing n && isSlot i
  | .launchAt r n i => isRealm r && isRing n && isSlot i
  | .launchCountReached r n i => isRealm r && isRing n && isSlot i
  | .sqTail r n v width => isRealm r && isRing n && isWord v && decide (width ≤ 64)
  | .cqHead r n v width => isRealm r && isRing n && isWord v && decide (width ≤ 64)
  | .eqHead r v width => isRealm r && isWord v && decide (width ≤ 64)
  | .descriptorFetch r n _ _ => isRealm r && isRing n
  | .descriptorStart r n i => isRealm r && isRing n && isSlot i
  | .jobTimeout r n i => isRealm r && isRing n && isSlot i
  | .msixMessage r n => isRealm r && decide (n ≤ 64)
  | .eqOverflow r => isRealm r
  | .eqReset w r => w.wf && isRealm r
  | .ringCntClr w r => w.wf && isRealm r
  | .queueItemArrive q ws => isQueue q && isItem ws
  | .gapMarkerEnter q => isQueue q
  | .queueWordRead q _ => isQueue q
  | .matmul r n i k env => isRealm r && isRing n && isSlot i && isSlot k && env.wf
  | .segSum r n i k env => isRealm r && isRing n && isSlot i && isSlot k && env.wf
  | .segMax r n i k env => isRealm r && isRing n && isSlot i && isSlot k && env.wf
  | .segMin r n i k env => isRealm r && isRing n && isSlot i && isSlot k && env.wf
  | .segMean r n i k env => isRealm r && isRing n && isSlot i && isSlot k && env.wf
  | .scatterAdd r n i k env => isRealm r && isRing n && isSlot i && isSlot k && env.wf
  | .msg r n i k env => isRealm r && isRing n && isSlot i && isSlot k && env.wf
  | .topk r n i k env => isRealm r && isRing n && isSlot i && isSlot k && env.wf
  | .sort r n i k env => isRealm r && isRing n && isSlot i && isSlot k && env.wf
  | .unique r n i k env => isRealm r && isRing n && isSlot i && isSlot k && env.wf
  | .gridBuild r n i k env => isRealm r && isRing n && isSlot i && isSlot k && env.wf
  | .knn r n i k env => isRealm r && isRing n && isSlot i && isSlot k && env.wf
  | .conv r n i k env => isRealm r && isRing n && isSlot i && isSlot k && env.wf
  | .maxpool r n i k env => isRealm r && isRing n && isSlot i && isSlot k && env.wf
  | .avgpool r n i k env => isRealm r && isRing n && isSlot i && isSlot k && env.wf
  | .globalAvg r n i k env => isRealm r && isRing n && isSlot i && isSlot k && env.wf
  | .eltwise r n i k env => isRealm r && isRing n && isSlot i && isSlot k && env.wf
  | .random r n i k env => isRealm r && isRing n && isSlot i && isSlot k && env.wf
  | .attn r n i k env => isRealm r && isRing n && isSlot i && isSlot k && env.wf
  | .group r n i k env => isRealm r && isRing n && isSlot i && isSlot k && env.wf
  | .tceDispatch c env => isCluster c && env.wf
  | .s2dRepack c => isCluster c
  | .haloRowWrite c b => isCluster c && decide (b < 256)
  | .haloRowRead c b => isCluster c && decide (b < 256)
  | .lbTimeout c b => isCluster c && decide (b < 256)
  | .lbFlush w c => w.wf && isCluster c
  | .cluCntClr w c => w.wf && isCluster c
  | .cluCtrlWrite w c v => w.wf && isCluster c && isWord v
  | .tilCntClr w p => w.wf && isTile p
  | .scrubNow w p => w.wf && isTile p
  | .scrubPass p ces ues => isTile p && ces.all (fun x => decide (x.1 < 2 ^ 18) && decide (x.2.1 < 72) && decide (x.2.2 < 2 ^ 16)) && ues.all (fun x => decide (x < 2 ^ 18))
  | .columnSpareRewriteDone p => isTile p
  | .halt w p _ => w.wf && isTile p
  | .tilCvtWrite w p v => w.wf && isTile p && isWord v
  | .serveRequest r n i _ => isRealm r && isRing n && isSlot i
  | .select r => isRealm r
  | .sample r outs => isRealm r && outs.all SeqOut.wf
  | .stepRetry r => isRealm r
  | .slotFree slot => isSlot slot
  | .deadlinePass slot => isSlot slot
  | .accountLevelRefill => true
  | .accRefill w => w.wf
  | .srvCntClr w => w.wf
  | .prefixRegister r n i => isRealm r && isRing n && isSlot i
  | .prefixRelease r n i => isRealm r && isRing n && isSlot i
  | .modelLoad r n i prof geom policy keep _ => isRealm r && isRing n && isSlot i && decide (prof < 64) && isWord geom && isWord policy && isWord keep
  | .modelLoadDone m => decide (m < 256)
  | .modelEvict r n i => isRealm r && isRing n && isSlot i
  | .modelEvictDone m => decide (m < 256)
  | .genRun w => w.wf
  | .genDone r => isRealm r
  | .detCntClr w => w.wf
  | .digestDone r n i _ => isRealm r && isRing n && isSlot i
  | .signatureDone r n i _ => isRealm r && isRing n && isSlot i
  | .snapshot r n i => isRealm r && isRing n && isSlot i
  | .snapshotBoundary r n i => isRealm r && isRing n && isSlot i
  | .snapshotImageWritten r n i => isRealm r && isRing n && isSlot i
  | .restore r n i => isRealm r && isRing n && isSlot i
  | .swatchBegin r n i => isRealm r && isRing n && isSlot i
  | .swatchEnd r n i => isRealm r && isRing n && isSlot i
  | .swatchAbort w => w.wf
  | .swatch => true
  | .swatchUnitAge => true
  | .swatchPeerSilence => true
  | .install w pkg => w.wf && pkg.all LanePkg.wf
  | .repair w h => w.wf && isHalf h
  | .laneRetire w h => w.wf && isHalf h
  | .swapArm w => w.wf
  | .swapCancel w => w.wf
  | .ackLost w => w.wf
  | .ctlCntClr w => w.wf
  | .qFlush w => w.wf
  | .laneEnWrite w v => w.wf && isWord v
  | .gridWrite w v => w.wf && isWord v
  | .periodStart at_ => isCount at_
  | .laneFrameRx port q hdr ws => isPort port && isPort q && isCount hdr && isItem ws
  | .ptpFrameRx port domain _ => isPort port && decide (domain < 128)
  | .ingressRead q flips => decide (q < 16) && decide (flips.length ≤ 32)
  | .periodLaunch => true
  | .evaluationDone outs bytes check lat => isAnswer outs && bytes.all isByte && check.all (fun x => decide (x < 6)) && isWord lat
  | .holdFrames => true
  | .claim h c => isHalf h && decide (c < 2 ^ 16)
  | .stateCopyReceive _ => true
  | .takeover => true
  | .halfScrubDone h => isHalf h
  | .halfSelftestDone h _ => isHalf h
  | .halfLoadDone h => isHalf h
  | .shadowCompare outs bytes => isAnswer outs && bytes.all isByte
  | .checkpointWrite _ => true
  | .linkChange p _ => isPort p
  | .upHoldExpiry p => isPort p
  | .quarantineEnd p => isPort p
  | .tsUnlock => true
  | .videoFrame r n i parts => isRealm r && isRing n && isSlot i && decide (1 ≤ parts) && decide (parts < 2 ^ 16)
  | .partDispatch core => isPort core
  | .partDone core o => isPort core && o.wf
  | .strmKill w => w.wf
  | .vidCntClr w => w.wf
  | .cancel r n i => isRealm r && isRing n && isSlot i
  | .commitPoint r cancels => isRealm r && cancels.all (fun x => isRing x.1 && isSlot x.2)
  | .ringReset w r => w.wf && isRealm r
  | .ownerSet w _ => w.wf
  | .ownerClear w _ => w.wf
  | .realmCreate w _ => w.wf
  | .realmDestroy w _ => w.wf
  | .realmClearDone r => isRealm r
  | .fwActivate w _ => w.wf
  | .fwDisarm w _ => w.wf
  | .debugArm w _ => w.wf
  | .debugDisarm w _ => w.wf
  | .debugExpiry => true
  | .secCntClr w => w.wf
  | .provision r mode use slot => isRealm r && decide (mode < 256) && decide (use < 256) && decide (slot < 256)
  | .clear r slot => isRealm r && decide (slot < 256)
  | .attest r => isRealm r
  | .certs r chain => isRealm r && chain.all isByte
  | .load w => w.wf
  | .fwuAbort w => w.wf
  | .verifyDone _ => true
  | .applyDone _ meas size ucode => meas.all isByte && isWord size && isWord ucode
  | .activation => true
  | .microcodeLoad p => isTile p
  | .confirm => true
  | .confirmWindowExpiry => true
  | .fallback _ => true
  | .drawerAccrual => true
  | .retrim w dir _ => w.wf && decide (dir < 3)
  | .rcTrim dir _ => decide (dir < 3)
  | .frequencyMonitorWindow bad => bad.all (fun d => decide (d < 10))
  | .refLoss => true
  | .refBack => true
  | .pllUnlock loop => isPort loop
  | .clockRampDone => true
  | .lowPowerWrite w _ => w.wf
  | .gateWrite w _ v => w.wf && isWord v
  | .gatePendApply => true
  | .realign w => w.wf
  | .gaugeRead w => w.wf
  | .staveFrameRx _ body arr t => body.all isByte && isCount arr && isCount t
  | .gaugeHoldover => true
  | .frameMark latency => isWord latency
  | .ringOpen => true
  | .attach => true
  | .enum w => w.wf
  | .enumRoundEnd => true
  | .launchSend w => w.wf
  | .launch => true
  | .actSend w => w.wf
  | .activate => true
  | .state => true
  | .stateSend => true
  | .stvCntClr w => w.wf
  | .errorHandling found _ row chan => found.all ErrIn.wf && isWord row && decide (chan < 256)
  | .tileRecoveryDone p _ => isTile p
  | .channelCopyDone => true
  | .retireHalted kind index => decide (kind < 5) && decide (index < 256)
  | .knownAnswerPass fails => fails.all isTile
  | .healthHour => true
  | .stateDwellExpiry => true
  | .messageReject _ p half => isTile p && half.all isHalf
  | .mgmtWarmRestart settings => isWord settings
  | .fltCntClr w => w.wf
  | .retire w => w.wf
  | .fltRepair w _ => w.wf
  | .freeze w => w.wf
  | .crcNow w => w.wf
  | .crcCommit w => w.wf
  | .crcPeriodic => true
  | .crcDone => true
  | .crcRefWrite w v => w.wf && isWord v
  | .holdStuck _ => true
  | .resetArm w => w.wf
  | .resetGo w => w.wf
  | .registerWrite w off size v env => w.wf && isOffset off && isWord size && isCount v && env.wf
  | .registerRequestApply env => env.wf
  | .sqcWrite w off v => w.wf && isOffset off && isWord v
  | .sqcRead w off => w.wf && isOffset off
  | .powerOnReset _ _ => true
  | .refStable => true
  | .pllStable => true
  | .imageVerified _ _ => true
  | .lpddr5Trained failed => failed.all (fun x => decide (x < 256))
  | .memoryClearDone fails => fails.all isTile
  | .settingsRestored us => isWord us
  | .resetNChange _ t => isCount t
  | .freezeNAssert t => isCount t
  | .freezeNDeassert t => isCount t
  | .alertNChange _ t => isCount t
  | .sidebandStuck i => decide (i < 3)
  | .sidebandFastEnd i => decide (i < 3)
  | .hostLinkReset => true
  | .linkTraining dead heard far width => dead.all (fun x => decide (x < 18)) && heard.all (fun x => decide (x < 18)) && decide (far < 4) && decide (width ≤ 16)
  | .laneFail lane => decide (lane < 18)
  | .laneRecordClear => true
  | .mainDip volt => isWord volt
  | .mainReturn => true
  | .dipRecoveryExpiry => true
  | .mainLoss => true
  | .auxLost => true
  | .coolantRecordRead b => decide (b.length = 16) && b.all isByte
  | .coolantIbi b => decide (b.length = 16) && b.all isByte
  | .coolantStale => true
  | .survivalExit => true
  | .junctionRead rs => decide (rs.length = 16) && rs.all isReading
  | .junctionShutdown => true
  | .powerMeasure power volt => isWord power && isWord volt
  | .envelopeUpdate demand rlm => isWord demand && decide (rlm.length ≤ 4) && rlm.all isWord

end Sys2Proof
end

