-- ==== Sys2Proof/Tests/Slice0.lean ====
section
/-! SUPPORT. Tests: terms that the well-formedness check refuses, a state that meets the hypotheses of each statement and of its clauses, and a few steps whose results the rules of spec/ give. -/

open Sys2Proof Sys2Proof.Machine

/-! ### Ill-formed commands: every check refuses one -/

theorem test_ill_formed_places : ([.spillStart 4, .nop 0 64 0, .nop 0 0 65536, .nop 4 0 0, .job 0 64 0, .tceDispatch 9 {}, .s2dRepack 9, .scrubPass 153 [] [], .scrubPass 0 [(0, 72, 0)] [], .scrubPass 0 [] [2 ^ 18],
    .columnSpareRewriteDone 153, .halfScrubDone 2, .upHoldExpiry 4, .pageFetchDone (2 ^ 20) 0, .deferredReclaim (2 ^ 20), .gapMarkerEnter 256, .msixMessage 0 65, .haloRowWrite 0 256, .lbTimeout 9 0, .slotFree 65536,
    .modelLoadDone 256, .modelEvictDone 256, .genDone 4, .ingressRead 16 [], .ingressRead 0 (List.replicate 33 false), .ptpFrameRx 0 128 true, .ptpFrameRx 4 0 true, .partDispatch 4, .retireHalted 5 0, .retireHalted 0 256, .laneFail 18,
    .sidebandStuck 3, .pllUnlock 4, .microcodeLoad 153, .knownAnswerPass [153], .memoryClearDone [153], .lpddr5Trained [256], .tileRecoveryDone 153 true, .channelCopyDone] : List Instr).filter Instr.wf = [.channelCopyDone] := by decide

theorem test_ill_formed_values : ([.sqTail 0 0 (2 ^ 32) 32, .sqTail 0 0 0 65, .queueItemArrive 0 [0, 0, 0, 0, 0, 0, 0, 0, 0], .queueItemArrive 0 [2 ^ 64], .periodStart (2 ^ 64), .laneFrameRx 0 4 0 [], .laneFrameRx 0 0 (2 ^ 64) [],
    .evaluationDone [(256, [])] [] none 0, .evaluationDone [(0, [0, 0, 0, 0, 0, 0, 0, 0])] [] none 0, .evaluationDone [] [256] none 0, .evaluationDone [] [] (some 6) 0, .evaluationDone [] [] none (2 ^ 32),
    .claim 0 65536, .claim 2 0, .messageReject false 153 none, .messageReject false 0 (some 2), .mgmtWarmRestart (2 ^ 32), .provision 0 256 0 0, .provision 0 0 256 0, .provision 0 0 0 256, .clear 0 256, .certs 0 [256],
    .applyDone false [256] 0 0, .applyDone false [] (2 ^ 32) 0, .rcTrim 3 true, .frequencyMonitorWindow [10], .staveFrameRx true [256] 0 0, .staveFrameRx true [] (2 ^ 64) 0, .frameMark (2 ^ 32), .settingsRestored (2 ^ 32),
    .freezeNAssert (2 ^ 64), .resetNChange true (2 ^ 64), .linkTraining [18] [] 0 16, .linkTraining [] [18] 0 16, .linkTraining [] [] 4 16, .linkTraining [] [] 0 17, .mainDip (2 ^ 32), .coolantRecordRead [], .coolantIbi (List.replicate 16 256),
    .junctionRead [], .junctionRead (List.replicate 16 (some 512, none)), .powerMeasure (2 ^ 32) 0, .envelopeUpdate 0 [0, 0, 0, 0, 0], .commitPoint 0 [(64, 0)], .modelLoad 0 0 0 64 0 0 0 false, .videoFrame 0 0 0 0,
    .videoFrame 0 0 0 65536, .refStable] : List Instr).filter Instr.wf = [.refStable] := by decide

theorem test_ill_formed_records : ([.matmul 0 0 0 0 { cluster := 9 }, .matmul 0 0 0 0 { tile := 153 }, .matmul 0 0 0 65536 {}, .sample 0 [{ slot := 65536 }], .sample 0 [{ rows := [256] }], .sample 0 [{ tokens := [2 ^ 32] }],
    .sample 0 [{ parents := [256] }], .sample 0 [{ logits := [[2 ^ 32]] }], .install .fw (some { domain := 128 }), .install .fw (some { etherType := 65536 }), .install .fw (some { init := [256] }),
    .install .fw (some { axes := [{ queue := 4 }] }), .install .fw (some { axes := [{ header := [256] }] }), .install .fw (some { axes := [{ ports := [4] }] }), .partDone 0 { picture := [256] }, .partDone 0 { satd := [256] },
    .partDone 0 { kind := [256] }, .partDone 0 { stream := [256] }, .partDone 0 { stream2 := [256] }, .errorHandling (some { sev := 0 }) true 0 0, .errorHandling (some { sev := 6 }) true 0 0,
    .errorHandling (some { cause := 0x14 }) true 0 0, .errorHandling (some { kind := 5 }) true 0 0, .errorHandling (some { detail := 2 ^ 32 }) true 0 0, .errorHandling none true 0 256, .freeze (.realm 4),
    .registerWrite .fw (2 ^ 20) 4 0 {}, .registerWrite .fw 0 4 (2 ^ 64) {}, .registerWrite .fw 0 4 0 { dir := 3 }, .registerWrite .fw 0 4 0 { chain := [256] }, .registerWrite .fw 0 4 0 { pkg := some { domain := 128 } },
    .sqcWrite .fw (2 ^ 20) 0, .sqcWrite .fw 0 (2 ^ 32), .sqcRead .fw (2 ^ 20), .registerRequestApply { dir := 3 }, .halt .fw 153 true, .tilCvtWrite .fw 0 (2 ^ 32), .cluCtrlWrite .fw 9 0, .lbFlush .fw 9, .crcRefWrite .fw (2 ^ 32),
    .laneEnWrite .fw (2 ^ 32), .gridWrite .fw (2 ^ 32), .gateWrite .fw true (2 ^ 32), .retrim .fw 3 true, .repair .fw 2, .laneRetire .fw 2, .ringReset .fw 4, .eqReset .fw 4, .confirm] : List Instr).filter Instr.wf = [.confirm] := by decide

theorem test_no_word_spells_a_command : decodeTableWord 32 0 = none ∧ State.reset.withFetchWord 32 0 = State.reset := by decide

/-! ### States for the witnesses: a module that takes work, with realm 0 ACTIVE -/

def tReady : State :=
  { ((State.reset.setFld .GLB_STATE_READY 1).setFld .GLB_STATE_STAGE 4).setRealm 0 { st := .active, lane := true, drawer := true, regions := [(0, 8)], groups := 0xFFFFFFFF } with
    boot := { refStable := true, pllStable := true, imageOk := true, trained := true, cleared := true } }

def tDesc (ty : Nat) (body : List Nat) : Desc :=
  { uid := 1, slot := 0, raw := [ty, 0, 0, 0, 7, 0, 0, 0] ++ body ++ List.replicate (56 - body.length) 0, started := some 0, reserved := true }

/-- Ring pair 0 of realm 0 holds one descriptor. -/
def tWith (d : Desc) : State := tReady.setRing 0 0 { fetch := 1, tail := 1, descs := [d] }

theorem test_tReady : tReady.ready = true ∧ tReady.active 0 = true ∧ tReady.workHeld = false ∧ tReady.pageUp 13 = true ∧ tReady.openTo 12 0 = true ∧ tReady.windowOpen 0 = true := by decide

/-! ### Rings and descriptors -/

theorem witness_StepTakesTheFront : State.reset.pending = [] := by decide

theorem witness_Doorbells : ∃ s : State, s.ready = true ∧ s.active 0 = true ∧ s.flag .RING_SIZE_ENABLE 0 0 = true ∧ s.flag .RING_EQ_CFG_ENABLE 0 = true :=
  ⟨(tReady.setFld .RING_SIZE_ENABLE 1 0 0).setFld .RING_EQ_CFG_ENABLE 1 0, by decide⟩

theorem witness_NopFenceLaunchAt : (tWith (tDesc 0 [])).starting 0 0 0 0x00 = some (tDesc 0 []) ∧ (tWith (tDesc 0x0B [])).starting 0 0 0 0x0B = some (tDesc 0x0B [])
    ∧ (tWith (tDesc 0x0C [9])).starting 0 0 0 0x0C = some (tDesc 0x0C [9]) ∧ (tWith (tDesc 0x0C [9])).gauge ≤ (tDesc 0x0C [9]).num 8 8
    ∧ (tDesc 0x0C []).num 8 8 < { tWith (tDesc 0x0C []) with gauge := 1 }.gauge
    ∧ (tWith { tDesc 0x0C [9] with acted := true }).desc 0 0 0 = some { tDesc 0x0C [9] with acted := true } := by decide

theorem witness_recordable : (tWith (tDesc 0 [])).recordable 0 0 (tDesc 0 []) := by unfold State.recordable; decide

theorem witness_Fetch : ∃ s : State, s.ready = true ∧ s.active 0 = true ∧ s.flt.failed = false ∧ (s.ring 0 0).stopped = false ∧ s.flag .RING_SIZE_ENABLE 0 0 = true ∧ s.flag .RING_CTRL_FETCH_EN 0 = true
    ∧ (s.ring 0 0).fetch ≠ (s.ring 0 0).tail ∧ ((s.ring 0 0).descs.filter (fun d => !d.extra)).length < 32 :=
  ⟨((tReady.setFld .RING_SIZE_ENABLE 1 0 0).setFld .RING_CTRL_FETCH_EN 1 0).setRing 0 0 { tail := 1 }, by decide⟩

theorem witness_Start : let d : Desc := { tDesc 0 [] with started := none, reserved := false }
    (tWith d).desc 0 0 0 = some d ∧ (tWith d).descUid 0 0 1 = some d ∧ (tWith d).cqFree 0 0 ≠ 0 ∧ (tWith d).mayStart 0 0 d = true ∧ (tWith d).descCheck 0 0 d = stOk
    ∧ (tWith { d with raw := [0, 255] ++ List.replicate 62 0 }).descCheck 0 0 { d with raw := [0, 255] ++ List.replicate 62 0 } ≠ stOk := by decide

theorem witness_RingPage : tReady.pageUp 4 = true ∧ tReady.windowOpen 0 = true := by decide

theorem witness_Messages : ∃ s : State, s.ready = true ∧ (s.ring 0 0).irqDue.isSome = true ∧ (s.evRing 0).irqDue.isSome = true ∧ s.flag .RING_EQ_CFG_ENABLE 0 = true ∧ (s.evRing 0).runCount ≠ 0
    ∧ s.eqUsed 0 + 2 ≤ s.eqSize 0 :=
  ⟨((tReady.setFld .RING_EQ_CFG_ENABLE 1 0).setRing 0 0 { irqDue := some 0 }).setEvRing 0 { irqDue := some 0, runCount := 1 }, by decide⟩

theorem witness_QueueItems : tReady.up = true ∧ (tReady.queue 3).gap = none ∧ (tReady.queue 3).words.length + 8 ≤ 32
    ∧ 32 < (({ words := List.replicate 25 0 } : IQueue).words.length + 8) ∧ ((tReady.setQueue 3 { words := List.replicate 32 0, gap := some 1 }).queue 3).gap = some 1
    ∧ 32 ≤ ((tReady.setQueue 3 { words := List.replicate 32 0, gap := some 1 }).queue 3).words.length := by decide

theorem witness_QueueWords : ((tReady.setQueue 3 { gap := some 2 }).queue 3).gap = some 2 ∧ ((tReady.setQueue 3 { words := itemWords [5, 6] }).queue 3).words = itemWords [5, 6]
    ∧ wordParityOk ((itemWords [5]).headD 0) = true ∧ wordGap ((itemWords [5]).headD 0) = false ∧ ((tReady.setQueue fwQueue { words := itemWords [5] }).queue fwQueue).skipping = false := by decide

/-! ### JOBs, operators, memory -/

/-- A JOB in slot 0 that runs, with one operator of an OPCODE, on any cluster and tile. -/
def tJob (op : Nat) : Job := { recs := [{ opcode := op, cluster := 0xFF, tiles := 1 }] }
def tJobDesc : Desc := { tDesc 1 (List.replicate 20 0 ++ [0xFF]) with acted := true }
def tRun (op : Nat) : State := (tWith tJobDesc).setJob 1 (tJob op)

theorem witness_JobStart : let d := tDesc 1 []
    (tWith d).desc 0 0 0 = some d ∧ (tWith d).starting 0 0 0 1 = some d ∧ (∀ x ∈ (tWith d).det.snaps, x.target ≠ d.uid) ∧ ((tWith d).jobCheck 0 d).1 ≠ stOk := by decide

theorem witness_JobPasses : let d := tDesc 1 (List.replicate 9 0 ++ [16, 0, 0, 0, 0, 0, 0, 64, 0, 0, 0, 0xFF])
    let s := ({ tWith d with mem := { cells := Memory.store [] lpddrBase ([1, 0, 0, 0, 1, 0, 0, 0] ++ List.replicate 56 0 ++ [1, 0, 0, 0, 0xFF, 0, 0, 0, 0, 0, 0, 0, 64, 0, 0, 0] ++ List.replicate 16 0xFF) } } : State)
    s.starting 0 0 0 1 = some d ∧ (s.jobCheck 0 d).1 = stOk := by decide +kernel

theorem witness_JobTimeout : let s := (tWith tJobDesc).setJob 1 { tJob 1 with maxGt := 5 }
    s.jobAt 0 0 0 = some (tJobDesc, { tJob 1 with maxGt := 5 }) ∧ ({ tJob 1 with maxGt := 5 } : Job).maxGt ≠ 0 ∧ (tJob 1).finished = false ∧ (∀ x ∈ s.det.snaps, x.target = 1 → x.image = none) := by decide

theorem witness_Dma : let d := tDesc 2 ([0, 0, 0, 0, 0, 0, 0, 0] ++ [64, 0, 0, 0, 0, 0, 0, 0] ++ [16, 0, 0, 0, 0x11, 0, 0xFF, 0xFF])
    (tWith d).starting 0 0 0 2 = some d ∧ (tWith d).dmaPlace 0 (bits (d.byte 0x1C) 0 4) (d.byte 0x1D) (d.num 8 8) (d.num 0x18 4) = some lpddrBase
    ∧ (tWith d).dmaPlace 0 (bits (d.byte 0x1C) 4 4) (d.byte 0x1D) (d.num 0x10 8) (d.num 0x18 4) = some (lpddrBase + 64) ∧ d.num 0x1E 2 = noKey := by decide

theorem witness_SealedDma : let d := tDesc 2 ([0, 0, 0, 0, 0, 0, 0, 0] ++ [64, 0, 0, 0, 0, 0, 0, 0] ++ [16, 0, 0, 0, 0x10, 0, 3, 0])
    d.num 0x1E 2 ≠ noKey ∧ ((tWith d).setKeySlot 0 3 { key := List.replicate 32 1 }).keySlot 0 (d.num 0x1E 2) = some { key := List.replicate 32 1 } := by decide

theorem witness_ScatterKv : (tWith (tDesc 3 [])).starting 0 0 0 3 = some (tDesc 3 []) := by decide

theorem witness_CancelNotFound : let d := { tDesc 5 [] with started := none, reserved := false }
    (tWith d).desc 0 0 0 = some d ∧ d.ty = 5 ∧ d.acted = false ∧ (tWith d).descCheck 0 0 d = stOk ∧ (tWith d).cancelTarget 0 (d.byte 8) (d.num 0x0C 4) d.uid = none
    ∧ (tWith d).cancelReq 0 (d.byte 8) (d.num 0x0C 4) = none := by decide

theorem witness_CancelTargets : let d := { tDesc 5 [0, 0, 0, 0, 9] with uid := 2, slot := 1, started := none, reserved := false }
    let e := { tDesc 0 [] with uid := 1, raw := [0, 0, 0, 0, 9] ++ List.replicate 59 0 }
    let s := tReady.setRing 0 0 { fetch := 2, tail := 2, descs := [e, d] }
    let q := s.setReq 4 { tag := 9, order := 1 }
    s.desc 0 0 1 = some d ∧ s.descCheck 0 0 d = stOk ∧ s.cancelTarget 0 0 9 2 = some e ∧ s.cancelReq 0 0 9 = none
    ∧ q.cancelReq 0 0 9 = some (4, { tag := 9, order := 1 }) ∧ (∀ x, q.cancelTarget 0 0 9 2 = some x → 1 ≤ x.uid) := by
  refine ⟨by decide, by decide, by decide, by decide, by decide, ?_⟩
  intro x hx
  have : (({ tDesc 0 [] with uid := 1, raw := [0, 0, 0, 0, 9] ++ List.replicate 59 0 } : Desc)) = x := by
    have h : (((tReady.setRing 0 0 { fetch := 2, tail := 2, descs := [{ tDesc 0 [] with uid := 1, raw := [0, 0, 0, 0, 9] ++ List.replicate 59 0 },
      { tDesc 5 [0, 0, 0, 0, 9] with uid := 2, slot := 1, started := none, reserved := false }] }).setReq 4 { tag := 9, order := 1 }).cancelTarget 0 0 9 2)
      = some ({ tDesc 0 [] with uid := 1, raw := [0, 0, 0, 0, 9] ++ List.replicate 59 0 } : Desc) := by decide
    exact Option.some.inj (h.symm.trans hx)
  rw [← this]

theorem witness_Operators : ∀ e ∈ plainOperators, (tRun e.2.1).ready = true ∧ (tRun e.2.1).workHeld = false ∧ (tRun e.2.1).jobAt 0 0 0 = some (tJobDesc, tJob e.2.1) ∧ ((tJob e.2.1).rcd 0).opcode = e.2.1
    ∧ (tJob e.2.1).mayStart 0 = true ∧ (tRun e.2.1).pickTile (tJob e.2.1) (tJobDesc.byte 0x1C) ((tJob e.2.1).rcd 0) {} = .tile 0
    ∧ ((tRun e.2.1).setFld .TIL_CTRL_HALT 1 0).pickTile (tJob e.2.1) (tJobDesc.byte 0x1C) ((tJob e.2.1).rcd 0) {} = .busy
    ∧ (tRun e.2.1).pickTile (tJob e.2.1) 0 ((tJob e.2.1).rcd 0) {} = .none := by decide

theorem witness_OperatorOutputs : let f : State → OpCtx → List Nat → OpRes := fun _ _ _ => { status := stOk }
    let x := f (tRun 1) ((tJob 1).ctx ((tJob 1).rcd 0) ((tJob 1).op 0) 0 0 {}) []
    (tRun 1).job 1 = some (tJob 1) ∧ (tJob 1).digest = none ∧ x.waits = [] ∧ x.ue = [] ∧ (tRun 1).partWrites x.writes = [] ∧ x.pages = [] ∧ x.kvPoison = [] ∧ x.access = false := by decide

/-! ### Convolutions, groups and line buffers -/

/-- A WND of an INT8 image with a square window, packed pixels and no padding (R86). -/
def tWnd (src flags n c k st base out ring : Nat) : List Nat :=
  [1, src, 0, flags] ++ leBytes 2 n ++ leBytes 2 n ++ leBytes 4 c ++ leBytes 4 (n * c) ++ [k, k, st, st, 1, 1, 0, 0, 0, 0, 0, 0] ++ leBytes 4 c ++ leBytes 8 base ++ leBytes 8 0
    ++ leBytes 2 0 ++ leBytes 2 out ++ leBytes 2 0 ++ leBytes 2 out ++ leBytes 2 ring ++ [0, 0] ++ leBytes 4 0

/-- A dense ISD of INT8 rows (R57). -/
def tIsd (src bytes rows base : Nat) : List Nat := [0, src, 0, 0] ++ leBytes 4 bytes ++ leBytes 4 bytes ++ leBytes 4 rows ++ leBytes 8 base ++ List.replicate 40 0

def tConvBlock (wnd weights out : List Nat) : List Nat := [1, 1, 1, 1, 0, 0, 0, 0, 1] ++ List.replicate 55 0 ++ wnd ++ weights ++ out

/-- The JOB of `tRun` with a parameter block of 256 bytes in LPDDR5 at 4,096. -/
def tConvDesc : Desc := { tDesc 1 (List.replicate 9 0 ++ [16, 0, 0, 0, 0, 0, 0, 0, 1, 0, 0, 0xFF]) with acted := true }
def tConvJob : Job := { recs := [{ opcode := 0x10, cluster := 0xFF, tiles := 1, len := 256 }] }
def tConv (blk : List Nat) : State := { ((tWith tConvDesc).setJob 1 tConvJob) with mem := { cells := Memory.store [] (lpddrBase + 4096) blk } }
def tThin : State := tConv (tConvBlock (tWnd 1 2 1 1 1 1 (2 ^ 24) 1 16) (tIsd 0 1 1 4096) (tIsd 1 1 1 (2 ^ 24 + 64)))
def tSpace : State := tConv (tConvBlock (tWnd 0 0 2 16 1 2 0 1 0) (tIsd 0 1 16 4096) (tIsd 0 1 1 8192))
def tConvIn (s : State) : ConvIn :=
  s.convIn (tConvJob.ctx (tConvJob.rcd 0) { stoch := s.stochasticOn (tConvJob.rcd 0) 0, ovfSat := s.flag .TIL_CVT_OVF_SAT 0 } 0 0 {}) (s.block tConvDesc (tConvJob.rcd 0))

theorem witness_ConvThin : tThin.ready = true ∧ tThin.workHeld = false ∧ tThin.active 0 = true ∧ tThin.jobAt 0 0 0 = some (tConvDesc, tConvJob) ∧ (tConvJob.rcd 0).opcode = 0x10 ∧ tConvJob.mayStart 0 = true
    ∧ tThin.pickTile tConvJob (tConvDesc.byte 0x1C) (tConvJob.rcd 0) {} = .tile 0 ∧ tThin.physTile 0 = 0 ∧ (tConvIn tThin).bad = 0 ∧ (tConvIn tThin).path = 1
    ∧ (tThin.cluster 0).tceRun = none := by decide +kernel

theorem witness_ConvQueued : let s := tThin.setCluster 0 { tceRun := some ⟨1, 0⟩ }
    (tConvIn s).bad = 0 ∧ (tConvIn s).path = 1 ∧ (s.cluster 0).tceRun.isSome = true ∧ (s.cluster 0).tceQueue.length < 15 := by decide +kernel

theorem witness_ConvSpace : tSpace.jobAt 0 0 0 = some (tConvDesc, tConvJob) ∧ (tConvIn tSpace).bad = 0 ∧ (tConvIn tSpace).path = 2 ∧ (tSpace.cluster 0).s2dRun = none := by decide +kernel

theorem witness_Engines : let s := tThin.setCluster 0 { tceRun := some ⟨1, 0⟩, s2dRun := some ⟨1, 0⟩ }
    let s1 := (s.setCluster 0 { s.cluster 0 with tceRun := (s.cluster 0).tceQueue.head?, tceQueue := (s.cluster 0).tceQueue.drop 1 }).bumpWrap .CLU_PERF_TCE_BUSY_COUNT 0 0
    let x := opConv s1 (tConvJob.ctx (tConvJob.rcd 0) (tConvJob.op 0) (tConvDesc.num 0x20 8) (tConvJob.op 0).home {}) (s1.block tConvDesc (tConvJob.rcd 0))
    (s.cluster 0).tceRun = some ⟨1, 0⟩ ∧ s.opOwner ⟨1, 0⟩ = some (tConvDesc, tConvJob) ∧ tConvJob.digest = none ∧ (s.cluster 0).s2dRun = some ⟨1, 0⟩ ∧ (tConvJob.op 0).repacked = false
    ∧ x.ue = [] ∧ s1.partWrites x.writes = [] ∧ x.kvPoison = [] ∧ x.access = false := by decide +kernel

/-- A group of two pooling layers over 4 x 4 pixels of one channel, windows of 1 and of 3, in two stripes of one cluster: the layer records lie in the tile store at 8,192, the first columns of the stripes at 16,384. -/
def tGroupBlock : List Nat := [1, 2, 2, 1] ++ leBytes 2 2 ++ leBytes 2 2 ++ leBytes 8 8192 ++ leBytes 8 16384 ++ [4, 0, 0, 0, 0, 0, 0, 0] ++ leBytes 8 0 ++ [2, 1] ++ List.replicate 22 0
def tGroupLayer (k : Nat) : List Nat := [1, 1, 0, 0] ++ List.replicate 20 0 ++ [0x11] ++ List.replicate 39 0 ++ tWnd 0 0 4 1 k 1 0 4 0 ++ List.replicate 64 0
def tGroupJob : Job := { recs := [{ opcode := 0x41, cluster := 0xFF, tiles := 3, len := 64 }] }
def tGroup : State :=
  { ((tWith tConvDesc).setJob 1 tGroupJob) with
    mem := { cells := ((Memory.store [] (lpddrBase + 4096) tGroupBlock).store (tileBase 0 + 8192) (tGroupLayer 1 ++ tGroupLayer 3)).store (tileBase 0 + 16384) [0, 0, 1, 0] } }
def tGroupO (s : State) : OpRun := { stoch := s.stochasticOn (tGroupJob.rcd 0) 0, ovfSat := s.flag .TIL_CVT_OVF_SAT 0 }
def tGroupIn (s : State) : GroupIn := s.groupIn (tGroupJob.ctx (tGroupJob.rcd 0) (tGroupO s) 0 0 {}) (s.block tConvDesc (tGroupJob.rcd 0))

theorem witness_GroupStarts : let tls := [[0, 1]]
    let ps := (tls.map (fun l => l.map tGroup.physTile)).flatten
    let placed := tGroup.groupPlaces (tGroupIn tGroup) ⟨1, 0⟩ 2 ((tls.map (fun l => l.map tGroup.physTile)).map (fun l => l.headD 0 / 17))
    tGroup.ready = true ∧ tGroup.workHeld = false ∧ tGroup.active 0 = true ∧ tGroup.jobAt 0 0 0 = some (tConvDesc, tGroupJob) ∧ (tGroupJob.rcd 0).opcode = 0x41 ∧ tGroupJob.mayStart 0 = true
    ∧ tGroup.groupTiles tGroupJob (tConvDesc.byte 0x1C) (tGroupJob.rcd 0) 1 2 = some tls ∧ (tGroupIn tGroup).bad = 0 ∧ ps.all tGroup.tileFree = true ∧ placed.any (fun y => y.2.isNone) = false
    ∧ (tGroupIn tGroup).plan 0 2 ≠ [] := by decide +kernel

theorem witness_GroupRun : let placed := tGroup.groupPlaces (tGroupIn tGroup) ⟨1, 0⟩ 2 [0]
    let t := ((tGroup.disturb 0 {}).opStart 1 0 0 [0, 1] 0).groupHold ⟨1, 0⟩ placed
    let run := opGroup t (tGroupJob.ctx (tGroupJob.rcd 0) (tGroupO tGroup) 0 0 {}) (t.block tConvDesc (tGroupJob.rcd 0))
    run.ue = [] ∧ t.partWrites run.writes = [] := by decide +kernel

theorem witness_GroupWaits : ([0, 1].all (tGroup.setFld .TIL_CTRL_HALT 1 0).tileFree = false)
    ∧ (let s := tGroup.setFld .CLU_LB_SIZE_SIZE 0 0; (s.groupPlaces (tGroupIn tGroup) ⟨1, 0⟩ 2 [0]).any (fun y => y.2.isNone) = true) := by decide +kernel

theorem witness_LineBuffers : let own : OpKey := ⟨1, 0⟩
    let x := tGroupJob.ctx (tGroupJob.rcd own.op) (tGroupJob.op own.op) (tConvDesc.num 0x20 8) (tGroupJob.op own.op).home {}
    let l : LineBuf := { owner := own, dir := 1, prod := 1, cons := 0, cols := (1, 2), depth := 5, rowLines := 1, rows := 4, waitSince := some 0 }
    let s := tGroup.setCluster 0 { bufs := [(0, l)], groups := [own] }
    let need := (s.groupIn x (s.block tConvDesc (tGroupJob.rcd own.op))).need l
    Tab.find 0 (s.cluster 0).bufs = some l ∧ s.groupCtx l.owner = some (tConvDesc, tGroupJob, x) ∧ l.prodCnt < l.rows ∧ l.prodCnt - l.consCnt < l.depth
    ∧ ({ l with depth := 0 } : LineBuf).depth ≤ ({ l with depth := 0 } : LineBuf).prodCnt ∧ l.prodCnt < need.1 ∧ need.1 ≤ ({ l with prodCnt := 4 } : LineBuf).prodCnt ∧ need.2 < l.rows
    ∧ s.fld .CLU_LB_TIMEOUT_LIMIT 0 ≠ 0 ∧ s.openTo 5 0 = true ∧ (s.cluster 0).groups ≠ [] := by decide +kernel

/-! ### Pages of registers, key-value memory, tiles -/

theorem witness_FirmwarePages : ∀ e ∈ firmwareCommands 3 5 true none, tReady.openTo e.2.1.block e.2.2.1 = true ∧ State.reset.openTo e.2.1.block e.2.2.1 = false := by decide

theorem witness_CounterClears : ∀ b < 17, tReady.openTo b 3 = true := by decide

def tPage (e : Nat) (x : PageEnt) : State := tReady.onKvm (fun k => k.setEnt e x)

/-- One RESIDENT page of one granule fills a pool of one, with SPILL_LOW and SPILL_HIGH above it and the Drawer as its tier. -/
def tFull : State :=
  (((((tReady.setFld .KVM_CTRL_SPILL_EN 1).setFld .KVM_RLM_POOLSZ_SIZE 1 0 0).setFld .KVM_RLM_SPILL_LOW 200 0 0).setFld .KVM_RLM_SPILL_HIGH 200 0 0).setFld .KVM_RLM_SPILL_HOST 1 0 0).setFld .KVM_RLM_HOST_SZ_SIZE 1 0 0
    |>.onKvm (fun k => k.setEnt 5 { st := .resident, gran := 1, fill := 16 })

theorem witness_Spill : tFull.ready = true ∧ tFull.flag .KVM_CTRL_SPILL_EN = true ∧ 256 * tFull.freeGran 0 < tFull.poolSize 0 * tFull.fld .KVM_RLM_SPILL_LOW 0 0 ∧ tFull.kvm.ents ≠ []
    ∧ 256 * (tFull.freeGran 0 + tFull.spillingGran 0) < tFull.poolSize 0 * tFull.fld .KVM_RLM_SPILL_HIGH 0 0 ∧ spillFirst (tFull.spillable 0) = some (5, false, 0)
    ∧ tFull.spillTo 0 (tFull.kvm.ent 5).gran = some (0, 0) := by decide

theorem witness_SpillWaits : tReady.poolSize 0 * tReady.fld .KVM_RLM_SPILL_LOW 0 0 ≤ 256 * tReady.freeGran 0 := by decide

theorem witness_Pages : ((tPage 5 { st := .spilling }).kvm.ent 5).st = .spilling ∧ ((tPage 5 { st := .fetching }).kvm.ent 5).st = .fetching ∧ ((tPage 5 { st := .deferred }).kvm.ent 5).st = .deferred
    ∧ (∀ x ∈ (tPage 5 { st := .deferred }).kvm.readers, epochAfter x ((tPage 5 { st := .deferred }).kvm.ent 5).epoch = true)
    ∧ (∃ x ∈ (((tPage 5 { st := .deferred, epoch := 3 }).onKvm (fun k => { k with readers := [3] })).kvm.readers), epochAfter x 3 = false) ∧ tReady.openTo 7 0 = true := by decide

theorem witness_Tiles : (tReady.tile 152).st = .idle ∧ tReady.openTo 6 152 = true ∧ ((tReady.setTile 152 { st := .halted }).tile 152).st = .halted ∧ ((tReady.setTile 152 { st := .running }).tile 152).st = .running
    ∧ tReady.openTo 5 (152 / 17) = true ∧ tReady.up = true ∧ (tReady.setFld .TIL_CTRL_SCRUB_EN 1 152).flag .TIL_CTRL_SCRUB_EN 152 = true ∧ tReady.tileGated 152 = false
    ∧ ((tReady.setTile 152 { rewrite := some (0, 0, 0) }).tile 152).rewrite.isSome = true := by decide

/-! ### The serving engine -/

theorem witness_ServeRequest : let d := tDesc 4 []
    (tWith d).gated gServing = false ∧ (tWith d).starting 0 0 0 4 = some d ∧ ((tWith d).acted 0 0 d).admitCheck 0 d (parseReqBlock ((tWith d).bytes (hostBase + d.num 0x18 8) 64)) ≠ stOk := by decide

/-- A request block at host address 0 and a module that admits it: account 0 of realm 0, model 3 RESIDENT, a profile, a pool and slots. -/
def tAdmitDesc : Desc := tDesc 4 ([3, 0] ++ List.replicate 22 0 ++ [1, 0, 0, 0, 1, 0, 0, 0])
def tAdmit : State :=
  ((((((((((tWith tAdmitDesc).setFld .SRV_CTRL_ADMIT_EN 1).setFld .SRV_ACC_CFG_ENABLE 1 0 0).setFld .SRV_ACC_RATE_ASSIGNED 1 0 0).setFld .SRV_RLM_SLOTS_MAX 9 0 0).setFld .KVM_RLM_POOLSZ_SIZE 64 0 0).setFld .KVM_RLM_ENT_MAX 9 0 0).setFld
    .KVM_PROF_GEOM_VALID 1 0 0).setFld .KVM_PROF_GEOM_ROW_LINES 1 0 0).setFld .SRV_CTRL_ENABLE 1).setModel 3 { st := .resident }
    |>.onMem (fun m => { m with cells := Memory.store [] hostBase ([1, 0, 0, 0, 0, 0, 0, 0] ++ leBytes 4 f32One) })

theorem witness_Admit : let a := tAdmit.acted 0 0 tAdmitDesc
    tAdmit.starting 0 0 0 4 = some tAdmitDesc ∧ a.admitCheck 0 tAdmitDesc (parseReqBlock (tAdmit.bytes (hostBase + tAdmitDesc.num 0x18 8) 64)) = stOk ∧ tAdmitDesc.num 0x10 8 = 0
    ∧ (a.newSkein 0 0).2.1 = 0 ∧ Tab.freeKey (a.newSkein 0 0).2.2.srv.reqs 65536 0 = some 0 := by decide

theorem witness_Select : let s := (tAdmit.setReq 4 { model := 3, order := 1 }).setReq 5 { model := 3, order := 2 }
    s.stepOpen 0 = true ∧ stableSort reqBefore (s.waitingReqs 0) = [(4, { model := 3, order := 1 }), (5, { model := 3, order := 2 })] := by decide

def tReq : SrvReq := { st := .ready, realm := 0, model := 3, order := 1, endWritten := true, deadline := 9 }
def tServe (st : Step) : State := (tReady.setReq 4 tReq).onSrv (fun v => { v with steps := Tab.put 0 st v.steps })

theorem witness_SelectNothing : tReady.waitingReqs 0 = [] := by decide

theorem witness_Steps : Tab.find 0 (tServe {}).srv.steps = some {} ∧ ({} : Step).phase = .run ∧ ({ ctl := 4 } : Step).retry < bits ({ ctl := 4 } : Step).ctl 2 2 ∧ bits ({} : Step).ctl 2 2 ≤ ({} : Step).retry
    ∧ Tab.find 0 (tServe { phase := .commit }).srv.steps = some { phase := .commit } ∧ (tServe { phase := .commit }).kvm.mayRise = true := by decide

theorem witness_Slots : let s := tReady.setReq 4 tReq
    s.req 4 = some tReq ∧ tReq.endWritten = true ∧ (∀ e ∈ s.srv.steps, 4 ∉ e.2.slots) ∧ (∃ e ∈ (tServe { slots := [4] }).srv.steps, 4 ∈ e.2.slots) ∧ tReq.deadline ≠ 0 ∧ tReq.waiting = true ∧ tReq.late = false := by decide

theorem witness_Accounts : tReady.ready = true ∧ tReady.openTo 8 0 = true := by decide

theorem witness_Prefixes : let d := tDesc 6 [9, 0, 0, 0, 0, 0, 0, 0, 16, 0, 0, 0, 1, 0, 0, 0, 2]
    (tWith d).starting 0 0 0 6 = some d ∧ (tWith d).kvm.prefixOf 0 (d.num 8 8) = none ∧ d.byte 0x14 = 1
    ∧ ((tWith d).onKvm (fun k => k.setSkein 2 {})).kvm.skein (d.num 0x18 4) = some {} ∧ (∀ k, (tWith d).kvm.skein (d.num 0x18 4) = some k → k.realm ≠ 0) := by decide

theorem witness_PrefixHeld : let d := tDesc 6 [9]
    ((tWith d).onKvm (fun k => { k with prefixes := [(0, { handle := 9 })] })).kvm.prefixOf 0 (d.num 8 8) = some (0, { handle := 9 }) ∧ d.byte 0x14 ≠ 1
    ∧ oldest ((tWith d).srv.reqs.filter (fun e => e.2.realm == 0 && e.2.live && e.2.ring == d.byte 0x15 && e.2.tag == d.num 0x18 4)) = none
    ∧ (tWith (tDesc 7 [9])).starting 0 0 0 7 = some (tDesc 7 [9]) := by decide

def tModel (x : Model) : State := (tWith (tDesc 8 [3, 0, 0, 0, 0xFF, 0xFF])).setModel 3 x

theorem witness_ModelLoad : let d := tDesc 8 [3, 0, 0, 0, 0xFF, 0xFF]
    (tModel {}).starting 0 0 0 8 = some d ∧ ((tModel {}).srv.model (d.num 8 2)).st = .absent ∧ ((tModel { st := .resident }).srv.model 3).st ≠ .absent ∧ (tModel {}).modelPlace 0 1 = none
    ∧ ((tModel {}).setFld .SRV_RLM_MDL_SIZE_SIZE 16 0 0).modelPlace 0 1 = some 0 := by decide

theorem witness_ModelEvict : let d := tDesc 9 [3]
    let s := fun x => (tWith d).setModel 3 x
    (s {}).starting 0 0 0 9 = some d ∧ ((s {}).srv.model 3).st = .absent ∧ ((s { st := .evicting }).srv.model 3).realm = 0 ∧ ((s { st := .resident }).srv.model 3).st = .resident ∧ d.byte 0x0A ≠ 1
    ∧ (tDesc 9 [3, 0, 1]).byte 0x0A = 1 ∧ (s { st := .resident }).modelLive 3 = 0 ∧ (s { st := .loading, pkgKey := 7 }).keySlot 0 7 = none := by decide

/-! ### Determinism -/

theorem witness_GenSets : tReady.pageUp 11 = true ∧ tReady.windowOpen 0 = true ∧ tReady.openTo 11 0 = true ∧ (tReady.genOf 0).busy = false
    ∧ ((tReady.onDet (fun x => { x with gens := [(0, { busy := true })] })).genOf 0).busy = true := by decide

theorem witness_Digests : let j := { tJob 1 with finished := true }
    let s := (tWith tJobDesc).setJob 1 j
    s.jobAt 0 0 0 = some (tJobDesc, j) ∧ j.finished = true ∧ j.digest = none ∧ bit tJobDesc.flags 2 = false ∧ bit ({ tJobDesc with raw := [1, 4] ++ List.replicate 62 0 } : Desc).flags 2 = true
    ∧ ({ j with digest := some [1] } : Job).digest = some [1] ∧ (s.onDet (fun x => { x with signs := [(0, 0, 1)] })).det.signs.head? = some (0, 0, 1) := by decide

/-- A SNAPSHOT of ring pair 0's JOB with TAG 7, fetched behind it. -/
def tSnapDesc : Desc := { tDesc 0x0D (List.replicate 8 0 ++ [0, 0, 0, 0, 1, 0, 0, 0] ++ [0, 0, 0, 0, 7, 0, 0, 0]) with uid := 2, slot := 1, started := none }
def tSnap (j : Job) (xs : List Snap) : State := ((tReady.setRing 0 0 { fetch := 2, tail := 2, descs := [tJobDesc, tSnapDesc] }).setJob 1 j).onDet (fun x => { x with snaps := xs })

theorem witness_Snapshot : let s := tSnap (tJob 1) []
    let a := s.acted 0 0 tSnapDesc
    s.desc 0 0 1 = some tSnapDesc ∧ tSnapDesc.ty = 0x0D ∧ tSnapDesc.acted = false ∧ s.active 0 = true ∧ a.descCheck 0 0 tSnapDesc = stOk ∧ a.snapTarget 0 tSnapDesc = some tJobDesc ∧ tJobDesc.result = none
    ∧ s.job 1 = some (tJob 1) ∧ (tJob 1).finished = false ∧ (tJob 1).ending = none ∧ a.snapTarget 0 { tSnapDesc with raw := [] } = none := by decide

theorem witness_SnapshotBoundary : let x : Snap := { realm := 0, ring := 0, uid := 2, targetRing := 0, target := 1 }
    let s := tSnap (tJob 1) [x]
    s.snapAt 0 0 1 = some (tSnapDesc, x) ∧ s.descUid 0 0 1 = some tJobDesc ∧ (∀ k < (tJob 1).nOps, ((tJob 1).op k).st ≠ .running) ∧ (tJob 1).nextOp ≠ (tJob 1).nOps
    ∧ (∃ k < ({ tJob 1 with ops := [(0, { st := .running })] } : Job).nOps, (({ tJob 1 with ops := [(0, { st := .running })] } : Job).op k).st = .running)
    ∧ (tSnap (tJob 1) [{ x with image := some [0] }]).det.snaps.find? (fun y => y.uid == tSnapDesc.uid) = some { x with image := some [0] } := by decide +kernel

/-- The first 240 bytes of an image without sections, which lies at host address 0 with zeros behind them, and the RESTORE that names it. -/
def tImage : List Nat := [1, 1, 0, 0, 7, 0, 0, 0, 0xFF, 0, 0xFF, 0xFF] ++ List.replicate 60 0 ++ leBytes 8 4096 ++ List.replicate 128 0 ++ sha256 []
def tRestoreDesc : Desc := tDesc 0x0E (List.replicate 8 0 ++ [0, 16, 0, 0, 0, 0, 0, 0])
def tRestore : State := ((tWith tRestoreDesc).setFld .RING_SIZE_ENABLE 1 0 0).onMem (fun m => { m with cells := Memory.store [] hostBase tImage })

theorem bytes_split (m : Memory) (n k : Nat) : ∀ a, m.bytes a (n + k) = m.bytes a n ++ m.bytes (a + n) k := by
  induction n with
  | zero => intro a; simp [Memory.bytes]
  | succ n ih => intro a; rw [Nat.succ_add]; simp only [Memory.bytes, List.cons_append, ih]; rw [Nat.add_assoc a 1 n, Nat.add_comm 1 n]

theorem bytes_zero (m : Memory) (k : Nat) : ∀ a, (∀ b, a ≤ b → m.read b = 0) → m.bytes a k = List.replicate k 0 := by
  induction k with
  | zero => intro a _; rfl
  | succ k ih => intro a h; rw [Memory.bytes, h a (Nat.le_refl a), ih (a + 1) (fun b hb => h b (by omega))]; rfl

theorem tRestore_bytes : tRestore.bytes (hostBase + tRestoreDesc.num 8 8) (tRestoreDesc.num 0x10 8) = tImage ++ List.replicate 3856 0 := by
  have h1 : hostBase + tRestoreDesc.num 8 8 = 0 := by decide
  have h2 : tRestoreDesc.num 0x10 8 = 240 + 3856 := by decide
  have h3 : tRestore.mem.cells.bytes 0 240 = tImage := by decide +kernel
  have h4 : tImage.length = 240 := by decide +kernel
  have hm : tRestore.mem.cells = Memory.store [] hostBase tImage := by decide +kernel
  have hr : ∀ b, 240 ≤ b → (Memory.store [] hostBase tImage).read b = 0 := by
    intro b hb
    have h := Memory.read_store_outside [] hostBase tImage b (Or.inr (h4.symm ▸ hb))
    rw [h]
    rfl
  have h5 : tRestore.mem.cells.bytes (0 + 240) 3856 = List.replicate 3856 0 := by
    rw [hm]
    exact bytes_zero _ _ _ hr
  have h6 : tRestore.bytes 0 (240 + 3856) = tImage ++ List.replicate 3856 0 := (bytes_split tRestore.mem.cells 240 3856 0).trans (congrArg₂ (· ++ ·) h3 h5)
  rw [h1, h2]
  exact h6

theorem tRestore_zeros (R : List Nat) (h : ∀ x ∈ R, x = 0) : ((tImage ++ R).drop 0x190).all (fun x => x == 0) = true := by
  rw [List.all_eq_true]
  intro x hx
  have h3 : (tImage ++ R).drop 0x190 = R.drop 160 := by
    rw [List.drop_append, List.drop_of_length_le (by decide +kernel)]
    have : 0x190 - tImage.length = 160 := by decide +kernel
    rw [this, List.nil_append]
  rw [h3] at hx
  rw [h x (List.mem_of_mem_drop hx)]; rfl

theorem restore_passes (s : State) (d : Desc) (img : List Nat) (hn : d.num 0x10 8 = 4096) (hb : s.bytes (hostBase + d.num 8 8) 4096 = img) (ht : img.take 4096 = img) (hd : img.drop 4096 = [])
    (f0 : fieldOf img 0 1 = 1) (f1 : fieldOf img 1 1 = 1) (f2 : fieldOf img 0x44 4 = 0) (f3 : (img.drop 0x190).all (fun x => x == 0) = true) (f4 : fieldOf img 0x48 8 = 4096)
    (f5 : (img.drop 0xD0).take 32 = sha256 []) (f6 : s.keyOk 0 0 (fieldOf img 0x0A 2) = true) (f7 : fieldOf img 0x40 4 = (s.word .GLB_FW_VER).toNat) (f8 : fieldOf img 2 1 = 0)
    (f9 : parseSections img = []) (f10 : s.flag .RING_SIZE_ENABLE 0 (d.byte 0x18) = true) (f11 : bit (fieldOf img 9 1) 1 = false) : (s.restoreCheck 0 d).1 = stOk := by
  have b0 : bit 1 0 = true := by decide
  have b1 : bit 1 1 = false := by decide
  unfold State.restoreCheck
  simp only [hn, hb, ht, hd, f0, f1, f2, f3, f4, f5, f6, f7, f8, f9, f10, f11, b0, b1]
  simp

theorem witness_RestorePasses : tRestore.starting 0 0 0 0x0E = some tRestoreDesc ∧ (tRestore.restoreCheck 0 tRestoreDesc).1 = stOk := by
  refine ⟨by decide, ?_⟩
  have hn : tRestoreDesc.num 0x10 8 = 4096 := by decide
  have hb := tRestore_bytes
  rw [hn] at hb
  have hl : tImage.length = 240 := by decide +kernel
  have hl2 : (tImage ++ List.replicate 3856 0).length ≤ 4096 := by rw [List.length_append, List.length_replicate, hl]
  refine restore_passes tRestore tRestoreDesc (tImage ++ List.replicate 3856 0) hn hb (List.take_of_length_le hl2) (List.drop_of_length_le hl2) ?_ ?_ ?_
    (tRestore_zeros _ (fun x hx => (List.mem_replicate.mp hx).2)) ?_ ?_ ?_ ?_ ?_ ?_ ?_ ?_
  all_goals decide +kernel

theorem witness_Restore : let s := (tWith tRestoreDesc).setFld .RING_SIZE_ENABLE 1 0 0
    s.starting 0 0 0 0x0E = some tRestoreDesc ∧ s.cqFree 0 (tRestoreDesc.byte 0x18) ≠ 0 ∧ (s.setRing 0 0 { s.ring 0 0 with cqHead := 1 }).cqFree 0 0 = 0
    ∧ ((tWith (tDesc 0x0E [])).restoreCheck 0 (tDesc 0x0E [])).1 ≠ stOk := by decide

theorem witness_Swatches : let d := tDesc 0x0F [2, 0, 0, 0, 5]
    let e := tDesc 0x10 [0, 0, 0, 0, 5]
    let w : Swatch := { id := 5, peer := 2 }
    (tWith d).starting 0 0 0 0x0F = some d ∧ (tWith d).det.swatch = none ∧ w.phase ≠ .ended ∧ (tWith e).starting 0 0 0 0x10 = some e
    ∧ ((tWith e).setSwatch (some { w with phase := .ended })).det.swatch = some { w with phase := .ended } ∧ w.id = e.num 0x0C 4 ∧ w.desc = none ∧ ({ w with desc := some (0, 1) } : Swatch).phase = .handshake
    ∧ (tWith e).openTo 11 0 = true := by decide

theorem witness_SwatchUnits : let m : StvMsg := { dest := 0, src := 2, kind := 2, mflags := 0, payload := [1, 0, 0, 0, 5, 0, 0, 0, 7, 0, 0, 0] ++ List.replicate 32 9 }
    let w : Swatch := { id := 5, peer := 2, phase := .running, table := [⟨⟨0, 0, 7, [1]⟩, false, 0⟩] }
    let s := (tReady.setSwatch (some w)).onStave (fun v => { v with rx := [m] })
    (s.takeMsg 2).map (·.1) = some m ∧ w.role = 0 ∧ w.verdict = vRunning ∧ w.peer = m.src ∧ w.id = fieldOf m.payload 4 4 ∧ fieldOf m.payload 0 1 = 1
    ∧ w.table.find? (fun e => e.peer != true && sameKey e.item ⟨0, 0, 7, List.replicate 32 9⟩) = some ⟨⟨0, 0, 7, [1]⟩, false, 0⟩ ∧ w.table.length < 1024 := by decide

/-! ### The control lane -/

def tLane (a b : Nat) : State := ((tReady.setFld .CTL_CTRL_LANE_EN 1).setFld (stateFld 0) a).setFld (stateFld 1) b

theorem witness_Halves : (tLane halfOff halfOff).openTo 9 0 = true ∧ (tLane halfOff halfOff).flag .CTL_CTRL_LANE_EN = true ∧ (tLane halfOff halfOff).halfSt 1 = halfOff ∧ ((tLane halfOff halfOff).half 1).nextPlace = none
    ∧ (tLane halfFailed halfActive).halfSt 1 = halfActive ∧ (tLane halfFailed halfActive).halfSt 0 = halfFailed ∧ (tLane halfScrub halfSelftest).halfSt 0 = halfScrub ∧ (tLane halfScrub halfSelftest).halfSt 1 = halfSelftest
    ∧ tReady.flag .CTL_CTRL_LANE_EN = false := by decide

theorem witness_HalfLoads : let s := tLane halfLoad halfOff
    s.halfSt 0 = halfLoad ∧ (s.half 0).loaded = false ∧ s.halfIn halfActive = none ∧ s.halfIn halfStandby = none ∧ (s.half 1).arming = .none ∧ s.flag .CTL_STATE_LOST = false
    ∧ (s.setFld .CTL_STATE_LOST 1).flag .CTL_STATE_LOST = true ∧ (s.onLane (fun l => { l with pkg := some {} })).halfPkg 0 = some {} ∧ (tLane halfLoad halfActive).halfIn halfActive ≠ none := by decide

/-- A package of one axis and one group. -/
def tPkg : LanePkg := { cut := 8, axes := [{ axis := 3, inWords := 1, outWords := 1 }], groups := [{}] }

theorem witness_Install : let s := tReady.setModel 0 { st := .resident, realm := 0 }
    s.openTo 9 0 = true ∧ s.lane.seq = none ∧ s.lane.swap = none ∧ (s.srv.model (s.fld .CTL_CTRL_LANE_MODEL)).st = .resident ∧ (s.srv.model (s.fld .CTL_CTRL_LANE_MODEL)).realm = s.laneOwner
    ∧ pkgInLimits tPkg = true ∧ tPkg.tsnOk = true ∧ pkgInLimits {} = false ∧ ({ tPkg with tsnOk := false } : LanePkg).tsnOk = false ∧ (tLane halfActive halfStandby).halfIn halfStandby ≠ none
    ∧ (tLane halfActive halfOff).halfIn halfStandby = none ∧ (s.onLane (fun l => { l with swap := some 5 })).lane.swap.isSome = true := by decide

theorem witness_LaneSwitches : (tLane halfActive halfStandby).openTo 9 0 = true ∧ (tLane halfActive halfStandby).windowOpen (tLane halfActive halfStandby).laneOwner = true ∧ (1 : Nat) ≠ (tLane halfActive halfStandby).laneOwner
    ∧ bit 1 0 = (tLane halfActive halfStandby).flag .CTL_CTRL_LANE_EN ∧ bit 0 0 = false ∧ tReady.flag .CTL_CTRL_LANE_EN = false := by decide

def tPeriod : State := (tLane halfActive halfStandby).onLane (fun l => { l with pkg := some tPkg, period := some 4, launchAt := some 0 })

theorem witness_Periods : tPeriod.up = true ∧ tPeriod.lane.pkg = some tPkg ∧ tPeriod.lane.period = some 4 ∧ tPeriod.halfIn halfActive = some 0 ∧ tPeriod.lane.launchAt ≠ none ∧ tPeriod.lane.answered = false
    ∧ tPeriod.lane.heldOut = false ∧ (if tPeriod.holdAt tPkg < tPeriod.gauge then (none : Option Nat).or (some 3) else none) = none
    ∧ (if tPeriod.holdAt tPkg < ({ tPeriod with gauge := 10 ^ 6 } : State).gauge then (none : Option Nat).or (some 3) else none) = some 3
    ∧ (tPeriod.onLane (fun l => { l with ckpt := some ({ period := 4, bytes := [] }, 1) })).lane.ckpt = some ({ period := 4, bytes := [] }, 1) := by decide

theorem witness_Claims : claimHigher 1 (tPeriod.fld .CTL_CLAIM_LAST_LAST) = true ∧ claimHigher 1 ((tPeriod.setFld .CTL_CLAIM_LAST_LAST 1).fld .CTL_CLAIM_LAST_LAST) = false ∧ tPeriod.halfSt (otherHalf 1) = halfActive
    ∧ tPeriod.halfSt (otherHalf 0) ≠ halfActive ∧ tPeriod.halfIn halfActive = some (otherHalf 1) ∧ tPeriod.halfSt 1 = halfStandby ∧ (tPeriod.half 1).bad = 0 ∧ tPeriod.halfIn halfStandby = some 1
    ∧ (tPeriod.half 1).arming = .none ∧ (tPeriod.half (otherHalf 1)).accepted = 0 ∧ (tPeriod.half 1).copy.map LaneCopy.period ≠ some 4
    ∧ (tLane halfActive halfShadow).halfIn halfShadow = some 1 ∧ ((tLane halfActive halfShadow).half 1).fresh = false ∧ ((tPeriod.onLane (fun l => { l with sent := some { period := 4, bytes := [] } })).lane.sent).isSome = true := by decide

theorem witness_LaneFrames : let s := ((tReady.setFld .CTL_PORT_STS_LINK_UP 1 0 2).onLane (fun l => { l with pkg := some tPkg }))
    s.up = true ∧ s.portUp 2 = true ∧ laneHeaderOk (1 + 3 * 256 + 65536) [5] = true ∧ ((s.lane.pkg.map LanePkg.axes).getD []).any (fun a => a.axis == bits (1 + 3 * 256 + 65536) 8 8 && a.queue == 0) = true
    ∧ (s.queue 8).gap = none ∧ (s.queue 8).words.length + 2 ≤ 32 ∧ 32 < ((s.setQueue 8 { words := List.replicate 31 0 }).queue 8).words.length + 2 ∧ laneHeaderOk 0 [] = false ∧ s.lane.pkg = some tPkg
    ∧ s.flag .CTL_CTRL_TS_ROLE = false ∧ (s.setFld .CTL_STATE_TS_LOCK 1).flag .CTL_STATE_TS_LOCK = true ∧ s.portsOff = false ∧ (s.port 2).link ≠ true
    ∧ s.flag .CTL_PORT_STS_QUARANTINE 0 2 = false ∧ bit (s.port 2).cfg 0 = true := by decide

theorem witness_Ingress : let q : IQueue := { words := itemWords [1 + 3 * 256 + 65536, 5] }
    (readItem 32 [] q []).1 = [((itemWords [1 + 3 * 256 + 65536, 5]).getD 0 0, false), ((itemWords [1 + 3 * 256 + 65536, 5]).getD 1 0, false)] ∧ wordGap ((itemWords [1 + 3 * 256 + 65536, 5]).getD 0 0) = false := by decide

/-! ### The video engine -/

def tVidDesc : Desc := tDesc 0x0A [0, 0, 0, 0, 1, 0, 0, 0]
def tVidRun : VidRun := { ring := 0, uid := 1, no := 1, parts := 2, waiting := [1], running := [0] }
def tVid (x : VidStrm) : State := ((tWith tVidDesc).setFld .VID_CTRL_ENABLE 1).setStrm 0 x

theorem witness_VideoFrame : (tVid {}).starting 0 0 0 0x0A = some tVidDesc ∧ (tVid {}).gated gVideo = false ∧ tVidDesc.num 8 2 < 256 ∧ (∀ e ∈ ((tVid {}).ring 0 0).descs, e.ty = 0x0A → e.num 8 2 = tVidDesc.num 8 2 → e.uid < 1 → e.acted = true)
    ∧ (tVid {}).strm 0 = {} ∧ tVidDesc.num 0x0C 4 ≠ 0 ∧ tVidDesc.num 0x0C 4 ≠ 0xFFFFFFFF ∧ ({} : VidStrm).st ≠ .opened ∧ (tDesc 0x0A [0, 0, 0, 0, 0xFF, 0xFF, 0xFF, 0xFF]).num 0x0C 4 = 0xFFFFFFFF
    ∧ ({ st := .opened } : VidStrm).nextNo = 1 ∧ ({ st := .opened, params := { frames := 1 } } : VidStrm).freeBuf = some 0 := by decide

theorem witness_VideoCores : let x : VidStrm := { st := .opened, cur := some { tVidRun with waiting := [0, 1], running := [] } }
    let s := tVid x
    s.ready = true ∧ s.workHeld = false ∧ s.coreOpen 3 = true ∧ s.flag .VID_CTRL_ENABLE = true ∧ Tab.find 3 s.vid.cores = none ∧ (firstPart (s.readyParts 3)).map (·.1) = some 0
    ∧ (tVidRun.waiting.find? (fun q => !tVidRun.rerun.contains (q, 3))) = some 1 := by decide

theorem witness_VideoEnds : let s := (tVid { st := .opened, cur := some tVidRun }).onVid (fun v => { v with cores := [(3, (0, 1, 0))] })
    Tab.find 3 s.vid.cores = some (0, 1, 0) ∧ (s.strm 0).cur = some tVidRun ∧ tVidRun.running.contains 0 = true ∧ tVidRun.killed = false ∧ tVidRun.ended + 1 < tVidRun.parts
    ∧ ({ tVidRun with parts := 1 } : VidRun).parts ≤ ({ tVidRun with parts := 1 } : VidRun).ended + 1 ∧ s.descUid (0 / 256) tVidRun.ring tVidRun.uid = some tVidDesc
    ∧ s.openTo 10 0 = true ∧ vidKey (s.fld .VID_STRM_SEL_REALM) (s.fld .VID_STRM_SEL_STREAM) = 0 ∧ tVidRun.running ≠ [] ∧ ((tVid { st := .opened }).strm 0).queue = [] := by decide

/-! ### Security and updates -/

theorem witness_CommandBlocks : tReady.pageUp 13 = true ∧ tReady.flag .SEC_STATE_CMD_BUSY = false ∧ blockOp [0, 0x07] = 0x07 := by decide

theorem witness_RealmRequests : let s := tReady.setFld .SEC_CTRL_REQ_EN 1
    s.pageUp 13 = true ∧ s.windowOpen 0 = true ∧ bit ((s.reqSet 0 1 0 0 255).fld .SEC_STATE_REQ_BUSY) 0 = false
    ∧ ((s.reqSet 0 1 0 0 255).setFld .SEC_REQ_STS_DONE 0 0 0).flag .SEC_CTRL_REQ_EN = true ∧ ((tReady.reqSet 0 1 0 0 255).setFld .SEC_REQ_STS_DONE 0 0 0).flag .SEC_CTRL_REQ_EN = tReady.flag .SEC_CTRL_REQ_EN
    ∧ ((s.setRealm 3 { st := .creating }).realm 3).st = .creating ∧ ((s.setRealm 3 { st := .destroying }).realm 3).st = .destroying ∧ s.sec.waiting = none
    ∧ (s.setFld .SEC_STATE_DEBUG 1).fld .SEC_STATE_DEBUG ≠ 0 := by decide

theorem witness_Updates : let s := fun n => tReady.setFld .FWU_STATE_STATE n
    (s 0).pageUp 14 = true ∧ (s 0).fwuSt = fwuIdle ∧ (s fwuVerify).fwuSt = fwuVerify ∧ (s fwuApply).fwuSt = fwuApply ∧ (s fwuArmed).fwuSt = fwuArmed ∧ (s fwuTrial).fwuSt = fwuTrial ∧ (s fwuFallback).fwuSt = fwuFallback
    ∧ ((((s 0).setWord .FWU_SRC_LO 0 0 4096).word .FWU_SRC_LO).toNat + (((s 0).setWord .FWU_SRC_LO 0 0 4096).word .FWU_SRC_HI).toNat * 2 ^ 32) / 4096 ≠ 0
    ∧ (s fwuVerify).fwuVerifyErr [] ≠ 0 ∧ (s fwuFallback).safePoint = true ∧ (s fwuFallback).flag .CTL_CTRL_LANE_EN = false ∧ (s fwuApply).fld .GLB_STATE_STAGE ≠ 5 ∧ (s 0).mayConfirm = false
    ∧ (((s 0).setTile 152 { nextUcode := some 7 }).tile 152).nextUcode = some 7 ∧ (((s 0).setTile 152 { nextUcode := some 7 }).tile 152).st = .idle ∧ ((s 0).setTile 152 { nextUcode := some 7 }).earlierWaits 152 = false
    ∧ ((s 0).setTile 0 { nextUcode := some 7, st := .running }).up = true := by decide

/-! ### Clocks and the chain -/

theorem witness_Clocks : let s := (tReady.setFld .CLK_CTRL_AUTO_TRIM 1).setFld .CLK_STATE_REF_OK 1
    s.openTo 1 0 = true ∧ s.flag .CLK_CTRL_AUTO_TRIM = true ∧ s.flag .CLK_STATE_REF_OK = true ∧ (s.setFld .CLK_TRIM_CODE 511).fld .CLK_TRIM_CODE = 511 ∧ (s.setFld .CLK_TRIM_CODE 0).fld .CLK_TRIM_CODE = 0
    ∧ s.fld .CLK_TRIM_CODE < 511 ∧ 0 < (s.setFld .CLK_TRIM_CODE 1).fld .CLK_TRIM_CODE ∧ s.boot.pllStable = true ∧ (s.setFld .CLK_STATE_REF_OK 0).flag .CLK_STATE_REF_OK = false ∧ (s.setFld .CLK_STATE_RAMP_BUSY 1).flag .CLK_STATE_RAMP_BUSY = true
    ∧ (s.setFld .CLK_STATE_GATE_PEND 1).flag .CLK_STATE_GATE_PEND = true ∧ s.fld .CLK_TILE_SEL_CLU < 9
    ∧ (([9].filter (fun d => decide (d < 10) && d != gaugeDomain)).any (fun d => (s.onClk (fun c => { c with lastBad := [9] })).clk.lastBad.contains d)) = true
    ∧ (([9].filter (fun d => decide (d < 10) && d != gaugeDomain)).any (fun d => s.clk.lastBad.contains d)) = false := by decide

theorem witness_Chain : let s := tReady.setFld .STV_STATE_ATTACH 2
    let h := s.setFld .STV_STATE_HEAD 1
    let m : StvMsg := ⟨0xFF, 1, 3, 0, List.replicate 12 0⟩
    s.running_ = true ∧ s.fld .STV_STATE_ATTACH = 2 ∧ s.flag .STV_STATE_HEAD = false ∧ frameGood [] = false ∧ h.flag .STV_STATE_HEAD = true ∧ s.pageUp 2 = true ∧ s.openTo 2 0 = true ∧ s.openTo 3 0 = true
    ∧ (s.setFld .GAU_STATE_STATE gauLocked).gau = gauLocked ∧ (h.onStave (fun x => { x with lost := 3 })).stave.lost = 3 ∧ ((tReady.setFld .STV_STATE_ATTACH 0).setFld .STV_CTRL_ATTACH_EN 1).fld .STV_STATE_ATTACH = 0
    ∧ h.launchCount < h.gauge + 640000 ∧ h.stave.tx.length < 16 ∧ (h.onStave (fun x => { x with round := some 9 })).stave.round = some 9 ∧ h.det.swatch = none
    ∧ [m].find? (fun m => m.kind == 3) = some m ∧ [{ m with kind := 4 }].find? (fun m => m.kind == 4) = some { m with kind := 4 } ∧ bit m.mflags 3 = false
    ∧ [{ m with kind := 1 }].find? (fun m => m.kind == 1) = some { m with kind := 1 } := by decide

theorem test_crc_frame (b : List Nat) (h : b.length = 1493) : frameGood (b ++ leBytes 4 (crc32c b)) = true := by
  have hc : crc32c b < 2 ^ 32 := by unfold crc32c not32; omega
  have e : leNum (leBytes 4 (crc32c b)) = crc32c b := by simp only [leBytes, leNum]; omega
  have l : (leBytes 4 (crc32c b)).length = 4 := rfl
  have k : (leBytes 4 (crc32c b)).take 4 = leBytes 4 (crc32c b) := rfl
  simp only [frameGood, fieldOf, List.length_append, h, l, List.drop_left' h, List.take_left' h, k, e, beq_self_eq_true, stvBody, Bool.true_and]

theorem test_empty_slots (l : List Nat) : ((l.map (fun k => slotBytes (([] : List (Option StvMsg)).getD k none))).flatten).length = 64 * l.length := by
  induction l with
  | nil => rfl
  | cons a l ih =>
    have e : (slotBytes (([] : List (Option StvMsg)).getD a none)).length = 64 := rfl
    rw [List.map_cons, List.flatten_cons, List.length_append, ih, e, List.length_cons]
    omega

theorem witness_goodFrame : frameGood (frameBytes { slots := [] }) = true := by
  refine test_crc_frame _ ?_
  simp only [List.length_append, test_empty_slots, List.length_range, leBytes, List.length_cons, List.length_nil]

theorem witness_Launch : let s := ((tReady.setFld .STV_STATE_HEAD 1).setWord .STV_LAUNCH_LO 0 0 640000)
    s.gauge + 640000 ≤ s.launchCount ∧ (tReady.setFld .GAU_CTRL_SERVO_EN 1).flag .GAU_CTRL_SERVO_EN = true := by decide

/-! ### Errors -/

def tErr : ErrRec := { sev := 2, cause := 0x0002, kind := 0, index := 152, scope := 0 }
def tFlt (q cur : List ErrRec) : State := tReady.onFlt (fun f => { f with queue := q, cur := cur })

theorem witness_Errors : nextErr [tErr] = some tErr ∧ nextErr [] = none ∧ (tFlt [tErr] []).up = true ∧ (tFlt [tErr] []).flt.mpDown = false ∧ (tFlt [tErr] []).errClosed tErr = false ∧ tErr.cause ≠ 7
    ∧ (tFlt [tErr] []).halfOn tErr.index = none ∧ (tFlt [tErr] [{ tErr with sev := 3 }]).flt.cur.head? = some { tErr with sev := 3 } ∧ tErr.sev ≤ 3
    ∧ (tFlt [] [tErr]).flt.cur.find? (fun e => e.kind == 0 && e.index == 152) = some tErr ∧ nextErr [{ tErr with kind := 4 }] = some { tErr with kind := 4 }
    ∧ (tReady.onFlt (fun f => { f with copying := some 63 })).flt.copying = some 63
    ∧ unitKey 0 152 ∈ (tReady.onFlt (fun f => { f with retiring := [unitKey 0 152] })).flt.retiring ∧ tReady.tileBusy 152 = false ∧ tReady.flag .GLB_STATE_READY = true
    ∧ (tReady.flt.units.map Prod.fst).Nodup := by decide

theorem witness_TilesRetire : tReady.tileRetired 16 = false ∧ tReady.halfOn 16 = none ∧ tReady.tilePlace 16 = none ∧ (tReady.tilePlace 0) = some 0 ∧ tReady.spareTile 0 = some 16
    ∧ (tReady.setTile 0 { st := .running }).tileBusy 0 = true ∧ tReady.flt.cur.any (fun e => e.kind == 0 && e.index == 0) = false ∧ (tReady.setTile 0 { retired := true }).tileRetired 0 = true := by decide

theorem witness_Worn : let s := tReady.onFlt (fun f => { f with worn := { on := true, okSince := some 0 } })
    s.flt.worn = { on := true, okSince := some 0 } ∧ s.flt.degraded.on = false ∧ s.flt.service.on = false ∧ s.flt.failed = false ∧ 650 ≤ s.modScore ∧ s.lossNow = false ∧ s.laneLost = false ∧ s.flt.mpError = none := by decide +kernel

theorem witness_Units : let k := tReady.setFld .FLT_UNIT_SEL_KIND 1
    tReady.openTo 12 0 = true ∧ 0 = tReady.fld .FLT_UNIT_SEL_INDEX ∧ tReady.fld .FLT_UNIT_SEL_KIND = 0 ∧ k.fld .FLT_UNIT_SEL_KIND = 1 ∧ k.cluRetired 0 = false ∧ k.blockBusy 256 = false
    ∧ (k.setTile 5 { st := .running }).blockBusy 256 = true ∧ k.flag .CTL_CTRL_LANE_EN = false ∧ k.logCluster 7 = some 7
    ∧ (k.setCluster 7 { k.cluster 7 with retired := true, was := some 7 }).spareCluster = some 8 ∧ (k.setCluster 0 { retired := true }).cluRetired 0 = true
    ∧ ((k.setCluster 8 { retired := true }).setCluster 7 { k.cluster 7 with retired := true, was := some 7 }).spareCluster = none
    ∧ bit ((tReady.setFld .FLT_SPARES_VID_RETIRED 1).fld .FLT_SPARES_VID_RETIRED) 0 = true ∧ tReady.freezeArmed = false ∧ (tReady.setFld .SEC_STATE_DEBUG 1).freezeArmed = true
    ∧ tReady.sec.planned = false ∧ tReady.fwuSt ≠ fwuTrial ∧ (tReady.onSec (fun x => { x with planned := true, migrating := true })).sec.planned = true := by decide

/-! ### The configuration CRC, resets, and register windows -/

theorem witness_Crc : let c : CrcRun := {}
    tReady.pageUp 0 = true ∧ tReady.boot.crc = none ∧ (tReady.onBoot (fun b => { b with crc := some c })).boot.crc = some c ∧ c.next = none ∧ c.commit = false ∧ c.held = false ∧ tReady.crcHeld = false
    ∧ (tReady.onBoot (fun b => { b with hasCommit := true })).boot.hasCommit = true ∧ (tReady.setFld .GLB_CRC_CTRL_CHECK_EN 1).flag .GLB_CRC_CTRL_CHECK_EN = true ∧ (tReady.setFld .GLB_CRC_CTRL_RESTORE 0).flag .GLB_CRC_CTRL_RESTORE = false
    ∧ (tReady.onBoot (fun b => { b with fwHoldSince := some 0, holdSince := some 0, stuckSet := true })).boot.fwHoldSince = some 0 ∧ tReady.boot.stuckSet = false ∧ tReady.boot.fwStuckSet = false := by decide

theorem witness_Resets : let at_ := fun n => State.reset.setFld .GLB_STATE_STAGE n
    State.reset.pageUp 0 = true ∧ (State.reset.onBoot (fun b => { b with armedUntil := some 0 })).boot.armedUntil = some 0 ∧ State.reset.boot.armedUntil = none ∧ (State.reset.side 2).effect = false
    ∧ (at_ 0).fld .GLB_STATE_STAGE = 0 ∧ (at_ 1).fld .GLB_STATE_STAGE = 1 ∧ (at_ 2).fld .GLB_STATE_STAGE = 2 ∧ (at_ 3).fld .GLB_STATE_STAGE = 3 ∧ (at_ 3).up = true ∧ (at_ 3).boot.trained = false ∧ (at_ 3).boot.cleared = false
    ∧ (at_ 2).running.present = true ∧ (at_ 2).pwr.shutdown = false ∧ (at_ 2).pwr.stuckDue = false ∧ ((at_ 2).setOther { present := true, rejected := true }).other.rejected = true := by decide

theorem witness_Writes : tReady.up = true ∧ accessOk 2 4 = false ∧ tReady.pageOf .fw 0 = some (0, 0) ∧ tReady.pageOf (.realm 0) 0xE000 = none ∧ msixWord (.realm 0) 0xE000 = none ∧ tReady.pageOf .mgmt 0xE000 = none
    ∧ msixWord .mgmt 0xE000 = some 0 ∧ tReady.openTo 0 0 = true ∧ State.reset.openTo 4 0 = false ∧ tReady.flt.mpDown = false ∧ tReady.boot.requests = []
    ∧ (tReady.onBoot (fun b => { b with requests := [⟨0, 0, 0, 0⟩] })).boot.requests = [⟨0, 0, 0, 0⟩] := by decide

theorem witness_plainWrite : (Reg.FLT_UNIT_SEL.row).any (fun x => x.sqc == 0 && x.w1p == 0 && !ruledRegs.contains x.reg && !realmOnly x.reg && !mgmtDirect x.reg) = true := by decide

theorem witness_Sequence : let q : Sqc := { c := 255, setBits := [(31, 255)] }
    (q.setBits.map Prod.fst).Nodup ∧ Tab.find 31 q.setBits = some 255 ∧ Tab.find 0 q.setBits = none ∧ tReady.sqcAt .fw Reg.CLK_STS.off = none ∧ tReady.sqcAt .fw (4096 + Reg.CLK_STS.off) = some (.CLK_STS, 0) := by decide

/-! ### Inputs, links, rails and coolant -/

theorem witness_Sideband : let up := fun (i : Nat) => tReady.setSide i { level := true, effect := true }
    tReady.pwr.side.length = 3 ∧ tReady.side 1 = {} ∧ (tReady.side 0).level = false ∧ ((up 1).side 1).level = true ∧ ((up 1).side 1).fast = false ∧ ((up 1).side 1).changes = [] ∧ ((up 1).side 1).effect = true
    ∧ tReady.freezeArmed = false ∧ (tReady.setFld .SEC_STATE_DEBUG 1).freezeArmed = true ∧ ((up 0).side 0).level = true ∧ ((up 2).side 2).stuck = false ∧ tReady.boot.bench = false ∧ (up 2).pwr.side.length = 3
    ∧ ((tReady.setSide 0 { fast := true }).side 0).fast = true := by decide

theorem witness_Links : let s := tReady.onBoot (fun b => { b with linkUp := true })
    s.up = true ∧ s.boot.pllStable = true ∧ s.boot.linkUp = true ∧ tReady.boot.linkUp = false ∧ s.pwr.aux = true ∧ (s.onPwr (fun p => { p with aux := false })).pwr.aux = false
    ∧ (s.onPwr (fun p => { p with dip := true })).pwr.dip = true ∧ s.pwr.back = none ∧ (s.onPwr (fun p => { p with back := some 0 })).pwr.back = some 0 := by decide

/-- A coolant record of 16 bytes with FLOW valid. -/
def tRecord : List Nat := let b := [1, 1, 7, 0, 0x2C, 1, 0x5E, 1, 0xE8, 3, 0, 0, 0, 0]
  b ++ leBytes 2 (recordCrc b)

theorem witness_Coolant : tRecord.length = 16 ∧ (∀ x ∈ tRecord, x < 256) ∧ fieldOf tRecord 0 1 = 1 ∧ fieldOf tRecord 0x0E 2 = recordCrc (tRecord.take 14) ∧ bit (fieldOf tRecord 1 1) 0 = true ∧ tReady.pwr.seq ≠ some (fieldOf tRecord 2 2)
    ∧ ([] : List Nat).length ≠ 16 := by decide +kernel

theorem witness_Power : let s := tReady.onPwr (fun p => { p with goodSince := some 0, held := some 4, lastAt := some 0 })
    s.pwr.goodSince = some 0 ∧ s.pwr.held = some 4 ∧ s.pwr.lastAt = some 0 ∧ s.pwr.dip = false ∧ s.flag .THM_STATE_TRIP = false ∧ s.coolEnough = true ∧ survivalW ≤ s.pwr.cool.getD survivalW ∧ s.pwr.spots = []
    ∧ s.flag .CTL_CTRL_LANE_EN = false ∧ s.boot.powered = true := by decide

/-! ### Whole-machine statements -/

theorem witness_Stores : Memory.wf [] = true ∧ Fld.fits .GLB_STATE_STAGE ∧ Fld.fits .GLB_STATE_READY := by unfold Fld.fits; decide

theorem witness_Frozen : (tReady.onFlt (fun f => { f with frozen := true })).frozenInv := by unfold State.frozenInv; decide

theorem witness_Freeze : let s := { tReady.setFld .SEC_STATE_DEBUG 1 with pending := [.freeze .fw] }
    s.pending = [.freeze .fw] ∧ s.openTo 12 0 = true ∧ s.freezeArmed = true := by decide
end

/-! SUPPORT. The rules of an internal queue (R211-R213): reading a queue after a write, when a pending gap marker stays out of the chain, and the two ways an
arriving item can go. From them: an item enters whole or not at all. -/

namespace Sys2Proof.Machine

/-! ### Reading a queue of the state -/

@[simp] theorem queue_setQueue_self (s : State) (q : Nat) (x : IQueue) : (s.setQueue q x).queue q = x := Tab.get_set_self _ _ _ _

theorem queue_setQueue_of_ne (s : State) {p q : Nat} (x : IQueue) (h : p ≠ q) : (s.setQueue q x).queue p = s.queue p :=
  Tab.get_set_of_ne _ _ _ h

/-! ### An item at a queue -/

@[simp] theorem itemWords_length (ws : List Nat) : (itemWords ws).length = ws.length := by simp [itemWords]

theorem enterGap_of_no_marker {x : IQueue} (q : Nat) (h : x.gap = none) : x.enterGap q = x := by
  unfold IQueue.enterGap; rw [h]

/-- A pending gap marker waits while the chain has no free entry (R213). -/
theorem enterGap_of_full {x : IQueue} (q : Nat) (h : 32 ≤ x.words.length) : x.enterGap q = x := by
  unfold IQueue.enterGap
  split
  · rw [if_neg (Nat.not_lt.mpr h)]
  · rfl

theorem admits_iff (x : IQueue) (n : Nat) : x.admits n = true ↔ x.words.length + n ≤ 32 ∧ x.gap = none := by
  simp [IQueue.admits]

theorem arrive_of_room {x : IQueue} (q : Nat) {ws : List Nat} (hgap : x.gap = none) (hroom : x.words.length + ws.length ≤ 32) :
    x.arrive q ws = { x with words := x.words ++ itemWords ws, dropping := false } := by
  unfold IQueue.arrive
  rw [enterGap_of_no_marker q hgap]
  exact if_pos ((admits_iff x _).mpr ⟨hroom, hgap⟩)

theorem arrive_of_not_admits {x : IQueue} {q : Nat} {ws : List Nat} (hstay : x.enterGap q = x) (hno : ¬ x.admits ws.length = true) :
    x.arrive q ws = { x.drop with dropping := false } := by
  unfold IQueue.arrive
  rw [hstay]
  exact if_neg hno

theorem arrive_of_no_room {x : IQueue} (q : Nat) {ws : List Nat} (hgap : x.gap = none) (hfull : 32 < x.words.length + ws.length) :
    x.arrive q ws = { x.drop with dropping := false } :=
  arrive_of_not_admits (enterGap_of_no_marker q hgap) fun h => Nat.not_le.mpr hfull ((admits_iff x _).mp h).1

/-- With a marker pending and no entry free, the marker stays pending and the item is dropped behind it. -/
theorem arrive_of_marker_pending {x : IQueue} (q : Nat) {ws : List Nat} {c : Nat} (hgap : x.gap = some c) (hfull : 32 ≤ x.words.length) :
    x.arrive q ws = { x.drop with dropping := false } :=
  arrive_of_not_admits (enterGap_of_full q hfull) fun h => Option.some_ne_none c (hgap.symm.trans ((admits_iff x _).mp h).2)

theorem drop_gap_of_no_marker {x : IQueue} (h : x.gap = none) : x.drop.gap = some 1 := by
  simp [IQueue.drop, satAt, h]

theorem drop_gap_of_marker {x : IQueue} {c : Nat} (h : x.gap = some c) : x.drop.gap = some (min 0xFFFFFFFF (c + 1)) := by
  simp [IQueue.drop, satAt, h]

/-! ### QUEUE_ITEM_ARRIVE -/

/-- The arrival of an item of one to eight words changes its own queue, as `IQueue.arrive` says, and nothing else. -/
theorem exec_queueItemArrive {q : Nat} {ws : List Nat} {s : State} {x : IQueue} (hup : s.up = true) (h1 : 1 ≤ ws.length) (h8 : ws.length ≤ 8)
    (hx : (s.queue q).arrive q ws = x) :
    ∃ t, exec (.queueItemArrive q ws) s = .next t ∧ t.queue q = x ∧ s.sameBut t [.queues] ∧ ∀ p, p ≠ q → t.queue p = s.queue p := by
  refine ⟨s.setQueue q x, ?_, queue_setQueue_self s q x, sameBut_queue s q x _ (List.mem_singleton.mpr rfl), fun _ => queue_setQueue_of_ne s x⟩
  change execQueueItemArrive q ws s = _
  simp [execQueueItemArrive, hup, h1, h8, hx]

/-- Settles O7: the three cases are those of `IQueue.arrive` that the statement names, room for the item, no room for it, and a marker pending on a full chain. -/
theorem itemsEnterQueuesWholeOrNotAtAll : Obligations.ItemsEnterQueuesWholeOrNotAtAll := by
  intro q ws s hup h1 h8
  refine ⟨fun hgap hroom => ?_, fun hgap hfull => ?_, fun c hgap hfull => ?_⟩
  · obtain ⟨t, ht, hq, hkeep, hothers⟩ := exec_queueItemArrive hup h1 h8 (arrive_of_room q hgap hroom)
    exact ⟨t, ht, by rw [hq], by rw [hq]; exact hgap, itemWords_length ws, hkeep, hothers⟩
  · obtain ⟨t, ht, hq, hkeep, hothers⟩ := exec_queueItemArrive hup h1 h8 (arrive_of_no_room q hgap hfull)
    exact ⟨t, ht, by rw [hq]; rfl, by rw [hq]; exact drop_gap_of_no_marker hgap, hkeep, hothers⟩
  · obtain ⟨t, ht, hq, hkeep, hothers⟩ := exec_queueItemArrive hup h1 h8 (arrive_of_marker_pending q hgap hfull)
    exact ⟨t, ht, by rw [hq]; rfl, by rw [hq]; exact drop_gap_of_marker hgap, hkeep, hothers⟩

end Sys2Proof.Machine

/-! SUPPORT. A module that is frozen, held in reset or without power takes no command but the supervisor's (R382, R446): every command stands behind one of a few
guards, each of which is closed while the module is not up. From them: a step of a frozen module only takes a command off the queue. -/

namespace Sys2Proof.Machine

/-! ### The conditions of the guards -/

section
variable {s : State} (hdown : s.up = false)
include hdown

theorem ready_of_down : s.ready = false := by simp [State.ready, hdown]
theorem pageUp_of_down (b : Nat) : s.pageUp b = false := by simp [State.pageUp, hdown]
theorem running_of_down : s.running_ = false := by simp [State.running_, hdown]
theorem doorbell_of_down (r v width top : Nat) : s.doorbell r v width top = false := by simp [State.doorbell, ready_of_down hdown]
theorem openTo_of_down (b u : Nat) : s.openTo b u = false := by simp [State.openTo, pageUp_of_down hdown]

/-! ### The guards of the module's own commands -/

theorem whenUp_of_down (f : State → State) : s.whenUp f = .next s := by simp [State.whenUp, hdown]
theorem whenReady_of_down (f : State → State) : s.whenReady f = .next s := by simp [State.whenReady, ready_of_down hdown]
theorem whenRunning_of_down (f : State → State) : s.whenRunning f = .next s := by simp [State.whenRunning, ready_of_down hdown]
theorem whenClocked_of_down (f : State → State) : s.whenClocked f = .next s := by simp [State.whenClocked, running_of_down hdown]
theorem bootStep_of_down (stage : Nat) (ok : Bool) (f : State → State) : s.bootStep stage ok f = .next s := by simp [State.bootStep, hdown]
theorem fwuUp_of_down (f : State → State) : s.fwuUp f = .next s := by simp [State.fwuUp, pageUp_of_down hdown]
theorem operator_of_down (code : List Nat) (r n i k : Nat) (env : OpEnv) (f : State → OpCtx → List Nat → OpRes) : s.operator code r n i k env f = .next s :=
  whenRunning_of_down hdown _
theorem idle_of_down : s.idle = s := by simp [State.idle, running_of_down hdown]

/-! ### The guards of a host access -/

theorem fwCommand_of_down (w : Win) (r : Reg) (u v : Nat) (f : State → State) : s.fwCommand w r u v f = .next s :=
  (fwCommand_spec s r u v f).2 (openTo_of_down hdown _ _) w
theorem tileCommand_of_down (w : Win) (p v : Nat) (f : State → State) : s.tileCommand w p v f = .next s := by
  simp [State.tileCommand, pageUp_of_down hdown]
theorem ringCommand_of_down (w : Win) (r : Nat) (f : State → State) : s.ringCommand w r f = .next s := by
  simp [State.ringCommand, pageUp_of_down hdown]
theorem direct_of_down (b : Nat) (w : Win) (f : State → State) : s.direct b w f = s := by simp [State.direct, pageUp_of_down hdown]
theorem secRow_of_down (w : Win) (op : Nat) (err : Bool) : s.secRow w op err = .next s := congrArg _ (direct_of_down hdown 13 w _)
theorem reqGo_of_down (r op mode use slot : Nat) (f : State → State) : s.reqGo r op mode use slot f = .next s := by
  simp [State.reqGo, pageUp_of_down hdown]
theorem regWrite_of_down (w : Win) (off size v : Nat) (env : RegEnv) : s.regWrite w off size v env = s := by simp [State.regWrite, hdown]

/-! ### Commands with a guard of their own -/

theorem execGenRun_of_down (w : Win) : execGenRun w s = .next s := by
  cases w with
  | realm r => simp [execGenRun, pageUp_of_down hdown]
  | mgmt | fw => simp [execGenRun, fwCommand_of_down hdown]

theorem execAckLost_of_down (w : Win) : execAckLost w s = .next s := by
  cases w with
  | realm r => simp [execAckLost, pageUp_of_down hdown]
  | mgmt | fw => simp [execAckLost, fwCommand_of_down hdown]

theorem execSqcRead_of_down (w : Win) (off : Nat) : execSqcRead w off s = .next s := by
  unfold execSqcRead
  cases s.sqcAt w off with
  | none => rfl
  | some e => simp [pageUp_of_down hdown]

/-! ### Every command -/

/-- A module that is not up leaves its state as it is at every command but the supervisor's; the cases are grouped by the guard that the command stands behind. -/
theorem exec_of_down {c : Instr} (hc : supervisorCommand c = false) : exec c s = .next s := by
  cases c with
  | nop | job | scatterKv | serveRequest | cancel | prefixRegister | prefixRelease | modelEvict | videoFrame | fence | launchAt | launchCountReached
  | snapshot | snapshotBoundary | snapshotImageWritten | restore | swatchBegin | swatchEnd | descriptorFetch | descriptorStart | jobTimeout
  | msixMessage | eqOverflow | pageFetchDone | spillStart | spillCopyDone | deferredReclaim | stepRetry | slotFree | accountLevelRefill
  | deadlinePass | modelEvictDone | digestDone | signatureDone | swatch | swatchUnitAge | swatchPeerSilence | knownAnswerPass | crcPeriodic =>
    apply whenReady_of_down hdown
  | dma | modelLoad | conv | group | tceDispatch | s2dRepack | haloRowWrite | haloRowRead | lbTimeout | select | sample | commitPoint | modelLoadDone
  | partDispatch =>
    apply whenRunning_of_down hdown
  | matmul | segSum | segMax | segMin | segMean | scatterAdd | msg | topk | sort | unique | gridBuild | knn | maxpool | avgpool | globalAvg | eltwise
  | random | attn =>
    apply operator_of_down hdown
  | scrubPass | columnSpareRewriteDone | gapMarkerEnter | queueWordRead | periodStart | laneFrameRx | ptpFrameRx | ingressRead | periodLaunch
  | evaluationDone | holdFrames | claim | stateCopyReceive | takeover | halfScrubDone | halfSelftestDone | halfLoadDone | shadowCompare
  | checkpointWrite | linkChange | upHoldExpiry | quarantineEnd | tsUnlock | partDone | genDone | errorHandling | tileRecoveryDone
  | channelCopyDone | retireHalted | healthHour | stateDwellExpiry | messageReject | mgmtWarmRestart | realmClearDone | debugExpiry | activation
  | microcodeLoad | confirm | confirmWindowExpiry | fallback | drawerAccrual | rcTrim | refLoss | clockRampDone | gatePendApply | crcDone
  | holdStuck | registerRequestApply | mainDip | mainReturn | dipRecoveryExpiry | auxLost | coolantRecordRead | coolantIbi | coolantStale
  | survivalExit | junctionRead | powerMeasure | envelopeUpdate =>
    apply whenUp_of_down hdown
  | frequencyMonitorWindow | refBack | staveFrameRx | gaugeHoldover | frameMark | ringOpen | attach | enumRoundEnd | launch | activate | state
  | stateSend | pllUnlock =>
    apply whenClocked_of_down hdown
  | refStable | pllStable | imageVerified | lpddr5Trained | memoryClearDone | settingsRestored =>
    apply bootStep_of_down hdown
  | verifyDone | applyDone =>
    apply fwuUp_of_down hdown
  | reclaimNow | kvmCntClr | halt | tilCvtWrite | cluCtrlWrite | lbFlush | cluCntClr | srvCntClr | accRefill | install | repair | laneRetire | swapArm
  | swapCancel | ctlCntClr | qFlush | laneEnWrite | gridWrite | strmKill | vidCntClr | detCntClr | swatchAbort | fltCntClr | retire | fltRepair
  | freeze | retrim | lowPowerWrite | gateWrite | realign =>
    apply fwCommand_of_down hdown
  | tilCntClr | scrubNow =>
    apply tileCommand_of_down hdown
  | ringReset | eqReset | ringCntClr =>
    apply ringCommand_of_down hdown
  | secCntClr | load | fwuAbort | enum | launchSend | actSend | stvCntClr | crcNow | crcCommit | crcRefWrite | resetArm | resetGo =>
    exact congrArg _ (direct_of_down hdown _ _ _)
  | ownerSet | ownerClear | realmCreate | realmDestroy | fwActivate | fwDisarm | debugArm | debugDisarm =>
    apply secRow_of_down hdown
  | provision | clear | attest | certs =>
    simp only [exec, execProvision, execClear, execAttest, execCerts, reqGo_of_down hdown]
  | ackLost => exact execAckLost_of_down hdown _
  | genRun => exact execGenRun_of_down hdown _
  | sqcRead => exact execSqcRead_of_down hdown _ _
  | gaugeRead => simp [exec, execGaugeRead, pageUp_of_down hdown]
  | registerWrite | sqcWrite => simp [exec, execRegisterWrite, execSqcWrite, regWrite_of_down hdown]
  | sqTail | cqHead | eqHead => simp [exec, execSqTail, execCqHead, execEqHead, doorbell_of_down hdown]
  | queueItemArrive | hostLinkReset | linkTraining | laneFail | laneRecordClear =>
    simp [exec, execQueueItemArrive, execHostLinkReset, execLinkTraining, execLaneFail, execLaneRecordClear, hdown]
  | powerOnReset | resetNChange | freezeNAssert | freezeNDeassert | alertNChange | sidebandStuck | sidebandFastEnd | mainLoss | junctionShutdown =>
    exact absurd hc (by simp [supervisorCommand])

end

/-! ### The step of a frozen module -/

theorem up_of_frozen {s : State} (h : s.flt.frozen = true) : s.up = false := by simp [State.up, h]

/-- A step of a frozen module takes the command at the front off the queue and does nothing else. -/
theorem step_of_frozenInv {s : State} (h : s.frozenInv) : step s = .next { s with pending := s.pending.tail } := by
  obtain ⟨hfrozen, hqueue⟩ := h
  unfold step
  match hp : s.pending with
  | [] =>
    have hsame : { s with pending := [] } = s := by rw [← hp]
    exact congrArg _ ((idle_of_down (up_of_frozen hfrozen)).trans hsame.symm)
  | c :: rest => exact exec_of_down (up_of_frozen (s := { s with pending := rest }) hfrozen) (hqueue c (hp ▸ List.mem_cons_self))

/-- Settles O59: a step of a frozen module shortens its queue alone, so the module stays frozen and the queue, a part of what it was, still holds no command of the supervisor's. -/
theorem aFrozenModuleStaysFrozen : Obligations.AFrozenModuleStaysFrozen := by
  intro s t hinv hstep
  obtain rfl : { s with pending := s.pending.tail } = t := by simpa using (step_of_frozenInv hinv).symm.trans hstep
  obtain ⟨hfrozen, hqueue⟩ := hinv
  refine ⟨⟨hfrozen, fun c hc => hqueue c (List.mem_of_mem_tail hc)⟩, fun p hp => ?_⟩
  cases p with
  | pending => exact absurd (List.mem_singleton.mpr rfl) hp
  | _ => rfl

end Sys2Proof.Machine

/-! SUPPORT. The rules of a sequence-cleared register (R459, R460): what its status bits hold after an event and after a write, and what an access to it
through a window does to the state. -/

namespace Sys2Proof.Machine

/-! ### Reading a table entry by entry -/

theorem Tab.find_eq_none_iff {α : Type} {k : Nat} {t : Tab α} : Tab.find k t = none ↔ k ∉ t.map Prod.fst := by
  induction t with
  | nil => simp [Tab.find]
  | cons e t ih =>
    obtain ⟨k', v⟩ := e
    by_cases hk : k' = k
    · simp [Tab.find, hk]
    · simp [Tab.find, hk, Ne.symm hk, ih]

theorem Tab.find_map_snd {α β : Type} (f : α → β) (k : Nat) (t : Tab α) :
    Tab.find k (t.map fun e => (e.1, f e.2)) = (Tab.find k t).map f := by
  induction t with
  | nil => rfl
  | cons e t ih =>
    simp only [List.map_cons, Tab.find]
    split
    · rfl
    · exact ih

/-- Of the entries that a filter keeps, the one at a key is the one the table has there, if the filter keeps that one: the keys are distinct, so no later entry stands
behind it. -/
theorem Tab.find_filter {α : Type} (p : Nat × α → Bool) (k : Nat) {t : Tab α} (h : (t.map Prod.fst).Nodup) :
    Tab.find k (t.filter p) = (Tab.find k t).filter fun v => p (k, v) := by
  induction t with
  | nil => rfl
  | cons e t ih =>
    obtain ⟨k', v⟩ := e
    obtain ⟨hfresh, hrest⟩ := List.nodup_cons.mp h
    by_cases hk : k' = k
    · subst hk
      have hgone : Tab.find k' (t.filter p) = none :=
        Tab.find_eq_none_iff.mpr fun hm => hfresh (List.map_subset _ (List.filter_subset_self t) hm)
      cases hp : p (k', v) <;> simp [Tab.find, Option.filter_some, hp, hgone]
    · cases hp : p (k', v) <;> simp [Tab.find, hp, hk, ih hrest]

/-- The same value put at every key of a list. -/
theorem Tab.find_foldl_put {α : Type} (c : α) (ks : List Nat) (k : Nat) (t : Tab α) :
    Tab.find k (ks.foldl (fun t b => Tab.put b c t) t) = if k ∈ ks then some c else Tab.find k t := by
  induction ks generalizing t with
  | nil => rfl
  | cons b ks ih =>
    rw [List.foldl_cons, ih]
    by_cases hb : k = b
    · subst hb; simp
    · simp [hb, Tab.find_put_of_ne]

/-! ### An event and a write -/

/-- After an event the bits that it sets hold its value, and the others what they held, carried to C - 127 where that lies 128 values behind. -/
theorem Sqc.find_event (q : Sqc) (mask : List Nat) (b : Nat) :
    Tab.find b (q.event mask).setBits = if b ∈ mask then some (q.event mask).c else
      (Tab.find b q.setBits).map fun v => if ((q.event mask).c + 256 - v) % 256 ≥ 128 then ((q.event mask).c + 129) % 256 else v := by
  rw [← Tab.find_map_snd]
  exact Tab.find_foldl_put _ mask b _

theorem Sqc.write_of_old {q : Sqc} {v : Nat} (h : 128 ≤ (q.c + 256 - v / 2 ^ 24 % 256) % 256) : q.write v = q := if_pos h

theorem Sqc.write_of_recent {q : Sqc} {v : Nat} (h : (q.c + 256 - v / 2 ^ 24 % 256) % 256 < 128) :
    q.write v = { q with setBits := q.setBits.filter fun e => !(bit v e.1 && decide ((v / 2 ^ 24 % 256 + 256 - e.2) % 256 ≤ 127)) } :=
  if_neg (Nat.not_le.mpr h)

/-- A write changes the status bits alone. -/
theorem Sqc.write_keeps (q : Sqc) (v : Nat) : (q.write v).c = q.c ∧ (q.write v).read = q.read := by
  rcases Nat.lt_or_ge ((q.c + 256 - v / 2 ^ 24 % 256) % 256) 128 with h | h
  · rw [Sqc.write_of_recent h]; exact ⟨rfl, rfl⟩
  · rw [Sqc.write_of_old h]; exact ⟨rfl, rfl⟩

/-- A write clears a bit where R460 says so, and leaves it with its S_b elsewhere. -/
theorem Sqc.find_write {q : Sqc} (v b : Nat) (h : (q.setBits.map Prod.fst).Nodup) :
    Tab.find b (q.write v).setBits = (Tab.find b q.setBits).bind fun x =>
      if (q.c + 256 - v / 2 ^ 24 % 256) % 256 < 128 ∧ bit v b = true ∧ (v / 2 ^ 24 % 256 + 256 - x) % 256 ≤ 127 then none else some x := by
  rcases Nat.lt_or_ge ((q.c + 256 - v / 2 ^ 24 % 256) % 256) 128 with hw | hw
  · rw [Sqc.write_of_recent hw]
    refine (Tab.find_filter _ b h).trans ?_
    generalize v / 2 ^ 24 % 256 = W at hw ⊢
    cases Tab.find b q.setBits with
    | none => rfl
    | some x =>
      cases hb : bit v b with
      | false => simp [Option.filter_some, hb]
      | true => by_cases hx : (W + 256 - x) % 256 ≤ 127 <;> simp [Option.filter_some, hb, hw, hx]
  · rw [Sqc.write_of_old hw]
    generalize v / 2 ^ 24 % 256 = W at hw ⊢
    simp [Nat.not_lt.mpr hw]

/-! ### The register behind an offset -/

theorem pageRows_block {b : Nat} {x : RegRow} (h : x ∈ pageRows b) : x.reg.block = b := by
  have hpages : ∀ c < 17, ∀ y ∈ pageRows c, y.reg.block = c := by decide
  rcases Nat.lt_or_ge b 17 with hb | hb
  · exact hpages b hb x h
  · obtain ⟨k, rfl⟩ := Nat.exists_eq_add_of_le' hb
    exact absurd h List.not_mem_nil

/-- The row of a register is found on the register's own page. -/
theorem row_block {r : Reg} {x : RegRow} (h : r.row = some x) : x.reg.block = r.block := pageRows_block (List.mem_of_find?_eq_some h)

/-- An offset that selects a sequence-cleared register lies on the page of the register's block. -/
theorem row_of_sqcAt {s : State} {w : Win} {off : Nat} {g : Reg} {u : Nat} (h : s.sqcAt w off = some (g, u)) :
    ∃ x, s.pageOf w off = some (g.block, u) ∧ (pageReg g.block off).row = some x ∧ x.sqc ≠ 0 ∧ x.reg = g := by
  obtain ⟨⟨b, u'⟩, hpage, hsel⟩ := Option.bind_eq_some_iff.mp h
  obtain ⟨x, hx, heq⟩ := Option.map_eq_some_iff.mp hsel
  obtain ⟨hrow, hsqc⟩ := Option.filter_eq_some_iff.mp hx
  obtain ⟨rfl, rfl⟩ := Prod.mk.inj heq
  obtain rfl : x.reg.block = b := row_block hrow
  exact ⟨x, hpage, hrow, of_decide_eq_true hsqc, rfl⟩

theorem openTo_iff {s : State} {b u : Nat} : s.openTo b u = true ↔ s.pageUp b = true ∧ s.blockGated b u = false := by simp [State.openTo]

/-! ### An access through a window -/

@[simp] theorem sqcOf_setSqc_self (s : State) (r : Reg) (u : Nat) (q : Sqc) : (s.setSqc r u q).sqcOf r u = q := Tab.get_set_self _ _ _ _

theorem sameBut_setSqc (s : State) (r : Reg) (u : Nat) (q : Sqc) : s.sameBut (s.setSqc r u q) [.sqc] := fun p hp => by
  cases p with
  | sqc => exact absurd (List.mem_singleton.mpr rfl) hp
  | _ => rfl

/-- An aligned write of 32 bits is one write of a word (R456). -/
theorem regWrite_word {s : State} {w : Win} {off : Nat} (v : Nat) (env : RegEnv) (hup : s.up = true) (hal : off % 4 = 0) :
    s.regWrite w off 4 v env = s.write32 w off (v % 2 ^ 32) env := by
  simp [State.regWrite, hup, accessOk, hal]

theorem write32_fw {s : State} {off b u : Nat} {x : RegRow} (v : Nat) (env : RegEnv) (hpage : s.pageOf .fw off = some (b, u))
    (hrow : (pageReg b off).row = some x) (hopen : s.openTo b u = true) : s.write32 .fw off v env = s.fwWrite x u v env := by
  obtain ⟨hpageUp, hclocked⟩ := openTo_iff.mp hopen
  simp [State.write32, hpage, hrow, hpageUp, hclocked]

/-- Firmware's write of a sequence-cleared register is a sequence clear; one of GLB_STS can also end the capture in GLB_CRC_DIFF (R463). -/
theorem fwWrite_sqc {s : State} {x : RegRow} (u v : Nat) (env : RegEnv) (hfw : realmOnly x.reg = false) (hsqc : x.sqc ≠ 0) (hglb : x.reg ≠ .GLB_STS) :
    s.fwWrite x u v env = s.setSqc x.reg u ((s.sqcOf x.reg u).write v) := by
  have hsel : s.fwWrite x u v env = s.sqcWrite x.reg u v := by
    rw [State.fwWrite, hfw]
    exact if_pos hsqc
  rw [hsel, State.sqcWrite]
  exact if_neg fun h => hglb h.1

section
variable {s : State} {off : Nat} {g : Reg} {u : Nat}

theorem exec_sqcWrite_fw (v : Nat) (hup : s.up = true) (hal : off % 4 = 0) (hat : s.sqcAt .fw off = some (g, u)) (hopen : s.openTo g.block u = true)
    (hglb : g ≠ .GLB_STS) (hfw : realmOnly g = false) :
    exec (.sqcWrite .fw off v) s = .next (s.setSqc g u ((s.sqcOf g u).write (v % 2 ^ 32))) := by
  obtain ⟨x, hpage, hrow, hsqc, rfl⟩ := row_of_sqcAt hat
  have hword : s.regWrite .fw off 4 v {} = s.setSqc x.reg u ((s.sqcOf x.reg u).write (v % 2 ^ 32)) := by
    rw [regWrite_word v {} hup hal, write32_fw _ {} hpage hrow hopen, fwWrite_sqc u _ {} hfw hsqc hglb]
  change execSqcWrite .fw off v s = _
  simp [execSqcWrite, hat, hal, hword]

/-- A read that the window answers marks the register read; one through the management window waits for the writes before it (R457). -/
theorem exec_sqcRead {w : Win} (hw : w = .fw ∨ (w = .mgmt ∧ s.boot.requests = [])) (hal : off % 4 = 0) (hat : s.sqcAt w off = some (g, u))
    (hopen : s.openTo g.block u = true) : exec (.sqcRead w off) s = .next (s.setSqc g u { s.sqcOf g u with read := true }) := by
  obtain ⟨hpageUp, hclocked⟩ := openTo_iff.mp hopen
  change execSqcRead w off s = _
  rcases hw with rfl | ⟨rfl, hnone⟩
  · simp [execSqcRead, hat, hpageUp, hclocked, hal]
  · simp [execSqcRead, hat, hpageUp, hclocked, hal, hnone]

end

/-- Settles O52: an event and a write as `Sqc.find_event` and `Sqc.find_write` give them bit by bit, and an access through a window is that operation on the
register the offset selects. -/
theorem sequenceClearsKeepNewerBits : Obligations.SequenceClearsKeepNewerBits := by
  refine ⟨fun q mask => ⟨rfl, rfl, fun b hb => ?_, fun b hb => ?_⟩, fun q v b x hkeys => ?_, fun s w off g u hup hal hat hopen => ⟨fun hw => ?_, ?_⟩⟩
  · rw [Sqc.find_event, if_pos hb]
  · rw [Sqc.find_event, if_neg hb]
  · obtain ⟨hc, hread⟩ := Sqc.write_keeps q v
    have hbit := Sqc.find_write v b hkeys
    exact ⟨hc, hread, fun hx => by rw [hbit, hx]; rfl, fun hx => by rw [hbit, hx]; rfl⟩
  · exact ⟨_, exec_sqcRead hw hal hat hopen, sqcOf_setSqc_self _ _ _ _, sameBut_setSqc _ _ _ _⟩
  · rintro v rfl hglb hfw
    exact ⟨_, exec_sqcWrite_fw v hup hal hat hopen hglb hfw, sqcOf_setSqc_self _ _ _ _, sameBut_setSqc _ _ _ _⟩

end Sys2Proof.Machine

/-! SUPPORT. The parts that each update of the state leaves alone: an update of one part is an update of no other. -/

namespace Sys2Proof.Machine

section
variable (s : State) {ps : List Part}

theorem sameBut_setRing (r n : Nat) (x : Ring) (h : Part.rings ∈ ps) : s.sameBut (s.setRing r n x) ps := fun p hp => by
  cases p with
  | rings => exact absurd h hp
  | _ => rfl

theorem sameBut_descs (r n uid : Nat) (f : Desc → Desc) (h : Part.rings ∈ ps) : s.sameBut (s.updDesc r n uid f) ps :=
  sameBut_setRing s r n _ h

theorem sameBut_setEvRing (r : Nat) (x : EvRing) (h : Part.evRings ∈ ps) : s.sameBut (s.setEvRing r x) ps := fun p hp => by
  cases p with
  | evRings => exact absurd h hp
  | _ => rfl

theorem sameBut_onMem (f : Mem → Mem) (h : Part.mem ∈ ps) : s.sameBut (s.onMem f) ps := fun p hp => by
  cases p with
  | mem => exact absurd h hp
  | _ => rfl

theorem sameBut_setTile (k : Nat) (x : Tile) (h : Part.tiles ∈ ps) : s.sameBut (s.setTile k x) ps := fun p hp => by
  cases p with
  | tiles => exact absurd h hp
  | _ => rfl

theorem sameBut_setCluster (k : Nat) (x : Cluster) (h : Part.clusters ∈ ps) : s.sameBut (s.setCluster k x) ps := fun p hp => by
  cases p with
  | clusters => exact absurd h hp
  | _ => rfl

theorem sameBut_onKvm (f : Kvm → Kvm) (h : Part.kvm ∈ ps) : s.sameBut (s.onKvm f) ps := fun p hp => by
  cases p with
  | kvm => exact absurd h hp
  | _ => rfl

theorem sameBut_onSrv (f : Srv → Srv) (h : Part.srv ∈ ps) : s.sameBut (s.onSrv f) ps := fun p hp => by
  cases p with
  | srv => exact absurd h hp
  | _ => rfl

theorem sameBut_onVid (f : Vid → Vid) (h : Part.vid ∈ ps) : s.sameBut (s.onVid f) ps := fun p hp => by
  cases p with
  | vid => exact absurd h hp
  | _ => rfl

theorem sameBut_onBoot (f : Boot → Boot) (h : Part.boot ∈ ps) : s.sameBut (s.onBoot f) ps := fun p hp => by
  cases p with
  | boot => exact absurd h hp
  | _ => rfl

theorem sameBut_onFlt (f : Flt → Flt) (h : Part.flt ∈ ps) : s.sameBut (s.onFlt f) ps := fun p hp => by
  cases p with
  | flt => exact absurd h hp
  | _ => rfl

theorem sameBut_onDet (f : Det → Det) (h : Part.det ∈ ps) : s.sameBut (s.onDet f) ps := fun p hp => by
  cases p with
  | det => exact absurd h hp
  | _ => rfl

theorem sameBut_onClk (f : Clk → Clk) (h : Part.clk ∈ ps) : s.sameBut (s.onClk f) ps := fun p hp => by
  cases p with
  | clk => exact absurd h hp
  | _ => rfl

theorem sameBut_onStave (f : Stave → Stave) (h : Part.stave ∈ ps) : s.sameBut (s.onStave f) ps := fun p hp => by
  cases p with
  | stave => exact absurd h hp
  | _ => rfl

theorem sameBut_onPwr (f : Pwr → Pwr) (h : Part.pwr ∈ ps) : s.sameBut (s.onPwr f) ps := fun p hp => by
  cases p with
  | pwr => exact absurd h hp
  | _ => rfl

theorem sameBut_send (m : OutMsg) (h : Part.out ∈ ps) : s.sameBut (s.send m) ps := fun p hp => by
  cases p with
  | out => exact absurd h hp
  | _ => rfl

theorem sameBut_symm {t : State} (h : s.sameBut t ps) : t.sameBut s ps := fun p hp => by
  have := h p hp
  cases p <;> exact Eq.symm this

end

/-! ### The guards of a command, open -/

section
variable {s : State} (f : State → State)

theorem whenUp_of_up (h : s.up = true) : s.whenUp f = .next (f s) := by simp [State.whenUp, h]

theorem whenReady_of_ready (h : s.ready = true) : s.whenReady f = .next (f s) := by simp [State.whenReady, h]

theorem whenRunning_of_ready (h : s.ready = true) (hw : s.workHeld = false) : s.whenRunning f = .next (f s) := by
  simp [State.whenRunning, h, hw]

theorem onDesc_of_starting {r n i ty : Nat} {d : Desc} (f : Desc → State → State) (h : s.starting r n i ty = some d) :
    s.onDesc r n i ty f = f d (s.acted r n d) := onDesc_some s f h

end

end Sys2Proof.Machine

/-! SUPPORT. The step, the stores and the fields of registers (R10-R12, R381, R429). -/

namespace Sys2Proof.Machine

/-- Settles O1: both halves are the two arms of `step`. -/
theorem stepTakesTheFront : Obligations.StepTakesTheFront := by
  refine ⟨fun c rest s => rfl, fun s hempty => ?_⟩
  have hidle : step s = .next s.idle := by
    unfold step
    rw [hempty]
  rw [hidle, State.idle, State.running_]

/-- Settles O58: memory reads back by `Memory.read_store_inside` and `Memory.read_store_outside`, a field by `State.fld_setFld_self`. -/
theorem storesReadBack : Obligations.StoresReadBack := by
  refine ⟨fun m a bs hwf => ⟨by simpa using Memory.wf_store (m := m) a bs (by simpa using hwf), Memory.read_store_outside m a bs, Memory.read_store_inside m a bs⟩,
    fun s f v u sel hfits => ⟨s.fld_setFld_self f v u sel hfits, sameBut_setFld s f v u sel _ (List.mem_singleton.mpr rfl),
      regsBut_setFld s f v u sel _ (List.mem_singleton.mpr rfl), fun g hg hreg hapart => ?_⟩⟩
  exact s.fld_setFld_of_disjoint v u sel hreg hg hapart.symm

theorem freeze_of_armed {s : State} (k : Nat) (h : s.freezeArmed = true) :
    s.freeze k = (s.onFlt fun f => { f with frozen := true }).setFld .STV_STATE_ATTACH 0 := if_pos h

/-- Settles O60: FREEZE is the only command of the queue, so the frozen module waits on none. -/
theorem aFreezeReachesTheFrozenState : Obligations.AFreezeReachesTheFrozenState := by
  intro s t hqueue hopen harmed hstep
  let u : State := { s with pending := [] }
  have hrun : step s = execFreeze .fw u := by
    unfold step
    rw [hqueue]
    rfl
  have hnext : execFreeze .fw u = .next (u.freeze 1) := fw_open u .FLT_CMD 0 8 _ hopen
  obtain rfl : u.freeze 1 = t := by simpa [hnext] using hrun.symm.trans hstep
  rw [freeze_of_armed 1 (s := u) harmed]
  exact ⟨rfl, fun c hc => absurd hc List.not_mem_nil⟩

end Sys2Proof.Machine

/-! SUPPORT. Rings, doorbells and descriptors (R173-R210): what a doorbell, a fetch, a start and a completion leave of a ring pair. -/

namespace Sys2Proof.Machine

/-! ### Reading a ring pair or an event ring over changes of other parts -/

theorem ring_of_rings {s t : State} (h : s.rings = t.rings) (r n : Nat) : t.ring r n = s.ring r n := by
  unfold State.ring
  rw [h]

theorem ring_setSts (s : State) (g : Reg) (m : List Nat) (u r n : Nat) : (s.setSts g m u).ring r n = s.ring r n :=
  ring_of_rings (sameBut_setSts s g m u .rings (by decide)) r n

theorem ring_emit (s : State) (a b c d e r n : Nat) : (s.emit a b c d e).ring r n = s.ring r n :=
  ring_of_rings ((eventStep_emit s a b c d e).sameBut .rings (by decide)) r n

@[simp] theorem evRing_setEvRing_self (s : State) (r : Nat) (x : EvRing) : (s.setEvRing r x).evRing r = x := Tab.get_set_self _ _ _ _

theorem evRing_setEvRing_of_ne (s : State) {r q : Nat} (x : EvRing) (h : q ≠ r) : (s.setEvRing r x).evRing q = s.evRing q :=
  Tab.get_set_of_ne _ _ _ h

/-! ### Doorbells (R174, R176, R180, R181) -/

theorem sameBut_dbInvalid (s : State) (r page v : Nat) : s.sameBut (s.dbInvalid r page v) eventParts :=
  sameBut_trans (sameBut_sts _ _ _ _ (List.Subset.refl _)) (sameBut_emit _ _ _ _ _ _ (List.Subset.refl _))

theorem stsBit_dbInvalid (s : State) (r page v : Nat) : (s.dbInvalid r page v).stsBit .RING_STS 0 r = true :=
  stsBit_emit _ (stsBit_setSts s List.mem_cons_self)

theorem doorbell_of_ready {s : State} {r v top : Nat} (hready : s.ready = true) (hactive : s.active r = true) (hv : v < top) :
    s.doorbell r v 32 top = true := by
  simp [State.doorbell, hready, hactive, hv]

/-- Settles O2: an open doorbell is the comparison of indices that the statement writes out. -/
theorem doorbellsMoveTheIndices : Obligations.DoorbellsMoveTheIndices := by
  intro r n v s hready hactive hn
  refine ⟨fun hv hen => ⟨?_, ?_⟩, fun hv hen => ?_, ?_, sameBut_symm _ (sameBut_dbInvalid s r n v), stsBit_dbInvalid s r n v⟩
  · change execSqTail r n v 32 s = _
    rw [execSqTail, doorbell_of_ready hready hactive hv, hen]
    simp [hn]
  · change execCqHead r n v 32 s = _
    rw [execCqHead, doorbell_of_ready hready hactive hv, hen]
    simp [hn]
  · change execEqHead r v 32 s = _
    rw [execEqHead, doorbell_of_ready hready hactive hv, hen]
    simp
  · exact ring_of_rings (sameBut_dbInvalid s r n v .rings (by decide)) r n

/-! ### Updates of a descriptor that stand before its completion -/

/-- An update of a started descriptor that keeps its number leaves it recordable when it then holds its slot. -/
theorem recordable_updDesc {s : State} {r n : Nat} {d : Desc} (f : Desc → Desc) (hf : ∀ e, (f e).uid = e.uid) (hd : s.descUid r n d.uid = some d)
    (hslot : (f d).reserved = true) (herr : (f d).cqErr = false) (hdead : (s.ring r n).cqDead = false) (hfailed : s.flt.failed = false) :
    (s.updDesc r n d.uid f).recordable r n (f d) := by
  refine ⟨?_, hslot, herr, ?_, hfailed⟩
  · rw [hf, descUid_updDesc_self s r n d.uid f hf, hd]
    rfl
  · rw [ring_updDesc_self]
    exact hdead

theorem completed_updDesc {s t : State} {r n : Nat} {d : Desc} {st : Nat} (f : Desc → Desc) (hf : ∀ e, (f e).uid = e.uid) (hflags : (f d).flags = d.flags)
    (h : (s.updDesc r n d.uid f).completed t r n (f d) st) : s.completed t r n d st := by
  refine completed_congr s (t := s.updDesc r n d.uid f) (hf d) hflags ?_ ?_ rfl rfl rfl h
  · rw [ring_updDesc_self]
    exact filter_map_uid _ _ _ hf
  · rw [ring_updDesc_self]

/-- A change of the ring pair that keeps its descriptors and whether its records are lost. -/
theorem recordable_setRing {s : State} {r n : Nat} {d : Desc} {x : Ring} (hdescs : x.descs = (s.ring r n).descs) (hdead : x.cqDead = (s.ring r n).cqDead)
    (h : s.recordable r n d) : (s.setRing r n x).recordable r n d := by
  obtain ⟨hd, hslot, herr, hlive, hfailed⟩ := h
  refine ⟨?_, hslot, herr, ?_, hfailed⟩
  · rw [State.descUid, ring_setRing_self, hdescs]
    exact hd
  · rw [ring_setRing_self, hdead]
    exact hlive

theorem completed_setRing {s t : State} {r n : Nat} {d : Desc} {st : Nat} {x : Ring} (hdescs : x.descs = (s.ring r n).descs)
    (htail : x.cqTail = (s.ring r n).cqTail) (h : (s.setRing r n x).completed t r n d st) : s.completed t r n d st :=
  completed_congr s (t := s.setRing r n x) rfl rfl (by rw [ring_setRing_self, hdescs]) (by rw [ring_setRing_self, htail]) rfl rfl rfl h

/-- A change of the ring pair after a completion that keeps its descriptors and CQ_TAIL. -/
theorem completed_setRing_after {s t : State} {r n : Nat} {d : Desc} {st : Nat} {x : Ring} (hdescs : x.descs = (t.ring r n).descs)
    (htail : x.cqTail = (t.ring r n).cqTail) (h : s.completed t r n d st) : s.completed (t.setRing r n x) r n d st := by
  obtain ⟨h1, h2, h3⟩ := h
  exact ⟨by rw [ring_setRing_self, hdescs, h1], by rw [ring_setRing_self, htail, h2], h3⟩

/-- A descriptor that has acted and completes at once has completed (R185). -/
theorem completed_done_acted {s : State} {r n : Nat} {d : Desc} (st : Nat) (h : s.recordable r n d) :
    s.completed ((s.acted r n d).done r n d.uid st) r n d st :=
  completed_acted s (done_spec _ st (recordable_acted s h)).1

theorem sameBut_done_acted (s : State) (r n : Nat) (d : Desc) (st : Nat) : s.sameBut ((s.acted r n d).done r n d.uid st) recordParts :=
  sameBut_trans (sameBut_descs s r n d.uid _ (by decide)) (sameBut_done _ _ _ _ _)

/-! ### LAUNCH_AT (R197) -/

theorem launchDone_spec {s : State} {r n : Nat} {d : Desc} (count : Nat) (late : Bool) (h : s.recordable r n d) :
    s.completed (s.launchDone r n d.uid count late) r n d stOk ∧ ((s.launchDone r n d.uid count late).ring r n).launch = some count
      ∧ s.sameBut (s.launchDone r n d.uid count late) recordParts := by
  obtain ⟨hd, hslot, herr, hlive, hfailed⟩ := h
  let f := fun e : Desc => { e with launchLate := e.launchLate || late }
  have hrec := recordable_updDesc f (fun _ => rfl) hd hslot herr hlive hfailed
  refine ⟨completed_setRing_after rfl rfl (completed_updDesc f (fun _ => rfl) rfl (done_spec _ stOk hrec).1), ?_, ?_⟩
  · simp only [State.launchDone, ring_setRing_self]
  · exact sameBut_trans (sameBut_descs s r n d.uid f (by decide)) (sameBut_trans (sameBut_done _ _ _ _ _) (sameBut_setRing _ _ _ _ (by decide)))

/-- Settles O3: NOP, FENCE and a LAUNCH_AT whose count has passed complete at once; one that waits completes at LAUNCH_COUNT_REACHED. -/
theorem nopFenceAndLaunchAtComplete : Obligations.NopFenceAndLaunchAtComplete := by
  intro r n i s d hready hrec
  refine ⟨fun hstart => ⟨_, ?_, completed_done_acted stOk hrec, sameBut_done_acted s r n d stOk⟩,
    fun hstart => ⟨_, ?_, completed_done_acted stOk hrec, sameBut_done_acted s r n d stOk⟩, fun hstart => ⟨fun hpast => ?_, fun hwait => ?_⟩,
    fun hdesc hstarted hacted hty => ?_⟩
  · change execNop r n i s = _
    rw [execNop, whenReady_of_ready _ hready, onDesc_of_starting _ hstart]
  · change execFence r n i s = _
    rw [execFence, whenReady_of_ready _ hready, onDesc_of_starting _ hstart]
  · have hrun : exec (.launchAt r n i) s = .next ((s.acted r n d).launchDone r n d.uid (d.num 8 8) true) := by
      change execLaunchAt r n i s = _
      rw [execLaunchAt, whenReady_of_ready _ hready, onDesc_of_starting _ hstart]
      exact congrArg _ (if_pos hpast)
    obtain ⟨hdone, hlaunch, hkeep⟩ := launchDone_spec (d.num 8 8) true (recordable_acted s hrec)
    exact ⟨_, hrun, completed_acted s hdone, hlaunch, sameBut_trans (sameBut_descs s r n d.uid _ (by decide)) hkeep⟩
  · change execLaunchAt r n i s = _
    rw [execLaunchAt, whenReady_of_ready _ hready, onDesc_of_starting _ hstart]
    exact congrArg _ (if_neg (Nat.not_lt.mpr hwait))
  · let u : State := { s with gauge := max s.gauge (d.num 8 8) }
    have hrun : exec (.launchCountReached r n i) s = .next (u.launchDone r n d.uid (d.num 8 8) false) := by
      change execLaunchCountReached r n i s = _
      rw [execLaunchCountReached, whenReady_of_ready _ hready]
      simp [hdesc, Option.filter_some, hstarted, hacted, hty, u]
    obtain ⟨hdone, hlaunch, hkeep⟩ := launchDone_spec (d.num 8 8) false (recordable_congr (t := u) hrec rfl rfl)
    refine ⟨_, hrun, completed_of rfl (fun _ _ => rfl) hdone, hlaunch, (hkeep .gauge (by decide)).symm, ?_⟩
    exact sameBut_trans (sameBut_gauge s _ _ (by decide)) (sameBut_mono hkeep (by decide))

/-! ### Fetching and starting (R175, R176, R183-R186) -/

/-- The checks of a descriptor do not look at the ring pairs. -/
theorem descCheck_setRing (s : State) (r n : Nat) (x : Ring) (r' n' : Nat) (d : Desc) : (s.setRing r n x).descCheck r' n' d = s.descCheck r' n' d := by
  have hflags : (s.setRing r n x).flagsOk r' n' d = s.flagsOk r' n' d := rfl
  have hkey : ∀ use slot, (s.setRing r n x).keyOk r' use slot = s.keyOk r' use slot := fun _ _ => rfl
  have haccess : (s.setRing r n x).descAccess r' d = s.descAccess r' d := by
    unfold State.descAccess
    split <;> rfl
  simp only [State.descCheck, hflags, hkey, haccess]

/-- The descriptor that a fetch takes from the fetch position of a ring pair (R175). -/
def State.fetched (s : State) (r n : Nat) (cqErr : Bool) : Desc :=
  { uid := s.nextUid, slot := (s.ring r n).fetch, raw := s.bytes (hostBase + s.sqBase r n + 64 * (s.ring r n).fetch) 64, cqErr := cqErr,
    ctl := (s.word .DET_CTRL).toNat, fetchedAt := s.gauge }

/-- The ring pair once a descriptor has begun: it holds its completion slot (R176). -/
def State.begun (s : State) (r n : Nat) (d : Desc) : State :=
  s.updDesc r n d.uid (fun e => e.begin s.gauge (s.launchLate (s.ring r n) d) (s.flag .GLB_CFG_DET_MODE))

/-- The ring pair once the descriptor after a LAUNCH_AT has begun: the count is forgotten (R197). -/
def State.launched (s : State) (r n : Nat) : State := s.setRing r n { s.ring r n with launch := none }

theorem sameBut_begun (s : State) (r n : Nat) (d : Desc) : s.sameBut (s.begun r n d) [.rings] := sameBut_descs s r n d.uid _ (by decide)

theorem sameBut_launched (s : State) (r n : Nat) : s.sameBut (s.launched r n) [.rings] := sameBut_setRing s r n _ (by decide)

theorem begun_holds (s : State) {r n : Nat} {d : Desc} (huid : s.descUid r n d.uid = some d) :
    ((s.begun r n d).descUid r n d.uid).map (fun e => (e.started, e.reserved, e.raw)) = some (some s.gauge, true, d.raw) := by
  rw [State.begun, descUid_updDesc_self s r n d.uid _ (by intro _; rfl), huid]
  rfl

theorem launched_holds (s : State) {r n : Nat} {d : Desc} (huid : s.descUid r n d.uid = some d) :
    (((s.begun r n d).launched r n).descUid r n d.uid).map (fun e => (e.started, e.reserved, e.raw)) = some (some s.gauge, true, d.raw) := by
  rw [← begun_holds s huid, State.launched, State.descUid, ring_setRing_self, State.descUid]

section
variable {s : State} {r n : Nat} {d : Desc} (x : Rec) (huid : s.descUid r n d.uid = some d) (herr : d.cqErr = false)
  (hlive : (s.ring r n).cqDead = false) (hfailed : s.flt.failed = false)
include huid herr hlive hfailed

/-- A descriptor that completes as it begins has completed. -/
theorem completed_begun : s.completed ((s.begun r n d).complete r n d.uid x) r n d x.status
    ∧ s.sameBut ((s.begun r n d).complete r n d.uid x) recordParts := by
  have hrec : (s.begun r n d).recordable r n (d.begin _ _ _) := recordable_updDesc _ (by intro _; rfl) huid rfl herr hlive hfailed
  obtain ⟨hdone, hkeep⟩ := complete_spec _ x hrec
  exact ⟨completed_updDesc _ (by intro _; rfl) (by rfl) hdone, sameBut_trans (sameBut_mono (sameBut_begun s r n d) (by decide)) hkeep⟩

theorem completed_launched : s.completed (((s.begun r n d).launched r n).complete r n d.uid x) r n d x.status
    ∧ s.sameBut (((s.begun r n d).launched r n).complete r n d.uid x) recordParts := by
  have hrec : (s.begun r n d).recordable r n (d.begin _ _ _) := recordable_updDesc _ (by intro _; rfl) huid rfl herr hlive hfailed
  have hrec' : ((s.begun r n d).launched r n).recordable r n (d.begin _ _ _) := recordable_setRing rfl rfl hrec
  obtain ⟨hdone, hkeep⟩ := complete_spec _ x hrec'
  have hsame := sameBut_trans (sameBut_begun s r n d) (sameBut_launched _ r n)
  exact ⟨completed_updDesc _ (by intro _; rfl) (by rfl) (completed_setRing (by rfl) (by rfl) hdone), sameBut_trans (sameBut_mono hsame (by decide)) hkeep⟩

end

section
variable {s : State} {r n : Nat} (hready : s.ready = true) (hactive : s.active r = true) (hfailed : s.flt.failed = false) (hgoes : (s.ring r n).stopped = false)
include hready hactive hfailed hgoes

theorem exec_descriptorFetch (hn : n < 64) (hen : s.flag .RING_SIZE_ENABLE r n = true) (hfetch : s.flag .RING_CTRL_FETCH_EN r = true)
    (hmore : (s.ring r n).fetch ≠ (s.ring r n).tail) (hroom : ((s.ring r n).descs.filter (fun d => !d.extra)).length < 32) (err cqErr : Bool) :
    exec (.descriptorFetch r n err cqErr) s = .next (if err then
        ((s.setRing r n { s.ring r n with stopped := true }).setSts .RING_STS [1] r).emit 15 0x20 0x0002 r n
      else { s.setRing r n { s.ring r n with fetch := ((s.ring r n).fetch + 1) % s.sqSize r n, descs := (s.ring r n).descs ++ [s.fetched r n cqErr] }
        with nextUid := s.nextUid + 1 }) := by
  change execDescriptorFetch r n err cqErr s = _
  rw [execDescriptorFetch, whenReady_of_ready _ hready]
  simp [hactive, hn, hen, hfetch, hgoes, hfailed, hmore, hroom, maxFetched, State.fetched]

/-- The turn of a fetched descriptor: it begins, and completes at once when its record is known or a check fails. -/
theorem exec_descriptorStart {i : Nat} {d : Desc} (hdesc : s.desc r n i = some d) (hnew : d.started = none) (hfree : s.cqFree r n ≠ 0)
    (hturn : s.mayStart r n d = true) : exec (.descriptorStart r n i) s = .next (
      match d.result with
      | some x => (s.begun r n d).complete r n d.uid x
      | none => if d.early then s.begun r n d else if s.descCheck r n d = stOk then (s.begun r n d).launched r n
          else ((s.begun r n d).launched r n).complete r n d.uid { status := s.descCheck r n d }) := by
  have hcheck : ((s.begun r n d).launched r n).descCheck r n d = s.descCheck r n d :=
    (descCheck_setRing _ r n _ r n d).trans (descCheck_setRing s r n _ r n d)
  rw [← hcheck]
  change execDescriptorStart r n i s = _
  rw [execDescriptorStart, whenReady_of_ready _ hready]
  simp [hdesc, hactive, hfailed, hnew, hgoes, hfree, hturn]
  rfl

end

/-- Settles O4: a fetch appends the descriptor it read; a start is `exec_descriptorStart`, with the begun descriptor recordable. -/
theorem descriptorsAreFetchedAndStarted : Obligations.DescriptorsAreFetchedAndStarted := by
  intro r n s hready hactive hfailed hgoes
  refine ⟨fun hn hen hfetch hmore hroom cqErr => ?_, fun i d hdesc huid hnew hfree hturn herr hlive => ?_⟩
  · have hrun := fun err => exec_descriptorFetch hready hactive hfailed hgoes hn hen hfetch hmore hroom err cqErr
    refine ⟨⟨_, s.fetched r n cqErr, hrun false, ring_setRing_self s r n _, rfl, rfl, rfl, fun p hp => ?_⟩, hrun true⟩
    cases p with
    | rings | nextUid => exact absurd hp (by decide)
    | _ => rfl
  · refine ⟨_, exec_descriptorStart hready hactive hfailed hgoes hdesc hnew hfree hturn, ?_⟩
    cases hres : d.result with
    | some x => exact completed_begun x huid herr hlive hfailed
    | none =>
      by_cases hearly : d.early = true
      · simp only [hearly, true_or, if_true]
        exact ⟨begun_holds s huid, sameBut_begun s r n d⟩
      · by_cases hok : s.descCheck r n d = stOk
        · simp only [hearly, hok, or_true, if_true, Bool.false_eq_true, if_false]
          exact ⟨launched_holds s huid, sameBut_trans (sameBut_begun s r n d) (sameBut_launched _ r n)⟩
        · simp only [hearly, hok, or_self, Bool.false_eq_true, if_false]
          exact completed_launched { status := s.descCheck r n d } huid herr hlive hfailed

end Sys2Proof.Machine

/-! SUPPORT. The ring pages' commands, the messages, the internal queues and CANCEL (R182, R198, R207, R210-R218). -/

namespace Sys2Proof.Machine

/-! ### The command bits of a RING_ page, messages and overflow records (R182, R207, R210, R218) -/

theorem ringCommand_of_window {s : State} {w : Win} {r : Nat} (f : State → State) (hpage : s.pageUp 4 = true) (hr : r < 4)
    (hw : w = .fw ∨ w = .mgmt ∨ (w = .realm r ∧ s.windowOpen r = true)) : s.ringCommand w r f = .next (f s) := by
  rcases hw with rfl | rfl | ⟨rfl, hopen⟩
  · simp [State.ringCommand, hpage, hr]
  · simp [State.ringCommand, hpage, hr]
  · simp [State.ringCommand, hpage, hr, hopen]

theorem eqDrop_key_ne_perfDone (r : Nat) : Reg.RING_EQ_DROP.key r 0 ≠ Reg.RING_PERF_DONE.key r 0 := by
  simp only [Reg.key]
  omega

theorem regsBut_setWord (s : State) (r : Reg) (u sel : Nat) (w : Word) (ks : List Nat) (h : r.key u sel ∈ ks) : s.regsBut (s.setWord r u sel w) ks :=
  fun _ hk => Tab.get_set_of_ne _ _ _ fun he => hk (he ▸ h)

/-- Settles O5: each command bit acts through `ringCommand_of_window`, and the status event of RESET touches no ring pair. -/
theorem ringPageCommandsAct : Obligations.RingPageCommandsAct := by
  intro w r s hpage hr hw
  have hreset : execEqReset w r s = .next (s.eqReset r) := ringCommand_of_window _ hpage hr hw
  have hclear : execRingCntClr w r s = .next ((s.setWord .RING_EQ_DROP r 0 0).setWord .RING_PERF_DONE r 0 0) := ringCommand_of_window _ hpage hr hw
  have hend : execRingReset w r s = .next (s.ringReset r (s.fld .RING_SEL_RING r)) := ringCommand_of_window _ hpage hr hw
  refine ⟨⟨_, hreset, ?_, State.word_setWord_self _ _ _ _ _, ?_, regsBut_setWord _ _ _ _ _ _ (by simp), ?_⟩,
    ⟨_, hclear, ?_, State.word_setWord_self _ _ _ _ _, ?_, ?_⟩,
    ⟨_, hend, ?_, stsBit_emit _ (stsBit_setSts _ List.mem_cons_self)⟩⟩
  · exact evRing_setEvRing_self s r {}
  · exact sameBut_trans (sameBut_setEvRing s r {} (by decide)) (sameBut_setWord _ _ _ _ _ _ (by decide))
  · exact fun q hq => evRing_setEvRing_of_ne s {} hq
  · rw [State.word_setWord_of_ne _ _ (eqDrop_key_ne_perfDone r), State.word_setWord_self]
  · exact sameBut_trans (sameBut_setWord s _ _ _ _ _ (by decide)) (sameBut_setWord _ _ _ _ _ _ (by decide))
  · exact regsBut_trans (regsBut_setWord s _ _ _ _ _ (by simp)) (regsBut_setWord _ _ _ _ _ _ (by simp))
  · rw [State.ringReset, ring_emit, ring_setSts, State.ringEnd, ring_setRing_self]

/-- Once two slots are free the record of a run of drops is written in the next slot, and the run is over (R207). -/
theorem evRing_eqOverflow {s : State} {r : Nat} (hrun : (s.evRing r).runCount ≠ 0) (hroom : s.eqUsed r + 2 ≤ s.eqSize r) :
    ((s.eqOverflow r).evRing r).runCount = 0 ∧ ((s.eqOverflow r).evRing r).tail = ((s.evRing r).tail + 1) % s.eqSize r
      ∧ ((s.eqOverflow r).evRing r).head = (s.evRing r).head := by
  rw [State.eqOverflow, if_neg (by omega)]
  simp only [State.eqWrite, evRing_setEvRing_self]
  exact ⟨trivial, rfl, rfl⟩

/-- Settles O6: a message ends its delay, and an overflow record is `evRing_eqOverflow`. -/
theorem messagesAndOverflowRecords : Obligations.MessagesAndOverflowRecords := by
  intro r n s hready hr
  have hrange : ¬ (4 ≤ r ∨ 65 ≤ 64) := by omega
  refine ⟨fun hn hdue => ?_, fun hdue => ?_, fun hen hcount hroom => ?_⟩
  · obtain ⟨due, hdue⟩ := Option.isSome_iff_exists.mp hdue
    change execMsixMessage r n s = _
    rw [execMsixMessage, whenReady_of_ready _ hready, if_neg (by omega), if_neg (by omega), hdue]
  · obtain ⟨due, hdue⟩ := Option.isSome_iff_exists.mp hdue
    change execMsixMessage r 64 s = _
    rw [execMsixMessage, whenReady_of_ready _ hready, if_neg hrange, if_pos rfl, hdue]
  · have hrun : exec (.eqOverflow r) s = .next (s.eqOverflow r) := by
      change execEqOverflow r s = _
      rw [execEqOverflow, whenReady_of_ready _ hready, if_pos ⟨hr, hen⟩]
    obtain ⟨hover, htail, hhead⟩ := evRing_eqOverflow hcount hroom
    exact ⟨_, hrun, hover, htail, hhead, (eventStep_eqOverflow s r).sameBut⟩

/-! ### Words leave an internal queue (R213, R215) -/

theorem enterGap_of_marker {x : IQueue} (q : Nat) {c : Nat} (h : x.gap = some c) (hroom : x.words.length < 32) :
    x.enterGap q = { x with words := x.words ++ [queueWord (gapData q c) 0 true], gap := none } := by
  simp [IQueue.enterGap, h, hroom]

@[simp] theorem skipping_enterGap (x : IQueue) (q : Nat) : (x.enterGap q).skipping = x.skipping := by
  unfold IQueue.enterGap
  split
  · split <;> rfl
  · rfl

theorem read_of_discarded {x : IQueue} {w : BitVec 72} {rest : List (BitVec 72)} (flip : Bool) (h : x.words = w :: rest)
    (hskip : (x.skipping && !wordFirst w) = true) : x.read flip = (none, { x with words := rest }) := by
  simp [IQueue.read, h, hskip]

theorem read_of_taken {x : IQueue} {w : BitVec 72} {rest : List (BitVec 72)} (flip : Bool) (h : x.words = w :: rest)
    (hskip : (x.skipping && !wordFirst w) = false) :
    x.read flip = (some (w, flip || !wordParityOk w), { x with words := rest, skipping := flip || !wordParityOk w }) := by
  simp [IQueue.read, h, hskip]

/-- The reader of a queue other than firmware's takes the word and nothing follows from it. -/
theorem exec_queueWordRead_of_ne {q : Nat} {s : State} (flip : Bool) (hup : s.up = true) (hq : q ≠ fwQueue) :
    exec (.queueWordRead q flip) s = .next (s.setQueue q (((s.queue q).read flip).2.enterGap q)) := by
  change execQueueWordRead q flip s = _
  rw [execQueueWordRead, whenUp_of_up _ hup]
  simp only [if_pos hq]
  split <;> rfl

theorem exec_queueWordRead_fw {s : State} {w : BitVec 72} {rest : List (BitVec 72)} (hup : s.up = true) (h : (s.queue fwQueue).words = w :: rest)
    (hgoes : (s.queue fwQueue).skipping = false) (hparity : wordParityOk w = true) (hgap : wordGap w = false) :
    exec (.queueWordRead fwQueue false) s = .next (s.setQueue fwQueue ({ s.queue fwQueue with words := rest, skipping := false }.enterGap fwQueue)) := by
  change execQueueWordRead fwQueue false s = _
  rw [execQueueWordRead, whenUp_of_up _ hup, read_of_taken false h (by simp [hgoes])]
  simp [hparity, hgap]

/-- Settles O8: a marker enters by `enterGap_of_marker`; a word read is discarded or taken, and the chain behind it moves up. -/
theorem queueWordsLeaveInOrder : Obligations.QueueWordsLeaveInOrder := by
  intro q s hup
  refine ⟨fun c hgap hroom => ?_, fun w rest flip hq hwords hgap => ?_, fun w rest hwords hgoes hparity hgap => ?_⟩
  · have hrun : exec (.gapMarkerEnter q) s = .next (s.setQueue q ((s.queue q).enterGap q)) := by
      change execGapMarkerEnter q s = _
      rw [execGapMarkerEnter, whenUp_of_up _ hup]
    rw [enterGap_of_marker q hgap hroom] at hrun
    refine ⟨_, hrun, ?_, ?_, sameBut_queue s q _ _ (by decide), fun p hp => queue_setQueue_of_ne s _ hp⟩
    · rw [queue_setQueue_self]
      rfl
    · rw [queue_setQueue_self]
  · have hrun := exec_queueWordRead_of_ne flip hup hq
    cases hskip : (s.queue q).skipping && !wordFirst w with
    | true =>
      rw [read_of_discarded flip hwords hskip, enterGap_of_no_marker q (by exact hgap)] at hrun
      refine ⟨_, hrun, by rw [queue_setQueue_self], ?_, sameBut_queue s q _ _ (by decide), fun p hp => queue_setQueue_of_ne s _ hp⟩
      rw [queue_setQueue_self, if_pos rfl]
      exact (Bool.and_eq_true_iff.mp hskip).1
    | false =>
      rw [read_of_taken flip hwords hskip, enterGap_of_no_marker q (by exact hgap)] at hrun
      exact ⟨_, hrun, by rw [queue_setQueue_self], by rw [queue_setQueue_self]; rfl, sameBut_queue s q _ _ (by decide),
        fun p hp => queue_setQueue_of_ne s _ hp⟩
  · exact ⟨_, exec_queueWordRead_fw hup hwords hgoes hparity hgap, by rw [queue_setQueue_self, skipping_enterGap], sameBut_queue s _ _ _ (by decide)⟩

/-! ### CANCEL (R198, R241, R242, R318) -/

/-- An update of descriptors that a search passes over leaves what it finds. -/
theorem find_map_of_passed {l : List Desc} {uid : Nat} {f : Desc → Desc} {p : Desc → Bool} (hold : ∀ e : Desc, e.uid = uid → p e = false)
    (hnew : ∀ e : Desc, e.uid = uid → p (f e) = false) : (l.map (fun d => if d.uid = uid then f d else d)).find? p = l.find? p := by
  induction l with
  | nil => rfl
  | cons e l ih =>
    by_cases he : e.uid = uid
    · simp [he, hold e he, hnew e he, ih]
    · simp [he, List.find?_cons, ih]

/-- A CANCEL that has acted looks for the same target as before: it never finds itself. -/
theorem cancelTarget_acted (s : State) (r n ring tag : Nat) (d : Desc) :
    (s.acted r n d).cancelTarget r ring tag d.uid = s.cancelTarget r ring tag d.uid := by
  unfold State.cancelTarget
  by_cases hring : ringKey r ring = ringKey r n
  · have hsame : ring = n := by
      unfold ringKey at hring
      omega
    subst hsame
    rw [State.acted, ring_updDesc_self]
    exact find_map_of_passed (fun e he => by simp [he]) (fun e he => by simp [he])
  · rw [show (s.acted r n d).ring r ring = s.ring r ring from Tab.get_set_of_ne _ _ _ hring]

theorem exec_cancel {r n i : Nat} {s : State} {d : Desc} (hready : s.ready = true) (hactive : s.active r = true) (hdesc : s.desc r n i = some d) (hty : d.ty = 5)
    (hnew : d.acted = false) (hcheck : s.descCheck r n d = stOk) : exec (.cancel r n i) s = .next (
      let s1 := s.acted r n d
      let t := s.cancelTarget r (d.byte 8) (d.num 0x0C 4) d.uid
      let q := s.cancelReq r (d.byte 8) (d.num 0x0C 4)
      if (match t, q with
        | some e, some x => decide (e.uid < x.2.order)
        | some _, none => true
        | none, _ => false) = true then
        match t with
        | some e => if e.ty = 0x0A ∧ e.started.isSome then s1.done r n d.uid stNotFound else (s1.cancelDesc r (d.byte 8) e false).done r n d.uid stOk
        | none => s1
      else match q with
        | some x => s1.cancelRequest r n d.uid x.1 x.2
        | none => s1.done r n d.uid stNotFound) := by
  have hpassed : (s.acted r n d).descCheck r n d = stOk := (descCheck_setRing s r n _ r n d).trans hcheck
  change execCancel r n i s = _
  rw [execCancel, whenReady_of_ready _ hready, State.cancelAct, hdesc, Option.filter_some, if_pos (by simp [hty, hnew, hactive])]
  simp only
  rw [if_neg (by rw [State.acted] at hpassed; simp [hpassed]), ← State.acted, cancelTarget_acted]
  rfl

/-- Settles O12: the cases are those of the earlier of the matching descriptor and request in `exec_cancel`. -/
theorem cancelEndsItsTarget : Obligations.CancelEndsItsTarget := by
  intro r n i s d hready hactive hdesc hty hnew hcheck
  have hrun := exec_cancel hready hactive hdesc hty hnew hcheck
  refine ⟨fun htarget hreq => ?_, fun slot q hreq hearlier => ?_, fun e htarget hearlier => ?_⟩
  · rw [hrun, htarget, hreq]
    rfl
  · rw [hrun, hreq]
    cases htarget : s.cancelTarget r (d.byte 8) (d.num 0x0C 4) d.uid with
    | none => rfl
    | some e => exact congrArg _ (if_neg (by simpa using hearlier e htarget))
  · rw [hrun, htarget]
    cases hreq : s.cancelReq r (d.byte 8) (d.num 0x0C 4) with
    | none => rfl
    | some x => exact congrArg _ (if_pos (by simpa using hearlier x hreq))

end Sys2Proof.Machine

/-! SUPPORT. JOB and DMA (R46, R185, R187, R188, R399). -/

namespace Sys2Proof.Machine

/-! ### JOB (R187, R188) -/

/-- The checks of a JOB do not look at the ring pairs. -/
theorem jobCheck_setRing (s : State) (r n : Nat) (x : Ring) (r' : Nat) (d : Desc) : (s.setRing r n x).jobCheck r' d = s.jobCheck r' d := by
  have hdigest : (s.setRing r n x).digestCheck r' d = s.digestCheck r' d := rfl
  have hrecord : ∀ i y, (s.setRing r n x).recordOk d i y = s.recordOk d i y := fun _ _ => rfl
  have haccess : ∀ mask, (s.setRing r n x).recordAccess r' mask = s.recordAccess r' mask := fun _ => rfl
  have hregions : ∀ a k, (s.setRing r n x).inRegions r' a k = s.inRegions r' a k := fun _ _ => rfl
  have hbytes : ∀ a k, (s.setRing r n x).bytes a k = s.bytes a k := fun _ _ => rfl
  have hprogram : ∀ a k, (s.setRing r n x).program a k = s.program a k := fun _ _ => rfl
  simp only [State.jobCheck, hdigest, hrecord, haccess, hregions, hbytes, hprogram]

theorem exec_job {r n i : Nat} {s : State} {d : Desc} (hready : s.ready = true) (hstart : s.starting r n i 1 = some d)
    (hfree : ∀ x ∈ s.det.snaps, x.target ≠ d.uid) : exec (.job r n i) s = .next (
      if (s.jobCheck r d).1 ≠ stOk then (s.acted r n d).done r n d.uid (s.jobCheck r d).1
      else (s.acted r n d).beginJob r n d (s.jobCheck r d).2 0 (d.num 0x28 8) none) := by
  have hdesc := (starting_desc s hstart).1
  have hcheck : (s.acted r n d).jobCheck r d = s.jobCheck r d := jobCheck_setRing s r n _ r d
  have hnone : (s.det.snaps.any fun x => some x.target == (s.desc r n i).map Desc.uid) = false := by
    simpa [hdesc] using hfree
  change execJob r n i s = _
  rw [execJob, whenReady_of_ready _ hready, hnone, onDesc_of_starting _ hstart, ← hcheck]
  rfl

/-- Settles O9: a JOB that passes its checks is entered by `State.beginJob`; one that does not completes with the status of the check. -/
theorem jobsStartWithTheirProgram : Obligations.JobsStartWithTheirProgram := by
  intro r n i s d hready hdesc
  refine ⟨fun hstart hfree => ?_, fun j hjob hlimit hgoes himage => ?_⟩
  · have hrun := exec_job hready hstart hfree
    refine ⟨fun hok => ⟨_, _, hrun.trans (congrArg _ (if_neg (not_not.mpr hok))), Tab.find_put_self _ _ _, rfl, rfl, rfl, fun _ => rfl, rfl, rfl, rfl, ?_⟩,
      fun hbad hrec => ⟨_, hrun.trans (congrArg _ (if_pos hbad)), completed_done_acted _ hrec, sameBut_done_acted s r n d _⟩⟩
    refine sameBut_trans (u := s.acted r n d) (sameBut_descs s r n d.uid _ (by decide)) fun p hp => ?_
    cases p with
    | jobs => exact absurd hp (by decide)
    | _ => rfl
  · have hnone : (s.det.snaps.any fun x => x.target == d.uid && x.image.isSome) = false := by
      simpa using himage
    change execJobTimeout r n i s = _
    rw [execJobTimeout, whenReady_of_ready _ hready, hjob]
    exact congrArg _ (if_neg (by simp [hlimit, hgoes, hnone]))

/-! ### DMA (R46, R185, R399) -/

theorem spoil_cells (l : List Nat) (f g : Nat → Nat) (m : Mem) : (l.foldl (fun m k => (m.spoil (f k)).spoil (g k)) m).cells = m.cells := by
  induction l generalizing m with
  | nil => rfl
  | cons k l ih => exact ih _

theorem copy_cells (m : Mem) (src dst n : Nat) : (m.copy src dst n).cells = m.cells.store dst (m.cells.bytes src n) := spoil_cells _ _ _ _

@[simp] theorem Memory.length_bytes (m : Memory) (a n : Nat) : (m.bytes a n).length = n := by
  induction n generalizing a with
  | zero => rfl
  | succ n ih => simp [Memory.bytes, ih]

theorem Memory.getElem_bytes (m : Memory) (a n k : Nat) (h : k < (m.bytes a n).length) : (m.bytes a n)[k] = (m.read (a + k)).toNat := by
  induction n generalizing a k with
  | zero => exact absurd h (Nat.not_lt_zero _)
  | succ n ih =>
    cases k with
    | zero => rfl
    | succ k =>
      simp only [Memory.bytes, List.getElem_cons_succ]
      rw [ih, show a + 1 + k = a + (k + 1) by omega]

/-- Every byte of the destination reads as the byte of the source did. -/
theorem read_copy_inside (m : Mem) {src dst n k : Nat} (h : k < n) : (m.copy src dst n).cells.read (dst + k) = m.cells.read (src + k) := by
  rw [copy_cells, Memory.read_store_inside _ _ _ k (by simpa using h), Memory.getElem_bytes]
  simp

theorem read_copy_outside (m : Mem) {src dst n a : Nat} (h : a < dst ∨ dst + n ≤ a) : (m.copy src dst n).cells.read a = m.cells.read a := by
  rw [copy_cells, Memory.read_store_outside _ _ _ _ (by simpa using h)]

theorem dmaPlace_setRing (s : State) (r n : Nat) (x : Ring) (r' space clu a k : Nat) :
    (s.setRing r n x).dmaPlace r' space clu a k = s.dmaPlace r' space clu a k := by
  unfold State.dmaPlace
  split <;> rfl

/-- What a sealed transfer leaves alone: the ring pairs, the fault block, and the registers that a completion reads. -/
theorem sealedDma_kept (s : State) (r slot : Nat) (k : KeySlot) (toModule : Bool) (src dst size : Nat) :
    s.sameBut (s.sealedDma r slot k toModule src dst size).2 (.keys :: eventParts)
      ∧ ∀ r' n', r' < 4 → n' < 64 → ∀ g ∈ completionRegs, (s.sealedDma r slot k toModule src dst size).2.word g r' n' = s.word g r' n' := by
  have hrefused : ∀ (t : State) (p : Nat), s.sameBut t [.mem] → t.regs = s.regs → s.sameBut ((t.setSts .SEC_STS [2]).emit 0 0x70 0x0004 r p) (.keys :: eventParts)
      ∧ ∀ r' n', r' < 4 → n' < 64 → ∀ g ∈ completionRegs, ((t.setSts .SEC_STS [2]).emit 0 0x70 0x0004 r p).word g r' n' = s.word g r' n' := by
    intro t p ht hregs
    refine ⟨sameBut_trans (sameBut_mono ht (by decide)) (sameBut_trans (sameBut_sts _ _ _ _ (by decide)) (sameBut_emit _ _ _ _ _ _ (by decide))), ?_⟩
    intro r' n' hr hn g hg
    rw [eventStep_ringWords (eventStep_emit _ _ _ _ _ _) hr hn g hg, setSts_ringWords t _ _ _ hr hn g hg]
    unfold State.word
    rw [hregs]
  have hstored : ∀ t : State, s.sameBut t [.mem] → t.regs = s.regs → ∀ y, s.sameBut (t.setKeySlot r slot y) (.keys :: eventParts)
      ∧ ∀ r' n', r' < 4 → n' < 64 → ∀ g ∈ completionRegs, (t.setKeySlot r slot y).word g r' n' = s.word g r' n' := by
    intro t ht hregs y
    refine ⟨sameBut_trans (sameBut_mono ht (by decide)) (sameBut_keys t _ _ (by decide)), fun r' n' _ _ g _ => ?_⟩
    exact congrArg (fun l => Tab.get regDefault l (g.key r' n')) hregs
  have hwrite : ∀ (t : State) a bs, s.sameBut t [.mem] → s.sameBut (t.store a bs) [.mem] := fun t a bs h =>
    sameBut_trans h (sameBut_store t a bs _ (by decide))
  unfold State.sealedDma
  cases toModule with
  | true =>
    simp only [if_true]
    split
    · exact hrefused s _ (sameBut_refl s _) rfl
    · split
      · exact hstored _ (hwrite s _ _ (sameBut_refl s _)) rfl _
      · exact hrefused _ _ (hwrite s _ _ (sameBut_refl s _)) rfl
  | false =>
    simp only [Bool.false_eq_true, if_false]
    generalize gcmSeal k.key (sealNonce 2 k.outNext) (sealAad r slot size 2) (s.bytes src size) = c
    exact hstored _ (hwrite _ _ _ (hwrite _ _ _ (hwrite s _ _ (sameBut_refl s _)))) rfl _

theorem sealedDma_setRing (s : State) (r n : Nat) (x : Ring) (r' slot : Nat) (k : KeySlot) (toModule : Bool) (src dst size : Nat) :
    ((s.setRing r n x).sealedDma r' slot k toModule src dst size).1 = (s.sealedDma r' slot k toModule src dst size).1 := by
  have hbytes : ∀ a m, (s.setRing r n x).bytes a m = s.bytes a m := fun _ _ => rfl
  have hnum : ∀ a m, (s.setRing r n x).num a m = s.num a m := fun _ _ => rfl
  cases toModule with
  | false => simp only [State.sealedDma, Bool.false_eq_true, if_false]
  | true =>
    simp only [State.sealedDma, if_true, hbytes, hnum]
    by_cases hcount : (!k.accepts (s.num (src + size + 16) 8)) = true
    · rw [if_pos hcount, if_pos hcount]
    · rw [if_neg hcount, if_neg hcount]
      cases gcmOpen k.key (sealNonce 1 (s.num (src + size + 16) 8)) (sealAad r' slot size 1) (s.bytes src size) (s.bytes (src + size) 16) with
      | none => simp only
      | some pt => simp only

section
variable {r n i : Nat} {s : State} {d : Desc} {a b : Nat} (hready : s.ready = true) (hgoes : s.workHeld = false) (hstart : s.starting r n i 2 = some d)
  (hsrc : s.dmaPlace r (bits (d.byte 0x1C) 0 4) (d.byte 0x1D) (d.num 8 8) (d.num 0x18 4) = some a)
  (hdst : s.dmaPlace r (bits (d.byte 0x1C) 4 4) (d.byte 0x1D) (d.num 0x10 8) (d.num 0x18 4) = some b)
include hready hgoes hstart hsrc hdst

/-- A DMA between places that its realm reaches moves its bytes, plainly or sealed under its key. -/
theorem exec_dma : exec (.dma r n i) s = .next (
    let u := s.acted r n d
    let size := d.num 0x18 4
    let slot := d.num 0x1E 2
    if slot = noKey then (u.moveBytes a b size).finish r n d.uid { status := stOk, result := size }
    else match s.keySlot r slot with
      | none => u.done r n d.uid stKeySlot
      | some k =>
        let x := u.sealedDma r slot k (bits (d.byte 0x1C) 0 4 == 0) a b size
        x.2.finish r n d.uid { status := x.1, result := if x.1 = stOk then size else 0 }) := by
  have hsrc' : (s.acted r n d).dmaPlace r (bits (d.byte 0x1C) 0 4) (d.byte 0x1D) (d.num 8 8) (d.num 0x18 4) = some a :=
    (dmaPlace_setRing s r n _ _ _ _ _ _).trans hsrc
  have hdst' : (s.acted r n d).dmaPlace r (bits (d.byte 0x1C) 4 4) (d.byte 0x1D) (d.num 0x10 8) (d.num 0x18 4) = some b :=
    (dmaPlace_setRing s r n _ _ _ _ _ _).trans hdst
  change execDma r n i s = _
  rw [execDma, whenRunning_of_ready _ hready hgoes, onDesc_of_starting _ hstart]
  simp only [hsrc', hdst']
  rfl

end

/-- Settles O10: `exec_dma` moves the bytes as `Mem.copy` does or seals them, and the completion stays in host memory. -/
theorem dmaMovesItsBytes : Obligations.DmaMovesItsBytes := by
  intro r n i s d a b hr hn hready hgoes hstart hrec hsrc hdst
  have hrun := exec_dma hready hgoes hstart hsrc hdst
  have hacted := recordable_acted s hrec
  have hkept := sameBut_descs s r n d.uid (fun d => { d with acted := true }) (ps := [.rings]) (by decide)
  refine ⟨fun hplain => ?_, fun k hsealed hkey => ?_⟩
  · rw [hrun]
    simp only [if_pos hplain]
    refine ⟨_, rfl, completed_acted s (finish_after (d := { d with acted := true }) _ hacted rfl rfl fun _ _ => rfl), ?_, fun hb k hk => ?_, fun x hx hout => ?_⟩
    · exact sameBut_trans (sameBut_mono hkept (by decide)) (sameBut_trans (sameBut_onMem _ _ (by decide)) (sameBut_finish _ _ _ _ _))
    · rw [storesKept_finish _ _ _ _ _ (by simp) _ (by omega)]
      exact read_copy_inside _ hk
    · rw [storesKept_finish _ _ _ _ _ (by simp) _ hx]
      exact read_copy_outside _ hout
  · rw [hrun]
    simp only [if_neg hsealed, hkey]
    obtain ⟨hsame, hregs⟩ := sealedDma_kept (s.acted r n d) r (d.num 0x1E 2) k (bits (d.byte 0x1C) 0 4 == 0) a b (d.num 0x18 4)
    rw [← sealedDma_setRing s r n _]
    refine ⟨_, rfl, completed_acted s (finish_after (d := { d with acted := true }) _ hacted (hsame .rings (by decide)) (hsame .flt (by decide)) (hregs r n hr hn)), ?_⟩
    exact sameBut_trans (sameBut_mono hkept (by decide)) (sameBut_trans (sameBut_mono hsame (by decide)) (sameBut_mono (sameBut_finish _ _ _ _ _) (by decide)))

end Sys2Proof.Machine

/-! SUPPORT. The operators and the groups on their tiles (R46, R50, R109, R115, R187-R189), and the pages of firmware's (R428, R450, R457). -/

namespace Sys2Proof.Machine

/-! ### The start of an operator on its tiles -/

@[simp] theorem tile_setTile_self (s : State) (p : Nat) (x : Tile) : (s.setTile p x).tile p = x := Tab.get_set_self _ _ _ _

theorem tile_setTile_of_ne (s : State) {p q : Nat} (x : Tile) (h : q ≠ p) : (s.setTile p x).tile q = s.tile q := Tab.get_set_of_ne _ _ _ h

@[simp] theorem cluster_setCluster_self (s : State) (c : Nat) (x : Cluster) : (s.setCluster c x).cluster c = x := Tab.get_set_self _ _ _ _

theorem cluster_setCluster_of_ne (s : State) {c c' : Nat} (x : Cluster) (h : c' ≠ c) : (s.setCluster c x).cluster c' = s.cluster c' :=
  Tab.get_set_of_ne _ _ _ h

/-- The descriptor that `jobAt` finds has the JOB that it finds. -/
theorem job_of_jobAt {s : State} {r n i : Nat} {d : Desc} {j : Job} (h : s.jobAt r n i = some (d, j)) : s.job d.uid = some j := by
  unfold State.jobAt at h
  split at h
  case h_1 e _ =>
    cases hj : s.job e.uid with
    | none => simp [hj] at h
    | some x =>
      simp only [hj, Option.map_some, Option.some.injEq, Prod.mk.injEq] at h
      obtain ⟨rfl, rfl⟩ := h
      exact hj
  case h_2 => cases h

/-- A tile that runs an operator. -/
def State.runs (s : State) (p : Nat) (k : OpKey) : Prop := (s.tile p).st = .running ∧ (s.tile p).cur = some k

theorem runs_occupy_self (s : State) (p : Nat) (k : OpKey) : (s.occupy p k).runs p k := by
  simp [State.runs, State.occupy]

theorem runs_occupy {s : State} {q : Nat} {k : OpKey} (p : Nat) (h : s.runs q k) : (s.occupy p k).runs q k := by
  by_cases hpq : q = p
  · exact hpq ▸ runs_occupy_self s p k
  · simpa [State.runs, State.occupy, tile_setTile_of_ne s _ hpq] using h

theorem runs_foldl_occupy {q : Nat} {k : OpKey} (l : List Nat) (s : State) (h : s.runs q k ∨ q ∈ l) : (l.foldl (fun s p => s.occupy p k) s).runs q k := by
  induction l generalizing s with
  | nil => exact h.resolve_right (by simp)
  | cons p l ih =>
    refine ih _ ?_
    rcases h with h | h
    · exact .inl (runs_occupy p h)
    · rcases List.mem_cons.1 h with rfl | h
      · exact .inl (runs_occupy_self s q k)
      · exact .inr h

/-- An operator that starts runs on each of its tiles. -/
theorem runs_opStart {s : State} {uid q : Nat} {j : Job} (k p : Nat) (tiles : List Nat) (lt : Nat) (hj : s.job uid = some j) (hq : q ∈ tiles) :
    (s.opStart uid k p tiles lt).runs q ⟨uid, k⟩ := by
  unfold State.opStart
  rw [hj]
  exact runs_foldl_occupy tiles _ (.inr hq)

/-- The commands of `plainOperators` are one command with the operator's OPCODE and function. -/
theorem exec_plainOperator {e : (Nat → Nat → Nat → Nat → OpEnv → Sys2Proof.Instr) × Nat × (State → OpCtx → List Nat → OpRes)} (he : e ∈ plainOperators)
    (r n i k : Nat) (env : OpEnv) (s : State) : exec (e.1 r n i k env) s = s.operator [e.2.1] r n i k env e.2.2 := by
  simp only [plainOperators, List.mem_cons, List.not_mem_nil, or_false] at he
  rcases he with rfl | rfl | rfl | rfl | rfl | rfl | rfl | rfl | rfl | rfl | rfl | rfl | rfl | rfl | rfl | rfl | rfl | rfl <;> rfl

/-- An operator that may start goes by the tile that R330 picks (R188, R189). -/
theorem operator_of_mayStart {s : State} {code r n i k : Nat} {d : Desc} {j : Job} (env : OpEnv) (f : State → OpCtx → List Nat → OpRes)
    (hready : s.ready = true) (hheld : s.workHeld = false) (hactive : s.active r = true) (hat : s.jobAt r n i = some (d, j))
    (hcode : (j.rcd k).opcode = code) (hmay : j.mayStart k = true) : s.operator [code] r n i k env f = .next (match s.pickTile j (d.byte 0x1C) (j.rcd k) env with
      | .none => (s.updJob d.uid (fun j => j.setOp k { st := .running })).opEnd ⟨d.uid, k⟩ stDescAccess []
      | .busy => s
      | .tile lt => (s.startedOp d k lt env).opRun d d.uid k (s.physTile lt) env f) := by
  unfold State.operator
  rw [whenRunning_of_ready _ hready hheld]
  simp only [hat, hactive, hcode, hmay, List.contains_cons, BEq.rfl, Bool.true_or, Bool.and_self, Bool.not_true, Bool.false_eq_true, ↓reduceIte]
  rfl

/-- Settles O13: every operator of the list is the one command `operator`, which goes by the tile picked. -/
theorem operatorsRunOnATile : Obligations.OperatorsRunOnATile := by
  intro e he r n i k env s d j hready hheld hactive hat hcode hmay
  have hjob : ∀ p, (s.disturb p env).job d.uid = some j := fun p => by
    rw [State.job, disturb_jobs]
    exact job_of_jobAt hat
  rw [exec_plainOperator he, operator_of_mayStart env e.2.2 hready hheld hactive hat hcode hmay]
  refine ⟨fun lt hpick => ?_, fun hpick => by rw [hpick], fun hpick => by rw [hpick]⟩
  obtain ⟨hst, hcur⟩ := runs_opStart k (s.physTile lt) [s.physTile lt] lt (hjob (s.physTile lt)) (List.mem_singleton_self _)
  rw [hpick]
  exact ⟨rfl, hst, hcur⟩

/-! ### The end of a run -/

/-- The status and the writes of a run that meets no error (R46, R187). -/
theorem settle_clean {s : State} {u k p : Nat} {env : OpEnv} {x : OpRes} {j : Job} (hj : s.job u = some j) (hdig : j.digest = none) (hue : x.ue = [])
    (hpart : s.partWrites x.writes = []) (hpath : env.datapath = false) (hpoison : x.kvPoison = []) (haccess : x.access = false) (group : Bool) :
    let t := s.settle ⟨u, k⟩ p env x false group
    (s.applyWrites x.writes).storesKept t ∧ ∀ j', t.job u = some j' → (j'.op k).st = .ended x.status := by
  let w := (s.applyWrites x.writes).setSts .TIL_STS x.marks p
  obtain ⟨hmemPages, hjobsPages⟩ := applyPages_spec w x hpoison
  obtain ⟨hmemPerf, hjobsPerf⟩ := perf_spec (w.applyPages x) p env
  have hjob : ((w.applyPages x).perf p env).job u = some j := by
    rw [State.job, hjobsPerf, hjobsPages, jobs_setSts, jobs_applyWrites]
    exact hj
  obtain ⟨hkept, hended⟩ := opEnd_spec _ u k x.status x.counts j hjob (by simp [hdig])
  have hsettle : s.settle ⟨u, k⟩ p env x false group = ((w.applyPages x).perf p env).opEnd ⟨u, k⟩ x.status x.counts := by
    simp only [State.settle, hue, hpart, hpath, haccess, List.append_nil, List.head?_nil, Bool.false_eq_true, ↓reduceIte]
    rfl
  rw [hsettle]
  exact ⟨storesKept_trans (storesKept_setSts _ _ _ _) (storesKept_trans (storesKept_of_mem (hmemPerf.trans hmemPages)) hkept), hended⟩

/-- Settles O14: a run without error is `settle` alone, since it waits for no page and fetches none ahead. -/
theorem operatorsWriteTheirOutputs : Obligations.OperatorsWriteTheirOutputs := by
  intro f s d k p env j x hj hdig hx hwaits hue hpart hpath hpages hpoison haccess
  have hrun : s.opRun d d.uid k p env f = s.settle ⟨d.uid, k⟩ p env x false false := by
    simp only [State.opRun, hj, ← hx, hwaits, hpages, List.isEmpty_nil, Bool.not_true, Bool.false_eq_true, ↓reduceIte, List.head?_nil]
  intro t
  rw [show t = _ from hrun]
  exact settle_clean hj hdig hue hpart hpath hpoison haccess false

/-! ### GROUP (R109, R115) -/

theorem tiles_groupHold (key : OpKey) (placed : List (Nat × Option (Tab LineBuf))) (s : State) : (s.groupHold key placed).tiles = s.tiles := by
  unfold State.groupHold
  induction placed generalizing s with
  | nil => rfl
  | cons y l ih => exact ih _

/-- The clusters that buffers were placed in list the group. -/
theorem mem_groups_groupHold {key : OpKey} {c : Nat} (placed : List (Nat × Option (Tab LineBuf))) (s : State)
    (h : key ∈ (s.cluster c).groups ∨ c ∈ placed.map (·.1)) : key ∈ ((s.groupHold key placed).cluster c).groups := by
  unfold State.groupHold
  induction placed generalizing s with
  | nil => exact h.resolve_right (by simp)
  | cons y l ih =>
    refine ih _ ?_
    by_cases hc : c = y.1
    · exact .inl (by simp [hc])
    · rw [cluster_setCluster_of_ne _ _ hc]
      exact h.imp_right (fun h => (List.mem_cons.1 h).resolve_left hc)

/-- Settles O16: the branches of `groupStart` for a group without a failed check. -/
theorem groupsStartOnAllTheirTiles : Obligations.GroupsStartOnAllTheirTiles := by
  intro r n i k env s d j tls g o hready hheld hactive hat hcode hmay htiles ps p ho hg hbad
  have hexec : exec (.group r n i k env) s = .next (s.groupStart d j k env) := by
    change execGroup r n i k env s = _
    rw [execGroup, whenRunning_of_ready _ hready hheld]
    simp only [hat, hactive, hcode, hmay, BEq.rfl, Bool.and_self, ↓reduceIte]
  have hjob : (s.disturb p env).job d.uid = some j := by
    rw [State.job, disturb_jobs]
    exact job_of_jobAt hat
  rw [hexec]
  subst ho hg
  refine ⟨fun hfree => ?_, ?_⟩
  · congr 1
    simp only [State.groupStart, htiles]
    rw [if_neg (not_not_intro hbad), if_pos (by simpa [ps] using hfree)]
  · intro placed t run
    have hfits : ps.all s.tileFree = true → s.groupStart d j k env = if placed.any (fun y => y.2.isNone) then s
        else if (List.range tls.length).all (fun c => ((s.groupIn (j.ctx (j.rcd k)
            { stoch := s.stochasticOn (j.rcd k) p, ovfSat := s.flag .TIL_CVT_OVF_SAT p } (d.num 0x20 8) p env) (s.block d (j.rcd k))).plan
              (c * (GroupHdr.parse (s.block d (j.rcd k))).stripes) (GroupHdr.parse (s.block d (j.rcd k))).stripes).isEmpty)
          || env.datapath || !(run.ue ++ t.partWrites run.writes).isEmpty then t.groupDone ⟨d.uid, k⟩ env else t := fun hfree => by
      simp only [State.groupStart, htiles]
      rw [if_neg (not_not_intro hbad), if_neg (by simpa [ps] using hfree)]
      simp only [List.length_map]
      rfl
    refine ⟨fun hfree hnone => by rw [hfits hfree, if_pos hnone], fun hfree hplaced hplan hpath hue hpart => ?_⟩
    obtain ⟨c, hc, hplan⟩ := hplan
    have hbufs : (List.range tls.length).all (fun c => ((s.groupIn (j.ctx (j.rcd k)
            { stoch := s.stochasticOn (j.rcd k) p, ovfSat := s.flag .TIL_CVT_OVF_SAT p } (d.num 0x20 8) p env) (s.block d (j.rcd k))).plan
              (c * (GroupHdr.parse (s.block d (j.rcd k))).stripes) (GroupHdr.parse (s.block d (j.rcd k))).stripes).isEmpty) = false := by
      rw [List.all_eq_false]
      exact ⟨c, List.mem_range.2 hc, by simpa using hplan⟩
    refine ⟨?_, fun q hq => ?_, fun y hy => mem_groups_groupHold placed _ (.inr (List.mem_map_of_mem hy))⟩
    · rw [hfits hfree, if_neg (by simp [hplaced]), if_neg]
      rw [hbufs, hpath, hue, hpart]
      simp
    · have hrun : t.tile q = ((s.disturb p env).opStart d.uid k p ps ((tls.headD []).headD 0)).tile q := by
        rw [State.tile, tiles_groupHold]
        rfl
      rw [hrun]
      exact runs_opStart k p ps _ hjob hq

/-! ### The pages of firmware's (R428, R450, R457) -/

/-- Each command of `firmwareCommands` is a write of firmware's to its page. -/
theorem exec_firmwareCommand {a b : Nat} {on : Bool} {pkg : Option LanePkg} {e : (Win → Sys2Proof.Instr) × Reg × Nat × (State → Nat)}
    (he : e ∈ firmwareCommands a b on pkg) (s : State) : ∃ f, ∀ w, exec (e.1 w) s = s.fwCommand w e.2.1 e.2.2.1 (e.2.2.2 s) f := by
  simp only [firmwareCommands, List.mem_cons, List.not_mem_nil, or_false] at he
  rcases he with rfl | rfl | rfl | rfl | rfl | rfl | rfl | rfl | rfl | rfl | rfl | rfl | rfl | rfl | rfl | rfl | rfl | rfl | rfl | rfl
    | rfl | rfl | rfl | rfl | rfl | rfl | rfl | rfl
  exacts [⟨_, fun _ => rfl⟩, ⟨_, fun _ => rfl⟩, ⟨fun s => s.lbFlush a, fun _ => rfl⟩, ⟨fun s => s.cluCntClr a, fun _ => rfl⟩,
    ⟨fun s => s.cluCtrlAll b, fun _ => rfl⟩, ⟨fun s => if a < 153 then s.haltWrite a on else s, fun _ => rfl⟩,
    ⟨fun s => s.tilCvtAll b, fun _ => rfl⟩, ⟨_, fun _ => rfl⟩, ⟨_, fun _ => rfl⟩, ⟨_, fun _ => rfl⟩, ⟨_, fun _ => rfl⟩,
    ⟨fun s => s.install pkg, fun _ => rfl⟩, ⟨_, fun _ => rfl⟩, ⟨_, fun _ => rfl⟩, ⟨_, fun _ => rfl⟩, ⟨_, fun _ => rfl⟩,
    ⟨fun s => s.laneEnWrite b, fun _ => rfl⟩, ⟨fun s => s.gridWrite b, fun _ => rfl⟩, ⟨_, fun _ => rfl⟩, ⟨_, fun _ => rfl⟩, ⟨_, fun _ => rfl⟩,
    ⟨_, fun _ => rfl⟩, ⟨fun s => s.repairCmd on, fun _ => rfl⟩, ⟨fun s => s.freeze 1, fun _ => rfl⟩, ⟨fun s => s.trim a on, fun _ => rfl⟩,
    ⟨fun s => s.lowPowerSet on, fun _ => rfl⟩, ⟨fun s => s.gateWrite on b, fun _ => rfl⟩, ⟨_, fun _ => rfl⟩]

/-- Settles O18: `fwCommand_spec` for each of the commands. -/
theorem firmwarePagesAreFirmwares : Obligations.FirmwarePagesAreFirmwares := by
  intro a b on pkg e he s
  obtain ⟨f, hexec⟩ := exec_firmwareCommand he s
  obtain ⟨hopen, hclosed⟩ := fwCommand_spec s e.2.1 e.2.2.1 (e.2.2.2 s) f
  refine ⟨fun hpage => ?_, fun hpage w => (hexec w).trans (hclosed hpage w)⟩
  obtain ⟨hrealm, -, t, ht⟩ := hopen hpage
  exact ⟨fun r => (hexec _).trans (hrealm r), t, (hexec _).trans ht.1, ht.2⟩

end Sys2Proof.Machine

/-! SUPPORT. The memory hub's pages: spilling, fetching and reclaiming (R155-R158, R166). -/

namespace Sys2Proof.Machine

@[simp] theorem ent_setEnt_self (k : Kvm) (e : Nat) (x : PageEnt) : (k.setEnt e x).ent e = x := Tab.get_set_self _ _ _ _

theorem ent_setEnt_of_ne (k : Kvm) {e e' : Nat} (x : PageEnt) (h : e' ≠ e) : (k.setEnt e x).ent e' = k.ent e' := Tab.get_set_of_ne _ _ _ h

theorem kvm_chargeSpill (s : State) (n : Nat) : (s.chargeSpill n).kvm = s.kvm := by
  unfold State.chargeSpill
  dsimp only
  split
  · exact kvm_setSts _ _ _ _
  · rfl

theorem kvm_errEntry (s : State) (e : Nat) : (s.errEntry e).kvm = s.kvm := by
  unfold State.errEntry
  split <;> rfl

/-- The end of a copy makes a SPILLING entry SPILLED, with the next spill count (R157, R158). -/
theorem kvm_spillDone {s : State} {e : Nat} (h : (s.kvm.ent e).st = .spilling) : ∃ tag, (s.spillDone e).kvm =
    { s.kvm.setEnt e { s.kvm.ent e with st := .spilled, tag := tag, spillCount := s.kvm.spills % 2 ^ 32, sealedBy := e, frame := 0 } with
      spills := s.kvm.spills + 1 } := by
  refine ⟨(gcmSeal (s.spillKey (s.kvm.ent e).realm) (spillNonce e (s.kvm.spills % 2 ^ 32)) []
    (s.bytes (s.frameAddr (s.kvm.ent e).realm (s.kvm.ent e).frame) ((s.kvm.ent e).gran * 4096))).2, ?_⟩
  unfold State.spillDone
  rw [if_neg (not_not_intro h)]
  dsimp only
  generalize gcmSeal _ _ _ _ = c
  split
  · rw [kvm_chargeSpill]
    rfl
  · rfl

/-- What opens the sealed frame of an entry: nothing when its words are uncorrectable or its tag fails (R158). -/
def State.openedFrame (s : State) (e : Nat) : Option (List Nat) :=
  let p := s.kvm.ent e
  if s.mem.isBad (s.slotAddr p.realm p) (p.gran * 4096) then none
  else gcmOpen (s.spillKey p.realm) (spillNonce p.sealedBy p.spillCount) [] (s.bytes (s.slotAddr p.realm p) (p.gran * 4096)) p.tag

/-- The end of a fetch makes a FETCHING entry RESIDENT, poisoned when its frame does not open (R157, R158). -/
theorem kvm_fetchDone {s : State} {e : Nat} (h : (s.kvm.ent e).st = .fetching) (w : Nat) : (s.fetchDone e w).kvm =
    s.kvm.setEnt e { s.kvm.ent e with st := .resident, slot := 0, lastRead := s.kvm.cur,
                                      poison := (s.kvm.ent e).poison || (s.openedFrame e).isNone } := by
  have hopen : s.fetchDone e w = match s.openedFrame e with
      | some d => (((s.bumpWrap .KVM_PERF_FETCH_COUNT 1).bumpWrap .KVM_PERF_FETCH_WAIT_COUNT w).store
          (((s.bumpWrap .KVM_PERF_FETCH_COUNT 1).bumpWrap .KVM_PERF_FETCH_WAIT_COUNT w).frameAddr (s.kvm.ent e).realm (s.kvm.ent e).frame) d).onKvm
            (fun k => k.setEnt e { s.kvm.ent e with st := .resident, slot := 0, lastRead := k.cur })
      | none => ((((s.bumpWrap .KVM_PERF_FETCH_COUNT 1).bumpWrap .KVM_PERF_FETCH_WAIT_COUNT w).onKvm
          (fun k => k.setEnt e { s.kvm.ent e with st := .resident, slot := 0, poison := true, lastRead := k.cur })).errEntry e).setSts .KVM_STS [3] := by
    unfold State.fetchDone
    rw [if_neg (not_not_intro h)]
    rfl
  rw [hopen]
  cases s.openedFrame e with
  | some d => simp only [Option.isNone_some, Bool.or_false]; rfl
  | none =>
    rw [kvm_setSts, kvm_errEntry]
    simp only [Option.isNone_none, Bool.or_true]
    rfl

/-- Settles O20: the hub's commands branch by branch. -/
theorem pagesSpillAndComeBack : Obligations.PagesSpillAndComeBack := by
  intro e s hready
  refine ⟨fun r _ henough => ?_, fun r c a hr hen hlow hents hhigh hfirst hto => ?_, fun hst => ?_, fun hst w => ?_, fun hst hall => ?_, fun hyoung => ?_, fun hopen => ?_⟩
  · change execSpillStart r s = _
    rw [execSpillStart, whenReady_of_ready _ hready, if_neg]
    rintro ⟨-, -, hlow⟩
    omega
  · change execSpillStart r s = _
    obtain ⟨n, hn⟩ := Nat.exists_eq_add_one_of_ne_zero (mt List.length_eq_zero_iff.1 hents)
    rw [execSpillStart, whenReady_of_ready _ hready, if_pos ⟨hr, hen, hlow⟩, hn, State.spillPages, if_neg (by omega)]
    simp only [hfirst, hto, Nat.add_sub_cancel]
    rfl
  · obtain ⟨tag, hkvm⟩ := kvm_spillDone hst
    refine ⟨s.spillDone e, show execSpillCopyDone e s = _ from whenReady_of_ready _ hready, ?_⟩
    rw [hkvm]
    have hent : ∀ (k : Kvm) n, (({ k with spills := n } : Kvm).ent e) = k.ent e := fun _ _ => rfl
    simp only [hent, ent_setEnt_self, and_self]
  · refine ⟨s.fetchDone e w, show execPageFetchDone e w s = _ from whenReady_of_ready _ hready, ?_⟩
    rw [kvm_fetchDone hst, ent_setEnt_self]
    refine ⟨rfl, ?_⟩
    unfold State.openedFrame
    dsimp only
    generalize gcmOpen _ _ _ _ _ = o
    simp only [Bool.or_eq_true, Option.isNone_iff_eq_none]
    split
    · simp [*]
    · simp [*]
  · have hre : s.kvm.reclaimable (s.kvm.ent e) = true := by simpa [Kvm.reclaimable, hst] using hall
    have hkvm : s.kvm.reclaim e = s.kvm.setEnt e {} := by simp [Kvm.reclaim, hre, hst]
    refine ⟨s.onKvm (fun k => k.reclaim e), show execDeferredReclaim e s = _ from whenReady_of_ready _ hready, ?_, sameBut_onKvm s _ (by decide), fun k hk => ?_⟩
    · change ((s.kvm.reclaim e).ent e).st = _
      rw [hkvm, ent_setEnt_self]
    · change (s.kvm.reclaim e).ent k = _
      rw [hkvm, ent_setEnt_of_ne _ _ hk]
  · obtain ⟨x, hx, hafter⟩ := hyoung
    have hre : s.kvm.reclaimable (s.kvm.ent e) = false := by
      rw [Kvm.reclaimable, Bool.and_eq_false_iff]
      exact .inr (List.all_eq_false.2 ⟨x, hx, by simp [hafter]⟩)
    have hkvm : s.kvm.reclaim e = s.kvm := by simp [Kvm.reclaim, hre]
    change execDeferredReclaim e s = _
    rw [execDeferredReclaim, whenReady_of_ready _ hready, State.onKvm, hkvm]
  · exact ⟨s.reclaimAll, fw_open s .KVM_CMD 0 2 _ hopen, rfl, sameBut_onKvm s _ (by decide)⟩

end Sys2Proof.Machine

/-! SUPPORT. The serving engine's steps, deadlines, accounts and prefix handles (R162-R165, R225-R251), and the generator sets (R333-R355). -/

namespace Sys2Proof.Machine

/-- A command that changes nothing where its block answers changes nothing. -/
theorem whenUp_of_id {s : State} {f : State → State} (h : f s = s) : s.whenUp f = .next s := by simp [State.whenUp, h]

/-! ### Steps and the commit point (R225, R226, R234) -/

/-- Settles O24: the branches of the step's commands. -/
theorem stepsRunToTheirCommitPoint : Obligations.StepsRunToTheirCommitPoint := by
  intro r st s hready hstep
  refine ⟨fun hheld hrun outs => ?_, fun hrun hleft => ?_, fun hrun hspent => ?_, fun hheld hcommit hrise cs => ?_⟩
  · refine ⟨(s.commitSeqs st.slots outs).onSrv (fun v => { v with steps := Tab.put r { st with phase := .commit } v.steps }), ?_,
      Tab.find_put_self _ _ _, sameBut_onSrv _ _ (by decide)⟩
    change execSample r outs s = _
    rw [execSample, whenRunning_of_ready _ hready hheld]
    simp [hstep, hrun]
  · let u := s.onSrv (fun v => { v with steps := Tab.put r { st with retry := st.retry + 1 } v.steps })
    have hsrv : ((u.srvSts 2).srvEvent 4 r (s.fld .SRV_STEP_CNT_COUNT + (st.retry + 1) * 2 ^ 32)).srv = u.srv := by
      rw [State.srvEvent, srv_emit, State.srvSts, srv_setSts]
    refine ⟨(u.srvSts 2).srvEvent 4 r (s.fld .SRV_STEP_CNT_COUNT + (st.retry + 1) * 2 ^ 32), ?_, ?_, ?_, ?_, ?_⟩
    · change execStepRetry r s = _
      rw [execStepRetry, whenReady_of_ready _ hready]
      simp only [hstep, if_neg (not_not_intro hrun), if_pos hleft]
      rfl
    · rw [hsrv]
      exact Tab.find_put_self _ _ _
    · exact stsBit_emit _ (stsBit_setSts _ (by decide))
    · exact sameBut_trans (sameBut_onSrv _ _ (by decide))
        (sameBut_trans (sameBut_sts _ _ _ _ (by decide)) (sameBut_emit _ _ _ _ _ _ (by decide)))
    · rw [hsrv]
      rfl
  · let u := st.slots.foldl (fun s slot => s.endRequest slot stSrvFault 4) s
    refine ⟨(u.onSrv (fun v => { v with steps := Tab.del r v.steps })).srvSts 3, ?_, ?_, stsBit_setSts _ (by decide), ?_⟩
    · change execStepRetry r s = _
      rw [execStepRetry, whenReady_of_ready _ hready]
      simp only [hstep, if_neg (not_not_intro hrun), if_neg (Nat.not_lt.2 hspent)]
      rfl
    · rw [State.srvSts, srv_setSts]
      exact Tab.find_del_self _ _
    · rw [State.srvSts, srv_setSts]
      rfl
  · change execCommitPoint r cs s = _
    rw [execCommitPoint, whenRunning_of_ready _ hready hheld]
    simp [hstep, hcommit, hrise]

/-! ### Ended requests and deadlines (R243, R244, R246) -/

/-- Settles O25: the branches of SLOT_FREE and of a deadline. -/
theorem requestsLeaveTheirSlots : Obligations.RequestsLeaveTheirSlots := by
  intro slot q s hready hreq
  refine ⟨fun hwritten hfree => ?_, fun ⟨e, he, hin⟩ => ?_, fun hdead hwait hlate => ?_⟩
  · refine ⟨s.onSrv (fun v => { v with reqs := Tab.del slot v.reqs, gens := Tab.put slot ((q.gen + 1) % 2 ^ 16) v.gens }), ?_,
      Tab.find_del_self _ _, Tab.find_put_self _ _ _, sameBut_onSrv _ _ (by decide)⟩
    have hall : s.srv.steps.all (fun e => !e.2.slots.contains slot) = true := by
      simpa [List.all_eq_true] using hfree
    change execSlotFree slot s = _
    rw [execSlotFree, whenReady_of_ready _ hready]
    simp only [hreq, hwritten, hall, Bool.and_self, ↓reduceIte]
  · have hall : s.srv.steps.all (fun e => !e.2.slots.contains slot) = false := List.all_eq_false.2 ⟨e, he, by simpa using hin⟩
    change execSlotFree slot s = _
    rw [execSlotFree, whenReady_of_ready _ hready]
    simp only [hreq, hall, Bool.and_false, Bool.false_eq_true, ↓reduceIte]
  · refine ⟨({ s with gauge := max s.gauge q.deadline } : State).setReq slot { q with late := true }, Tab.find_put_self _ _ _, rfl,
      sameBut_trans (sameBut_gauge _ _ _ (by decide)) (sameBut_onSrv _ _ (by decide)), ?_⟩
    have hwaits : (q.waiting || q.st == .waitModel) = true := by simpa using hwait
    change execDeadlinePass slot s = _
    rw [execDeadlinePass, whenReady_of_ready _ hready]
    simp only [hreq, hdead, hwaits, hlate, Bool.not_true, Bool.or_self, Bool.false_eq_true, or_self, ↓reduceIte]
    rfl

/-! ### Account levels (R235) -/

@[simp] theorem level_setLevel_self (s : State) (a : Nat) (l : Int) : (s.setLevel a l).level a = l := Tab.get_set_self _ _ _ _

theorem level_setLevel_of_ne (s : State) {a b : Nat} (l : Int) (h : b ≠ a) : (s.setLevel a l).level b = s.level b := Tab.get_set_of_ne _ _ _ h

/-- The LEVEL that a refill gives an account (R235). -/
def State.refilled (s : State) (a : Nat) : Int :=
  max (min (s.level a) (256 * s.fld .SRV_ACC_CFG_BURST 0 a : Nat)) (min (256 * s.fld .SRV_ACC_CFG_BURST 0 a : Nat) (s.level a + (s.fld .SRV_ACC_RATE_RATE 0 a : Nat)))

/-- The refill of one account. -/
def State.refillOne (s : State) (a : Nat) : State := if s.fld .SRV_ACC_RATE_RATE 0 a = 0 then s else s.setLevel a (s.refilled a)

/-- A state that differs in the accounts' levels alone. -/
theorem refillOne_kept (s : State) (a : Nat) : s.sameBut (s.refillOne a) [.srv] ∧ (s.refillOne a).srv.refills = s.srv.refills := by
  unfold State.refillOne
  split
  · exact ⟨sameBut_refl _ _, rfl⟩
  · exact ⟨sameBut_onSrv _ _ (by decide), rfl⟩

/-- A refill of the accounts below `n` gives each of them its own level, and leaves the others theirs (R235). -/
theorem refill_spec (s : State) (n : Nat) : let t := (List.range n).foldl State.refillOne s
    s.sameBut t [.srv] ∧ t.srv.refills = s.srv.refills
      ∧ ∀ a, t.level a = if a < n ∧ s.fld .SRV_ACC_RATE_RATE 0 a ≠ 0 then s.refilled a else s.level a := by
  induction n with
  | zero => exact ⟨sameBut_refl _ _, rfl, fun a => by simp⟩
  | succ n ih =>
    rw [List.range_succ, List.foldl_append]
    generalize (List.range n).foldl State.refillOne s = u at ih
    obtain ⟨hsame, hrefills, hlevel⟩ := ih
    obtain ⟨hsame1, hrefills1⟩ := refillOne_kept u n
    refine ⟨sameBut_trans hsame hsame1, hrefills1.trans hrefills, fun a => ?_⟩
    have hregs : u.regs = s.regs := (hsame .regs (by decide)).symm
    have hfld : ∀ (f : Fld) b, u.fld f 0 b = s.fld f 0 b := fun f b => by simp only [State.fld, State.word, hregs]
    change (u.refillOne n).level a = _
    rw [State.refillOne, hfld]
    by_cases ha : a = n
    · have hn : u.level a = s.level a := by simp [hlevel, ha]
      by_cases hr : s.fld .SRV_ACC_RATE_RATE 0 n = 0
      · rw [if_pos hr, hn, if_neg (by simp [ha, hr])]
      · rw [if_neg hr, ha, level_setLevel_self, if_pos ⟨Nat.lt_succ_self n, hr⟩, State.refilled, State.refilled, hfld, hfld, ← ha, hn]
    · have hother : (if s.fld .SRV_ACC_RATE_RATE 0 n = 0 then u else u.setLevel n (u.refilled n)).level a = u.level a := by
        split
        · rfl
        · exact level_setLevel_of_ne _ _ ha
      have hlt : a < n + 1 ↔ a < n := by omega
      rw [hother, hlevel]
      simp only [hlt]

/-- Settles O26: the refill goes over the accounts one by one, each on its own registers. -/
theorem accountLevelsRefill : Obligations.AccountLevelsRefill := by
  intro s
  refine ⟨fun hready => ?_, fun hopen => ⟨s.accRefill, fw_open s .SRV_CMD 0 2 _ hopen, sameBut_onSrv _ _ (by decide), fun a => ?_⟩⟩
  · let u := ({ s with gauge := max s.gauge (65536 * (s.srv.refills + 1)) } : State).onSrv (fun v => { v with refills := v.refills + 1 })
    obtain ⟨hsame, hrefills, hlevel⟩ := refill_spec u 1024
    refine ⟨(List.range 1024).foldl State.refillOne u, show execAccountLevelRefill s = _ from whenReady_of_ready _ hready,
      (hsame .gauge (by decide)).symm, hrefills, ?_, hlevel⟩
    exact sameBut_trans (sameBut_gauge s _ _ (by decide)) (sameBut_trans (sameBut_onSrv _ _ (by decide)) (sameBut_mono hsame (by decide)))
  · by_cases ha : a = s.fld .SRV_ACC_SEL_ACC
    · rw [if_pos ha, ha]
      exact level_setLevel_self _ _ _
    · rw [if_neg ha]
      exact level_setLevel_of_ne _ _ ha

/-! ### Prefix handles (R162, R165, R250, R251) -/

/-- PREFIX_REGISTER of a starting descriptor whose handle is free (R250, R251). -/
theorem exec_prefixRegister {s : State} {r n i : Nat} {d : Desc} (hready : s.ready = true) (hstart : s.starting r n i 6 = some d) :
    let a := s.acted r n d
    exec (.prefixRegister r n i) s = .next (if (s.kvm.prefixOf r (d.num 8 8)).isSome then a.done r n d.uid stPrefixExists
      else if d.byte 0x14 = 1 then
        match s.kvm.skein (d.num 0x18 4) with
        | none => a.done r n d.uid stNotFound
        | some k => if k.realm ≠ r then a.done r n d.uid stNotFound
          else a.registerPrefix r n d.uid (d.num 0x18 4) (d.num 0x10 4) (d.num 8 8)
            (((s.srv.reqs.find? (fun e => e.2.root == d.num 0x18 4 && e.2.live)).map (fun e => e.2.model)).getD 0xFFFF)
      else match oldest (s.srv.reqs.filter (fun e => e.2.realm == r && e.2.live && e.2.ring == d.byte 0x15 && e.2.tag == d.num 0x18 4)) with
        | none => a.done r n d.uid stNotFound
        | some e => (a.onSrv (fun v => { v with waits := v.waits ++ [⟨r, n, d.uid, e.1, d.num 0x10 4, d.num 8 8⟩] })).applyWaits e.1) := by
  change execPrefixRegister r n i s = _
  rw [execPrefixRegister, whenReady_of_ready _ hready, onDesc_of_starting _ hstart]
  rfl

/-- PREFIX_RELEASE of a handle that is held (R162, R165): the record, the memory hub and the serving engine. -/
theorem prefixReleased_spec {s : State} {r n : Nat} {d : Desc} (p : Nat × Prefix) : let a := s.acted r n d
    let t := ((a.prefixDrop p.1 p.2).onSrv (fun v => { v with prefixModel := Tab.del p.1 v.prefixModel })).done r n d.uid stOk
    t.kvm = (s.prefixDrop p.1 p.2).kvm ∧ Tab.find p.1 t.srv.prefixModel = none ∧ (s.recordable r n d → s.completed t r n d stOk) := by
  refine ⟨(sameBut_done _ r n d.uid stOk .kvm (by decide)).symm, ?_, fun hrec => ?_⟩
  · rw [srv_done]
    exact Tab.find_del_self _ _
  · exact completed_acted s (done_after (d := { d with acted := true }) stOk (recordable_acted s hrec) rfl rfl (fun _ _ => rfl))

/-- Settles O27: the branches of the two commands. -/
theorem prefixHandlesAreHeldAndReleased : Obligations.PrefixHandlesAreHeldAndReleased := by
  intro r n i s d hready a
  refine ⟨fun hstart => ⟨fun hheld => ?_, fun hfree hroot => ⟨fun k hk hr => ?_, fun hnone => ?_⟩, fun hfree hroot => ?_⟩, fun hstart => ⟨fun hnone => ?_, fun p hp => ?_⟩⟩
  · rw [exec_prefixRegister hready hstart, if_pos hheld]
  · refine ⟨((s.srv.reqs.find? (fun e => e.2.root == d.num 0x18 4 && e.2.live)).map (fun e => e.2.model)).getD 0xFFFF, ?_, fun p hp hpr hlive huniq => ?_⟩
    · rw [exec_prefixRegister hready hstart, hfree, if_neg (by simp), if_pos hroot]
      simp only [hk, hr, ne_eq, not_true_eq_false, ↓reduceIte, a]
    · cases hfind : s.srv.reqs.find? (fun e => e.2.root == d.num 0x18 4 && e.2.live) with
      | none => exact absurd (List.find?_eq_none.1 hfind p hp) (by simp [hpr, hlive])
      | some q =>
        have hq := List.find?_some hfind
        simp only [Bool.and_eq_true, beq_iff_eq] at hq
        simp [huniq q (List.mem_of_find?_eq_some hfind) hq.1 hq.2]
  · rw [exec_prefixRegister hready hstart, hfree, if_neg (by simp), if_pos hroot]
    cases hk : s.kvm.skein (d.num 0x18 4) with
    | none => rfl
    | some k => simp only [hnone k hk, ne_eq, not_false_eq_true, ↓reduceIte, a]
  · intro named
    have hexec := exec_prefixRegister hready hstart
    dsimp only at hexec
    rw [hfree, if_neg (by simp), if_neg hroot] at hexec
    refine ⟨fun hnone => ?_, fun e he => ?_⟩
    · rw [hexec, show oldest _ = _ from hnone]
    · rw [hexec, show oldest _ = _ from he]
  · change execPrefixRelease r n i s = _
    rw [execPrefixRelease, whenReady_of_ready _ hready, onDesc_of_starting _ hstart]
    change Host.Outcome.next (match s.kvm.prefixOf r (d.num 8 8) with | none => _ | some p => _) = _
    rw [hnone]
  · obtain ⟨hkvm, hmodel, hdone⟩ := prefixReleased_spec (s := s) (r := r) (n := n) (d := d) p
    refine ⟨_, ?_, ?_, hkvm, hmodel, hdone⟩
    · change execPrefixRelease r n i s = _
      rw [execPrefixRelease, whenReady_of_ready _ hready, onDesc_of_starting _ hstart]
      change Host.Outcome.next (match s.kvm.prefixOf r (d.num 8 8) with | none => _ | some p => _) = _
      rw [hp]
    · rw [hkvm]
      exact Tab.find_del_self _ _

/-! ### The generator sets (R333, R335, R355) -/

@[simp] theorem genOf_setGen_self (s : State) (r : Nat) (g : GenSet) : (s.setGen r g).genOf r = g := Tab.get_set_self _ _ _ _

theorem genOf_setGen_of_ne (s : State) {r q : Nat} (g : GenSet) (h : q ≠ r) : (s.setGen r g).genOf q = s.genOf q := Tab.get_set_of_ne _ _ _ h

/-- Settles O29: the branches of GEN_RUN and of its end. -/
theorem generatorSetsRun : Obligations.GeneratorSetsRun := by
  intro r s
  refine ⟨fun hpage hwin => ?_, fun hopen => fw_open s .DET_CMD 0 1 (fun s => s.genRun (s.genSet .fw)) hopen, fun hup hbusy => ?_, fun hidle => whenUp_of_id (by simp [hidle])⟩
  · refine ⟨s.genRun r, ?_, ?_, ?_, fun q hq => ?_⟩
    · change execGenRun (.realm r) s = _
      simp [execGenRun, hpage, hwin]
    all_goals unfold State.genRun; split
    · rfl
    · exact genOf_setGen_self _ _ _
    · exact sameBut_refl _ _
    · exact sameBut_onDet _ _ (by decide)
    · rfl
    · exact genOf_setGen_of_ne _ _ hq
  · refine ⟨(s.setGen r {}).setWord .DET_GEN_OUT 0 r (BitVec.ofNat 32 (gen (s.genOf r).seed (s.genOf r).stream (s.genOf r).pos)), ?_, ?_,
      State.word_setWord_self _ _ _ _ _, ?_, ?_⟩
    · change execGenDone r s = _
      rw [execGenDone, whenUp_of_up _ hup]
      simp only [hbusy, ↓reduceIte]
    · exact congrArg GenSet.busy (genOf_setGen_self s r {})
    · exact sameBut_trans (sameBut_onDet _ _ (by decide)) (sameBut_setWord _ _ _ _ _ _ (by decide))
    · exact regsBut_setWord (s.setGen r {}) _ _ _ _ _ (by simp)

end Sys2Proof.Machine

/-! SUPPORT. Loading and evicting models (R256-R258, R338, R401). -/

namespace Sys2Proof.Machine

@[simp] theorem model_setModel_self (s : State) (m : Nat) (x : Model) : (s.setModel m x).srv.model m = x := Tab.get_set_self _ _ _ _

theorem srv_modelEvent (s : State) (m r st status : Nat) : (s.modelEvent m r st status).srv = s.srv := srv_emit _ _ _ _ _ _

theorem srv_finishDesc (s : State) (d : Option (Nat × Nat × Nat)) (st : Nat) : (s.finishDesc d st).srv = s.srv := by
  cases d with
  | none => rfl
  | some d => exact srv_done _ _ _ _ _

theorem sameBut_modelEvent (s : State) (m r st status : Nat) {ps : List Part} (h : eventParts ⊆ ps) : s.sameBut (s.modelEvent m r st status) ps :=
  sameBut_emit _ _ _ _ _ _ h

/-- Requests that wait for a model that has loaded leave the models as they are. -/
theorem models_wakeModel (s : State) (m : Nat) : (s.wakeModel m true).srv.models = s.srv.models := by
  unfold State.wakeModel
  generalize s.srv.reqs.filter _ = l
  induction l generalizing s with
  | nil => rfl
  | cons e l ih => exact ih _

theorem exec_modelLoad {s : State} {r n i : Nat} {d : Desc} (hready : s.ready = true) (hheld : s.workHeld = false) (hgate : s.gated gServing = false)
    (hstart : s.starting r n i 8 = some d) (prof geom policy keep : Nat) (draft : Bool) :
    exec (.modelLoad r n i prof geom policy keep draft) s = .next ((s.acted r n d).modelLoad r n d prof geom policy keep draft) := by
  change execModelLoad r n i prof geom policy keep draft s = _
  rw [execModelLoad, whenRunning_of_ready _ hready hheld, hgate]
  exact congrArg Host.Outcome.next (onDesc_of_starting (fun d s => s.modelLoad r n d prof geom policy keep draft) hstart)

theorem exec_modelEvict {s : State} {r n i : Nat} {d : Desc} (hready : s.ready = true) (hstart : s.starting r n i 9 = some d) :
    exec (.modelEvict r n i) s = .next ((s.acted r n d).modelEvict r n d) := by
  change execModelEvict r n i s = _
  rw [execModelEvict, whenReady_of_ready _ hready, onDesc_of_starting _ hstart]

/-- The profile registers that a load writes are apart from the area of a realm's models. -/
theorem mdlBase_key_ne_profile {r p : Nat} {g : Reg} (hr : r < 4) (hg : g ∈ [Reg.KVM_PROF_POLICY, .KVM_PROF_KEEP, .KVM_PROF_GEOM]) :
    Fld.SRV_RLM_MDL_BASE_BASE.reg.key 0 r ≠ g.key 0 (p % 64) := by
  have hp : p % 64 < 1024 := by omega
  simp only [List.mem_cons, List.not_mem_nil, or_false] at hg
  rcases hg with rfl | rfl | rfl <;> exact Reg.key_ne (by decide) (by decide) hp (by omega) (.inl (by decide))

/-- A load that finds room (R256, R257). -/
theorem modelLoad_of_place {s : State} {r n : Nat} {d : Desc} {p : Nat} (hr : r < 4) (prof geom policy keep : Nat) (draft : Bool)
    (habsent : (s.srv.model (d.num 8 2)).st = .absent)
    (hplace : s.modelPlace r (ceilDiv (s.num (pkgBase (d.byte 0x0A) + d.num 0x10 8 + 8) 8) 4096) = some p) :
    s.sameBut (s.modelLoad r n d prof geom policy keep draft) (.srv :: eventParts)
      ∧ (s.modelLoad r n d prof geom policy keep draft).srv.model (d.num 8 2)
        = { st := .loading, realm := r, profile := prof % 64, base := s.fld .SRV_RLM_MDL_BASE_BASE 0 r + p,
            size := ceilDiv (s.num (pkgBase (d.byte 0x0A) + d.num 0x10 8 + 8) 8) 4096, draft := draft, desc := some (r, n, d.uid),
            source := d.byte 0x0A, package := d.num 0x10 8, bytes := d.num 0x18 8, pkgKey := d.num 0x0C 2 } := by
  have hbase : (((s.setWord .KVM_PROF_POLICY 0 (prof % 64) (BitVec.ofNat 32 policy)).setWord .KVM_PROF_KEEP 0 (prof % 64) (BitVec.ofNat 32 keep)).setWord
      .KVM_PROF_GEOM 0 (prof % 64) (BitVec.ofNat 32 geom)).fld .SRV_RLM_MDL_BASE_BASE 0 r = s.fld .SRV_RLM_MDL_BASE_BASE 0 r := by
    rw [State.fld_setWord_of_ne _ _ (mdlBase_key_ne_profile hr (by decide)), State.fld_setWord_of_ne _ _ (mdlBase_key_ne_profile hr (by decide)),
      State.fld_setWord_of_ne _ _ (mdlBase_key_ne_profile hr (by decide))]
  simp only [State.modelLoad, habsent, ne_eq, not_true_eq_false, ↓reduceIte, hplace]
  refine ⟨?_, ?_⟩
  · exact sameBut_trans (sameBut_setWord _ _ _ _ _ _ (by decide)) (sameBut_trans (sameBut_setWord _ _ _ _ _ _ (by decide))
      (sameBut_trans (sameBut_setWord _ _ _ _ _ _ (by decide)) (sameBut_trans (sameBut_onSrv _ _ (by decide)) (sameBut_modelEvent _ _ _ _ _ (by decide)))))
  · rw [srv_modelEvent, model_setModel_self, hbase]

/-- The end of a load whose package opens (R256, R257, R338, R401). -/
theorem model_modelLoadDone {s : State} {k : Nat} {y : KeySlot} {p : List Nat} (hst : (s.srv.model k).st = .loading)
    (hkey : s.keySlot (s.srv.model k).realm (s.srv.model k).pkgKey = some y)
    (hopen : openPackage y.key (s.bytes (pkgBase (s.srv.model k).source + (s.srv.model k).package) (s.srv.model k).bytes) 0 = some p) :
    (s.modelLoadDone k).srv.model k = { s.srv.model k with st := .resident, digest := chunkDigest p, desc := none } := by
  unfold State.modelLoadDone
  rw [if_neg (not_not_intro hst)]
  simp only [hkey, hopen]
  rw [srv_finishDesc, srv_modelEvent, State.srvSts, srv_setSts, Srv.model, models_wakeModel]
  exact model_setModel_self _ _ _

/-- Settles O28: the branches of `modelLoad`, `modelEvict` and their ends. -/
theorem modelsLoadAndEvict : Obligations.ModelsLoadAndEvict := by
  intro r n i s d hr hready a m
  refine ⟨fun hheld hgate hstart prof geom policy keep draft => ?_, fun hstart => ?_, fun k x hx hst hlive => ?_, fun k x hx hheld hst => ?_⟩
  · have hexec := exec_modelLoad hready hheld hgate hstart prof geom policy keep draft
    refine ⟨fun hbusy => hexec.trans (congrArg _ (if_pos hbusy)), fun habsent size hsize => ⟨fun hfull => ?_, fun p hplace => ?_⟩⟩
    · have hst : ((s.acted r n d).srv.model (d.num 8 2)).st = .absent := habsent
      rw [hexec, State.modelLoad, if_neg (not_not_intro hst)]
      have hplace : (s.acted r n d).modelPlace r (ceilDiv ((s.acted r n d).num (pkgBase (d.byte 0x0A) + d.num 0x10 8 + 8) 8) 4096) = none := hsize ▸ hfull
      simp only [hplace, a]
    · obtain ⟨hsame, hmodel⟩ := modelLoad_of_place (s := a) (n := n) hr prof geom policy keep draft habsent (hsize ▸ hplace)
      exact ⟨_, hexec, hsame, hsize ▸ hmodel⟩
  · intro x
    have hexec := exec_modelEvict hready hstart
    refine ⟨fun hnone => hexec.trans (congrArg _ (if_pos hnone)), fun hrealm hbusy => ?_, fun hrealm hst hmode => ?_, fun hrealm hst hmode hlive => ?_⟩
    · have hhere : ¬ (x.st = .absent ∨ x.realm ≠ r) := by
        rintro (habs | hne)
        · exact hbusy.elim (fun h => by simp [h] at habs) (fun h => h.1 habs)
        · exact hne hrealm
      rw [hexec]
      refine congrArg _ ((if_neg hhere).trans ?_)
      by_cases hev : x.st = .evicting
      · exact if_pos hev
      · exact (if_neg hev).trans (if_pos (hbusy.resolve_left hev).2)
    · refine ⟨(a.setModel m { x with st := .evicting, desc := some (r, n, d.uid) }).modelEvent m r 3 0, ?_, ?_, ?_⟩
      · rw [hexec, State.modelEvict]
        have hx : (s.acted r n d).srv.model (d.num 8 2) = x := rfl
        simp [hx, hrealm, hst, hmode, a, m]
      · rw [srv_modelEvent, model_setModel_self]
      · exact sameBut_trans (sameBut_onSrv _ _ (by decide)) (sameBut_modelEvent _ _ _ _ _ (by decide))
    · refine ⟨((a.setModel m {}).modelEvent m r 0 0).done r n d.uid stOk, ?_, ?_⟩
      · rw [hexec, State.modelEvict]
        have hx : (s.acted r n d).srv.model (d.num 8 2) = x := rfl
        have hl : (s.acted r n d).modelLive (d.num 8 2) = 0 := hlive
        simp [hx, hrealm, hst, hmode, hl, a, m]
      · rw [srv_done, srv_modelEvent, model_setModel_self]
  · subst hx
    refine ⟨((s.setModel k {}).modelEvent k (s.srv.model k).realm 0 0).finishDesc (s.srv.model k).desc stOk, ?_, ?_⟩
    · change execModelEvictDone k s = _
      rw [execModelEvictDone, whenReady_of_ready _ hready]
      exact congrArg _ (if_pos ⟨hst, hlive⟩)
    · rw [srv_finishDesc, srv_modelEvent, model_setModel_self]
  · subst hx
    have hexec : exec (.modelLoadDone k) s = .next (s.modelLoadDone k) := whenRunning_of_ready (fun s => s.modelLoadDone k) hready hheld
    refine ⟨fun y p hkey hopen => ⟨_, hexec, model_modelLoadDone hst hkey hopen⟩, fun y hkey hopen => ?_, fun hkey hno => ?_⟩
    · rw [hexec, State.modelLoadDone, if_neg (not_not_intro hst)]
      simp only [hkey, hopen]
    · rw [hexec, State.modelLoadDone, if_neg (not_not_intro hst)]
      simp only [hkey, if_neg hno]

end Sys2Proof.Machine

/-! SUPPORT. Restoring snapshots (R346, R347), and the swatches (R349-R353). -/

namespace Sys2Proof.Machine

theorem Fld.fits_of_le {f : Fld} (h : f.lo + f.width ≤ 32) : f.fits := h

/-! ### RESTORE (R346, R347) -/

theorem sameBut_loadPieces (base : Nat) (l : List (Nat × Nat)) (b : List Nat) (s : State) : s.sameBut (s.loadPieces base l b) [.mem] := by
  induction l generalizing s b with
  | nil => exact sameBut_refl _ _
  | cons x l ih => exact sameBut_trans (sameBut_store _ _ _ _ (by decide)) (ih _ _)

theorem sameBut_loadTiles (l : List Nat) (b : List Nat) (s : State) : s.sameBut (s.loadTiles l b) [.mem] := by
  induction l generalizing s b with
  | nil => exact sameBut_refl _ _
  | cons x l ih => exact sameBut_trans (sameBut_store _ _ _ _ (by decide)) (ih _ _)

theorem sameBut_loadSection (x : Section) (b : List Nat) (s : State) : s.sameBut (s.loadSection x b) [.mem] := by
  unfold State.loadSection
  exact sameBut_trans (sameBut_loadPieces _ _ _ _) (sameBut_loadTiles _ _ _)

theorem sameBut_loadSections (l : List (Section × Nat)) (body : List Nat) (s : State) :
    s.sameBut (l.foldl (fun s x => s.loadSection x.1 (body.drop (x.2 - 4096))) s) [.mem] :=
  sameBut_foldl _ (fun _ _ => sameBut_loadSection _ _ _) l s

theorem sameBut_nextUid (s : State) (n : Nat) {ps : List Part} (h : Part.nextUid ∈ ps) : s.sameBut { s with nextUid := n } ps := fun p hp => by
  cases p with
  | nextUid => exact absurd h hp
  | _ => rfl

/-- What the load of an image does besides the stores: its JOB has the next uid, and DET_STS tells the restore (R346). -/
theorem restoreLoad_spec (s : State) (r n : Nat) (d : Desc) (h body : List Nat) : let l := s.restoreLoad r n d h body
    l.stsBit .DET_STS 3 = true ∧ l.nextUid = s.nextUid + 1 ∧ s.sameBut l [.mem, .regs, .sqc, .evSeq, .queues, .rings, .evRings, .nextUid] := by
  have hload := sameBut_loadSections (parseSections h) body s
  unfold State.restoreLoad
  generalize (parseSections h).foldl (fun s x => s.loadSection x.1 (body.drop (x.2 - 4096))) s = u at hload
  have huid : u.nextUid = s.nextUid := (hload .nextUid (by decide)).symm
  refine ⟨stsBit_finish _ _ _ _ (stsBit_setSts _ (by decide)), ?_, ?_⟩
  · rw [← sameBut_finish _ _ _ _ _ .nextUid (by decide), ← sameBut_sts _ _ _ eventParts (List.Subset.refl _) .nextUid (by decide), ← huid]
    rfl
  · exact sameBut_trans (sameBut_mono hload (by decide)) (sameBut_trans (sameBut_nextUid _ _ (by decide)) (sameBut_trans (sameBut_setRing _ _ _ _ (by decide))
      (sameBut_trans (sameBut_sts _ _ _ _ (by decide)) (sameBut_mono (sameBut_finish _ _ _ _ _) (by decide)))))

/-- RESTORE of a starting descriptor (R346). -/
theorem exec_restore {s : State} {r n i : Nat} {d : Desc} (hready : s.ready = true) (hstart : s.starting r n i 0x0E = some d) :
    exec (.restore r n i) s = .next (if (s.restoreCheck r d).1 ≠ stOk then (s.acted r n d).done r n d.uid (s.restoreCheck r d).1
      else if s.cqFree r (d.byte 0x18) = 0 then s
      else ((s.acted r n d).restoreLoad r n d (s.bytes (hostBase + d.num 8 8) 4096) (s.restoreCheck r d).2).restoreRun r (d.byte 0x18)
        (s.restoredDesc d (s.bytes (hostBase + d.num 8 8) 4096)) (s.bytes (hostBase + d.num 8 8) 4096)) := by
  change execRestore r n i s = _
  rw [execRestore, whenReady_of_ready _ hready]
  simp only [hstart]
  rfl

/-- The JOB of an image: its type is JOB, and its tag is the image's. -/
theorem imageJob_head {h : List Nat} (hlen : 8 ≤ h.length) : (imageJob h).getD 0 0 = 1 ∧ ((imageJob h).drop 4).take 4 = (h.drop 4).take 4 := by
  refine ⟨rfl, ?_⟩
  have hfour : ((h.drop 4).take 4).length = 4 := by simp; omega
  simp only [imageJob, List.append_assoc, List.cons_append, List.nil_append, List.drop_succ_cons, List.drop_zero]
  rw [List.take_append_of_le_length (by omega), List.take_of_length_le (by omega)]

/-- Settles O32: the branches of RESTORE. -/
theorem restoresLoadTheirImage : Obligations.RestoresLoadTheirImage := by
  intro r n i s d hready hstart a h c
  have hexec := exec_restore hready hstart
  refine ⟨fun hfail => hexec.trans (congrArg _ (if_pos hfail)), fun hok hfull => ?_, fun hok hroom => ?_⟩
  · rw [hexec, if_neg (not_not_intro hok), if_pos hfull]
  · intro l t
    rw [if_neg (not_not_intro hok), if_neg hroom] at hexec
    obtain ⟨hsts, huid, hsame⟩ := restoreLoad_spec a r n d h c.2
    have hlen : h.length = 4096 := Memory.length_bytes _ _ _
    obtain ⟨htype, htag⟩ := imageJob_head (h := h) (by omega)
    refine ⟨hexec, hsts, huid, sameBut_trans (sameBut_descs s r n d.uid _ (by decide)) hsame, ?_, fun hbad => hexec.trans (congrArg _ ?_)⟩
    · exact Prod.ext htype (Prod.ext htag rfl)
    · unfold State.restoreRun
      exact if_pos hbad

/-! ### The registers that show a swatch (R349-R353) -/

theorem det_swatchShow (s : State) : s.swatchShow.det = s.det := by
  unfold State.swatchShow
  split <;> rfl

theorem word_swatchShow {s : State} {g : Reg} {u sel : Nat} (h1 : g.key u sel ≠ Reg.DET_STATE.key 0 0) (h2 : g.key u sel ≠ Reg.DET_SWATCH_INFO.key 0 0) :
    s.swatchShow.word g u sel = s.word g u sel := by
  unfold State.swatchShow
  split
  · rw [word_setFld_ne (f := .DET_SWATCH_INFO_PEER) h2, word_setFld_ne (f := .DET_STATE_VERDICT) h1, word_setFld_ne (f := .DET_STATE_ROLE) h1,
      word_setFld_ne (f := .DET_STATE_SWATCH) h1]
  · exact word_setFld_ne (f := .DET_STATE_SWATCH) h1

theorem sameBut_swatchShow (s : State) {ps : List Part} (h : Part.regs ∈ ps) : s.sameBut s.swatchShow ps := by
  unfold State.swatchShow
  split
  · exact sameBut_trans (sameBut_setFld _ _ _ _ _ _ h) (sameBut_trans (sameBut_setFld _ _ _ _ _ _ h)
      (sameBut_trans (sameBut_setFld _ _ _ _ _ _ h) (sameBut_setFld _ _ _ _ _ _ h)))
  · exact sameBut_setFld _ _ _ _ _ _ h

/-- DET_STATE tells whether a swatch runs. -/
theorem fld_swatchShow {s : State} {w : Swatch} (h : s.det.swatch = some w) : s.swatchShow.fld .DET_STATE_SWATCH = b2n (w.phase != .ended) := by
  unfold State.swatchShow
  rw [h]
  dsimp only
  rw [State.fld_setFld_of_ne _ _ _ _ (by decide), State.fld_setFld_of_disjoint _ _ _ _ (by rfl) (Fld.fits_of_le (by decide)) (by decide),
    State.fld_setFld_of_disjoint _ _ _ _ (by rfl) (Fld.fits_of_le (by decide)) (by decide), State.fld_setFld_self _ _ _ _ _ (Fld.fits_of_le (by decide))]
  cases w.phase != .ended <;> rfl

theorem det_stvSend (s : State) (dest kind mflags : Nat) (p : List Nat) : (s.stvSend dest kind mflags p).det = s.det := by
  unfold State.stvSend
  split
  · exact det_setSts _ _ _ _
  · rfl

theorem word_stvSend {s : State} {dest kind mflags : Nat} {p : List Nat} {g : Reg} {u sel : Nat} (h : ∀ q < 4, g.key u sel ≠ Reg.RING_EQ_DROP.key q 0) :
    (s.stvSend dest kind mflags p).word g u sel = s.word g u sel := by
  unfold State.stvSend
  split
  · exact word_setSts _ h
  · rfl

theorem sameBut_stvSend (s : State) (dest kind mflags : Nat) (p : List Nat) {ps : List Part} (h : Part.stave ∈ ps) (he : eventParts ⊆ ps) :
    s.sameBut (s.stvSend dest kind mflags p) ps := by
  unfold State.stvSend
  split
  · exact sameBut_sts _ _ _ _ he
  · exact sameBut_onStave _ _ h

/-! ### Verdicts -/

theorem swatch_verdict (s : State) (w : Swatch) (v : Nat) : (s.verdict w v).det.swatch = some { w with verdict := v } := by
  rw [State.verdict, det_setSts, det_swatchShow]
  rfl

theorem word_verdict {s : State} {w : Swatch} {v : Nat} {g : Reg} {u sel : Nat} (h1 : g.key u sel ≠ Reg.DET_STATE.key 0 0)
    (h2 : g.key u sel ≠ Reg.DET_SWATCH_INFO.key 0 0) (h3 : ∀ q < 4, g.key u sel ≠ Reg.RING_EQ_DROP.key q 0) :
    (s.verdict w v).word g u sel = s.word g u sel := by
  rw [State.verdict, word_setSts _ h3, word_swatchShow h1 h2]
  rfl

/-- A verdict that is no pass sets DET_STS.SWATCH_FAIL (R352). -/
theorem stsBit_verdict (s : State) (w : Swatch) {v : Nat} (h : v ≠ vPass) : (s.verdict w v).stsBit .DET_STS 5 = true :=
  stsBit_setSts _ (by simp [h])

/-! ### SWATCH_BEGIN, SWATCH_END and SWATCH_ABORT -/

/-- The swatch that a SWATCH_BEGIN begins (R349). -/
def State.begunSwatch (s : State) (r n : Nat) (d : Desc) : Swatch :=
  { realm := r, id := d.num 0x0C 4, peer := d.byte 8, role := d.byte 9, steps := d.num 0x10 4, desc := some (n, d.uid),
    wait := s.swWait, age := s.swAge, unmatchedMax := s.fld .DET_SWATCH_CFG_UNMATCHED_MAX, lastMsg := s.gauge }

/-- A SWATCH_BEGIN with no swatch in its way begins one: its counters are at zero and it is shown (R349). -/
theorem swatchBegin_spec {s : State} (r n : Nat) (d : Desc) (h : ∀ w, s.det.swatch = some w → w.phase = .ended) : let t := s.swatchBegin r n d
    t.det.swatch = some (s.begunSwatch r n d) ∧ t.fld .DET_STATE_SWATCH = 1 ∧ t.word .DET_SWATCH_CNT = 0 ∧ t.word .DET_SWATCH_ERR = 0
      ∧ s.sameBut t [.regs, .det, .stave, .sqc, .mem, .evSeq, .queues, .evRings] := by
  have hfree : ((s.det.swatch).map (fun w => w.phase != .ended)).getD false = false := by
    cases hw : s.det.swatch with
    | none => rfl
    | some w => simp [h w hw]
  let u := ((((s.setWord .DET_SWATCH_CNT 0 0 0).setWord .DET_SWATCH_ERR 0 0 0).setWord .DET_SWATCH_TAG 0 0 0).setWord .DET_SWATCH_INFO 0 0 0)
  let v := u.setSwatch (some (s.begunSwatch r n d))
  have hbegin : s.swatchBegin r n d = v.swatchShow.stvSend (d.byte 8) 2 8 ((s.begunSwatch r n d).hello u false) := by
    unfold State.swatchBegin
    rw [hfree, if_neg (by simp)]
    rfl
  intro t
  rw [show t = _ from hbegin]
  refine ⟨?_, ?_, ?_, ?_, ?_⟩
  · rw [det_stvSend, det_swatchShow]
    rfl
  · have hshow := fld_swatchShow (s := v) (w := s.begunSwatch r n d) rfl
    rw [State.fld, word_stvSend (by decide)]
    exact hshow
  · rw [word_stvSend (by decide), word_swatchShow (by decide) (by decide)]
    change u.word .DET_SWATCH_CNT = 0
    rw [State.word_setWord_of_ne _ _ (by decide), State.word_setWord_of_ne _ _ (by decide), State.word_setWord_of_ne _ _ (by decide), State.word_setWord_self]
  · rw [word_stvSend (by decide), word_swatchShow (by decide) (by decide)]
    change u.word .DET_SWATCH_ERR = 0
    rw [State.word_setWord_of_ne _ _ (by decide), State.word_setWord_of_ne _ _ (by decide), State.word_setWord_self]
  · exact sameBut_trans (sameBut_setWord _ _ _ _ _ _ (by decide)) (sameBut_trans (sameBut_setWord _ _ _ _ _ _ (by decide))
      (sameBut_trans (sameBut_setWord _ _ _ _ _ _ (by decide)) (sameBut_trans (sameBut_setWord _ _ _ _ _ _ (by decide))
        (sameBut_trans (sameBut_onDet _ _ (by decide)) (sameBut_trans (sameBut_swatchShow _ (by decide)) (sameBut_stvSend _ _ _ _ _ (by decide) (by decide)))))))

theorem exec_swatchBegin {s : State} {r n i : Nat} {d : Desc} (hready : s.ready = true) (hstart : s.starting r n i 0x0F = some d) :
    exec (.swatchBegin r n i) s = .next ((s.acted r n d).swatchBegin r n d) := by
  change execSwatchBegin r n i s = _
  rw [execSwatchBegin, whenReady_of_ready _ hready, onDesc_of_starting _ hstart]

theorem exec_swatchEnd {s : State} {r n i : Nat} {d : Desc} (hready : s.ready = true) (hstart : s.starting r n i 0x10 = some d) :
    exec (.swatchEnd r n i) s = .next (match s.det.swatch.filter (fun w => w.id == d.num 0x0C 4 && w.realm == r && w.phase != .handshake && w.desc.isNone) with
      | none => (s.acted r n d).done r n d.uid stNotFound
      | some w => if w.phase = .ended then (s.acted r n d).swatchFinish { w with desc := some (n, d.uid) } w.verdict
        else (s.acted r n d).swatchEnd { w with desc := some (n, d.uid) }) := by
  change execSwatchEnd r n i s = _
  rw [execSwatchEnd, whenReady_of_ready _ hready, onDesc_of_starting _ hstart]
  rfl

/-- Settles O33: the branches of the three commands. -/
theorem swatchesBeginAndEnd : Obligations.SwatchesBeginAndEnd := by
  intro r n i s hready
  refine ⟨fun d hstart => ?_, fun d hstart => ?_, fun hopen => ?_⟩
  · intro a
    have hexec := exec_swatchBegin hready hstart
    refine ⟨fun w hw hphase => ?_, fun hfree => ?_⟩
    · have hbusy : ((a.det.swatch).map (fun w => w.phase != .ended)).getD false = true := by
        rw [show a.det.swatch = some w from hw]
        simpa using hphase
      exact hexec.trans (congrArg _ (if_pos hbusy))
    · obtain ⟨hsw, hstate, hcnt, herr, hsame⟩ := swatchBegin_spec (s := a) r n d hfree
      exact ⟨_, a.begunSwatch r n d, hexec, hsw, rfl, rfl, hstate, hcnt, herr, hsame⟩
  · intro a
    have hexec := exec_swatchEnd hready hstart
    refine ⟨fun hnone => ?_, fun w hw hid hrealm hdesc => ?_⟩
    · have hfilter : s.det.swatch.filter (fun w => w.id == d.num 0x0C 4 && w.realm == r && w.phase != .handshake && w.desc.isNone) = none := by
        cases hw : s.det.swatch with
        | none => rfl
        | some w =>
          rw [Option.filter_some, if_neg]
          intro hmatch
          simp only [Bool.and_eq_true, beq_iff_eq, bne_iff_ne, ne_eq] at hmatch
          obtain ⟨⟨⟨hid, hrealm⟩, hphase⟩, -⟩ := hmatch
          exact (hnone w hw).elim (· hid) (Or.elim · (· hrealm) hphase)
      rw [hexec, hfilter]
    · have hfilter : w.phase ≠ .handshake →
          s.det.swatch.filter (fun w => w.id == d.num 0x0C 4 && w.realm == r && w.phase != .handshake && w.desc.isNone) = some w := fun hphase => by
        rw [hw, Option.filter_some, if_pos (by simp [hid, hrealm, hdesc, hphase])]
      refine ⟨fun hphase => ?_, fun hphase => ?_⟩
      · rw [hexec, hfilter (by simp [hphase])]
        exact congrArg _ (if_pos hphase)
      · rw [hexec, hfilter (by simp [hphase])]
        exact congrArg _ (if_neg (by simp [hphase]))
  · have hexec : exec (.swatchAbort .fw) s = .next s.swatchAbort := fw_open s .DET_CMD 0 4 State.swatchAbort hopen
    refine ⟨fun w hw hphase => ?_, fun w m u hw hphase hdesc => ?_, fun hended => ?_⟩
    · rw [hexec, State.swatchAbort, hw, Option.filter_some, if_pos (by simp [hphase])]
      exact congrArg _ (if_neg (by simp [hphase]))
    · rw [hexec, State.swatchAbort, hw, Option.filter_some, if_pos (by simp [hphase])]
      simp only [if_pos hphase, hdesc]
    · rw [hexec, State.swatchAbort]
      cases hw : s.det.swatch with
      | none => rfl
      | some w => rw [Option.filter_some, if_neg (by simp [hended w hw])]

/-! ### The match table and silent peers (R351-R353) -/

theorem takeMsg_spec {s rx : State} {k : Nat} {m : StvMsg} (h : s.takeMsg k = some (m, rx)) : ∃ f, rx = s.onStave f := by
  unfold State.takeMsg at h
  cases hm : s.stave.rx.find? (fun m => m.kind == k) with
  | none => simp [hm] at h
  | some x =>
    simp only [hm, Option.map_some, Option.some.injEq, Prod.mk.injEq] at h
    exact ⟨_, h.2.symm⟩

/-- A unit with a partner of another digest (R352). -/
theorem swatchMatch_mismatch {s : State} {w : Swatch} {u : SwUnit} {peer : Bool} {e : SwEntry}
    (he : w.table.find? (fun e => e.peer != peer && sameKey e.item u) = some e) (hdig : e.item.digest ≠ u.digest) :
    (s.swatchMatch w u peer).det.swatch = some { w with table := w.table.erase e, verdict := vMismatch } ∧ (s.swatchMatch w u peer).stsBit .DET_STS 5 = true := by
  unfold State.swatchMatch
  rw [he]
  simp only [if_neg hdig]
  exact ⟨swatch_verdict _ _ _, stsBit_verdict _ _ (by decide)⟩

/-- A unit with a partner of the same digest counts (R351). -/
theorem swatchMatch_matched {s : State} {w : Swatch} {u : SwUnit} {peer : Bool} {e : SwEntry}
    (he : w.table.find? (fun e => e.peer != peer && sameKey e.item u) = some e) (hdig : e.item.digest = u.digest) :
    (∃ v, (s.swatchMatch w u peer).det.swatch = some v ∧ v.table = w.table.erase e)
      ∧ (s.swatchMatch w u peer).word .DET_SWATCH_CNT = s.word .DET_SWATCH_CNT + 1 := by
  unfold State.swatchMatch
  rw [he]
  simp only [if_pos hdig]
  split
  · refine ⟨⟨_, swatch_verdict _ _ _, rfl⟩, ?_⟩
    rw [word_verdict (by decide) (by decide) (by decide), State.word_setWord_self]
  · exact ⟨⟨_, rfl, rfl⟩, State.word_setWord_self _ _ _ _ _⟩

/-- SWATCH of a unit that comes to a running shadow from its peer (R351). -/
theorem exec_swatch_unit {s rx : State} {w : Swatch} {m : StvMsg} (hready : s.ready = true) (hw : s.det.swatch = some w) (hrx : s.takeMsg 2 = some (m, rx))
    (hphase : w.phase = .running) (hrole : w.role = 0) (hver : w.verdict = vRunning) (hpeer : w.peer = m.src) (hid : w.id = fieldOf m.payload 4 4)
    (hkind : fieldOf m.payload 0 1 = 1) : ∃ f, rx = s.onStave f ∧ exec .swatch s = .next
      ((rx.setSwatch (some { w with lastMsg := s.gauge })).swatchMatch { w with lastMsg := s.gauge }
        ⟨fieldOf m.payload 1 1, fieldOf m.payload 2 1, fieldOf m.payload 8 4, (m.payload.drop 12).take 32⟩ true) := by
  obtain ⟨f, hf⟩ := takeMsg_spec hrx
  refine ⟨f, hf, ?_⟩
  have hswatch : rx.det.swatch = some w := hf ▸ hw
  have hgauge : rx.gauge = s.gauge := hf ▸ rfl
  have hfilter : rx.det.swatch.filter (fun w => w.peer == m.src && w.id == fieldOf m.payload 4 4 && w.phase != .ended) = some w := by
    rw [hswatch, Option.filter_some, if_pos (by simp [hpeer, hid, hphase])]
  change execSwatch s = _
  rw [execSwatch, whenReady_of_ready _ hready]
  simp only [hrx, hfilter, hkind, hgauge]
  exact congrArg _ (if_pos ⟨hphase, hrole, hver⟩)

/-- Settles O34: a unit by its partner in the table, and the branches of the two timeouts. -/
theorem swatchesMatchUnits : Obligations.SwatchesMatchUnits := by
  intro s w hready hw
  refine ⟨fun m rx hrx hphase hrole hver hpeer hid hkind => ?_, fun e l htable hphase hver => ?_, fun hended => ?_, fun hphase hrole hver => ?_,
    fun n u hphase hdesc => ?_⟩
  · intro u partner
    obtain ⟨f, hf, hexec⟩ := exec_swatch_unit hready hw hrx hphase hrole hver hpeer hid hkind
    refine ⟨fun e he hdig => ?_, fun hnone hroom => ?_, fun e he hdig => ?_⟩
    · obtain ⟨hsw, hsts⟩ := swatchMatch_mismatch (s := rx.setSwatch (some { w with lastMsg := s.gauge })) (w := { w with lastMsg := s.gauge }) he hdig
      exact ⟨_, _, hexec, hsw, rfl, rfl, hsts⟩
    · refine ⟨(rx.setSwatch (some { w with lastMsg := s.gauge })).setSwatch (some { w with lastMsg := s.gauge, table := w.table ++ [⟨u, true, s.gauge⟩] }), _,
        ?_, rfl, hver, rfl, ?_⟩
      · have hgauge : rx.gauge = s.gauge := hf ▸ rfl
        rw [hexec, State.swatchMatch]
        have hfind : w.table.find? (fun e => e.peer != true && sameKey e.item u) = none := hnone
        simp only [u] at hfind
        simp only [hfind, if_neg (Nat.not_le.2 hroom)]
        change Host.Outcome.next (((rx.setSwatch _).setSwatch (some { w with lastMsg := s.gauge, table := w.table ++ [⟨u, true, rx.gauge⟩] }))) = _
        rw [hgauge]
      · rw [hf]
        exact sameBut_trans (sameBut_onStave _ _ (by decide)) (sameBut_trans (sameBut_onDet _ _ (by decide)) (sameBut_onDet _ _ (by decide)))
    · obtain ⟨⟨v, hsw, htable⟩, hcnt⟩ :=
        swatchMatch_matched (s := rx.setSwatch (some { w with lastMsg := s.gauge })) (w := { w with lastMsg := s.gauge }) he hdig
      refine ⟨_, v, hexec, hsw, htable, hcnt.trans ?_⟩
      rw [hf]
      rfl
  · let u := ({ s with gauge := max s.gauge (e.since + w.age) } : State).setSwatch (some { w with table := l })
    refine ⟨u.unmatched, ?_, rfl, rfl, State.fld_setFld_self u _ _ _ _ (Fld.fits_of_le (by decide)), ?_⟩
    · change execSwatchUnitAge s = _
      rw [execSwatchUnitAge, whenReady_of_ready _ hready]
      simp only [hw, htable]
      exact congrArg _ (if_neg (by simp [hphase, hver]))
    · exact sameBut_trans (sameBut_gauge _ _ _ (by decide)) (sameBut_trans (sameBut_onDet _ _ (by decide)) (sameBut_setFld _ _ _ _ _ _ (by decide)))
  · change execSwatchPeerSilence s = _
    rw [execSwatchPeerSilence, whenReady_of_ready _ hready]
    simp only [hw, hended, ↓reduceIte]
  all_goals
    have hexec : exec .swatchPeerSilence s = .next (({ s with gauge := max s.gauge (w.lastMsg + w.wait) } : State).peerSilent w) := by
      change execSwatchPeerSilence s = _
      rw [execSwatchPeerSilence, whenReady_of_ready _ hready]
      simp only [hw, hphase, reduceCtorEq, ↓reduceIte]
    simp only [State.peerSilent, hphase] at hexec
  · rw [if_pos hrole, if_pos hver] at hexec
    exact ⟨_, _, hexec, swatch_verdict _ _ _, rfl, stsBit_verdict _ _ (by decide)⟩
  · simpa only [hdesc] using hexec

end Sys2Proof.Machine

/-! SUPPORT. The control lane's halves, packages and switches (R217, R265-R295). -/

namespace Sys2Proof.Machine

/-! ### The state of a half -/

/-- The states of the halves stand in CTL_STATE alone. -/
theorem halfSt_of_word {s t : State} (h : t.word .CTL_STATE = s.word .CTL_STATE) (k : Nat) : t.halfSt k = s.halfSt k := by
  unfold State.halfSt State.fld
  rw [(apart_stateFld k).1, h]

theorem otherHalf_otherHalf {h : Nat} (hh : h ≤ 1) : otherHalf (otherHalf h) = h := by
  unfold otherHalf
  omega

theorem otherHalf_le (h : Nat) : otherHalf h ≤ 1 := Nat.sub_le 1 h

@[simp] theorem half_setHalf_self (s : State) (h : Nat) (x : Half) : (s.setHalf h x).half h = x := half_setHalf s h x

theorem sameBut_setHalf (s : State) (h : Nat) (x : Half) {ps : List Part} (hp : Part.lane ∈ ps) : s.sameBut (s.setHalf h x) ps := sameBut_lane s _ ps hp

theorem half_enterHalf (s : State) (h st k : Nat) (hst : st < 16) : (s.enterHalf h st).half k = s.half k := by
  obtain ⟨-, -, -, -, -, -, p, hp⟩ := enterHalf_spec s h st hst
  exact half_congr k p hp

theorem halfSt_enterHalf (s : State) (h st : Nat) (hst : st < 16) : (s.enterHalf h st).halfSt h = st := (enterHalf_spec s h st hst).1

theorem stsBit_enterHalf {s : State} {g : Reg} {b u : Nat} (h st : Nat) (hst : st < 16) (hb : s.stsBit g b u = true) : (s.enterHalf h st).stsBit g b u = true := by
  obtain ⟨-, -, -, hsts, -⟩ := enterHalf_spec s h st hst
  exact hsts g u b hb

/-- A half that fails (R283): it is FAILED, arms no more, and the other half is as it was. -/
theorem failHalf_spec (s : State) {h : Nat} (hh : h ≤ 1) : (s.failHalf h).halfSt h = halfFailed ∧ (s.failHalf h).halfSt (otherHalf h) = s.halfSt (otherHalf h)
    ∧ (s.failHalf h).half (otherHalf h) = s.half (otherHalf h) ∧ (∀ g u b, s.stsBit g b u = true → (s.failHalf h).stsBit g b u = true)
    ∧ s.sameBut (s.failHalf h) (.lane :: reportParts) := by
  unfold State.failHalf
  refine ⟨halfSt_enterHalf _ _ _ (by decide), ?_, ?_, fun g u b hb => stsBit_enterHalf _ _ (by decide) hb,
    sameBut_trans (sameBut_setHalf _ _ _ (by decide)) (sameBut_enterHalf _ _ _ (by decide))⟩
  · rw [enterHalf_other _ _ _ hh (by decide)]
    rfl
  · rw [half_enterHalf _ _ _ _ (by decide), half_setHalf_other _ _ _ hh]

/-! ### Bringing a half in and taking it out (R283, R287, R289) -/

theorem bringIn_spec {s : State} {h : Nat} (hh : h ≤ 1) (hplace : (s.half h).nextPlace = none) : let t := s.bringIn h false
    t.halfSt h = halfScrub ∧ t.halfSt (otherHalf h) = s.halfSt (otherHalf h) ∧ t.half h = {} ∧ s.sameBut t (.lane :: reportParts) := by
  have hbring : s.bringIn h false = (s.setHalf h {}).enterHalf h halfScrub := by
    unfold State.bringIn
    rw [hplace]
  intro t
  rw [show t = _ from hbring]
  refine ⟨halfSt_enterHalf _ _ _ (by decide), ?_, ?_, sameBut_trans (sameBut_setHalf _ _ _ (by decide)) (sameBut_enterHalf _ _ _ (by decide))⟩
  · rw [enterHalf_other _ _ _ hh (by decide)]
    rfl
  · rw [half_enterHalf _ _ _ _ (by decide), half_setHalf_self]

theorem exec_repair {s : State} {h : Nat} (hh : h ≤ 1) (hopen : s.openTo 9 0 = true) : exec (.repair .fw h) s = .next (s.laneRepair h) :=
  (fw_open s .CTL_CMD 0 (if h = 0 then 2 else 4) (fun s => if h ≤ 1 then s.laneRepair h else s) hopen).trans (congrArg _ (if_pos hh))

theorem exec_laneRetire {s : State} {h : Nat} (hh : h ≤ 1) (hopen : s.openTo 9 0 = true) : exec (.laneRetire .fw h) s = .next (s.laneRetire h) :=
  (fw_open s .CTL_CMD 0 (if h = 0 then 0x80 else 0x100) (fun s => if h ≤ 1 then s.laneRetire h else s) hopen).trans (congrArg _ (if_pos hh))

/-- A byte that is zero stays zero when a tile's stores are cleared. -/
theorem read_clear_zero {m : Mem} {b : Nat} (a n : Nat) (h : m.cells.read b = 0) : (m.clear a n).cells.read b = 0 := by
  by_cases hin : a ≤ b ∧ b < a + n
  · exact Memory.read_clear_inside m a n b hin.1 hin.2
  · rw [Memory.read_clear_outside m a n b (by omega), h]

/-- The stores of every tile of a list are zero once the list's tiles are cleared. -/
theorem read_foldl_clearTile {p b : Nat} (hb : b < 2 ^ 21) (l : List Nat) (s : State) (h : p ∈ l ∨ s.mem.cells.read (tileBase p + b) = 0) :
    (l.foldl (fun s p => s.clearTile p) s).mem.cells.read (tileBase p + b) = 0 := by
  induction l generalizing s with
  | nil => exact h.resolve_left (by simp)
  | cons q l ih =>
    refine ih _ ?_
    rcases h with h | h
    · rcases List.mem_cons.1 h with rfl | h
      · exact .inr (Memory.read_clear_inside s.mem _ _ _ (Nat.le_add_right _ _) (Nat.add_lt_add_left hb _))
      · exact .inl h
    · exact .inr (read_clear_zero _ _ h)

/-- A scrubbed half enters SELFTEST, and its tile stores are zero (R283). -/
theorem halfScrubDone_spec {s : State} {h : Nat} (hh : h ≤ 1) (hup : s.up = true) (hst : s.halfSt h = halfScrub) :
    ∃ t, exec (.halfScrubDone h) s = .next t ∧ t.halfSt h = halfSelftest ∧ t.halfSt (otherHalf h) = s.halfSt (otherHalf h)
      ∧ ∀ p ∈ s.halfTiles h, ∀ b, b < 2 ^ 21 → t.mem.cells.read (tileBase p + b) = 0 := by
  let u := (s.halfTiles h).foldl (fun s p => s.clearTile p) s
  let v := u.clearPart (u.placePart (u.fld (placeFld h)))
  have hexec : exec (.halfScrubDone h) s = .next (v.enterHalf h halfSelftest) := by
    change execHalfScrubDone h s = _
    rw [execHalfScrubDone, whenUp_of_up _ hup]
    exact congrArg _ (if_neg (by simp [hst]; omega))
  have hregs : v.regs = s.regs := (sameBut_foldl (ps := [.mem]) (fun s p => State.clearTile s p) (fun t p => sameBut_onMem t _ (by decide)) (s.halfTiles h) s .regs (by decide)).symm
  obtain ⟨hin, -, -, -, -, hkept, -⟩ := enterHalf_spec v h halfSelftest (by decide)
  refine ⟨_, hexec, hin, ?_, fun p hp b hb => ?_⟩
  · rw [enterHalf_other v h _ hh (by decide)]
    exact halfSt_of_word (by rw [State.word, hregs]; rfl) _
  · rw [hkept _ (by unfold lpddrBase tileBase; omega)]
    exact read_clear_zero _ _ (read_foldl_clearTile hb _ s (.inl hp))

/-- HALF_LOAD_DONE of a half that has loaded (R283, R289). -/
theorem exec_halfLoadDone {s : State} {h : Nat} (hh : h ≤ 1) (hup : s.up = true) (hst : s.halfSt h = halfLoad) (hloaded : (s.half h).loaded = false) :
    let u := s.setHalf h { s.half h with loaded := true }
    exec (.halfLoadDone h) s = .next (if (s.halfIn halfActive).isSome || (s.half (otherHalf h)).arming != .none || (s.halfIn halfStandby).isSome then u
        else if s.flag .CTL_STATE_LOST then u.restartHalf h
        else match s.halfPkg h with
          | some p => (s.setHalf h { s.half h with loaded := true, arming := .start, copy := some { period := 0, bytes := p.init } }).announce h s.nextClaim
          | none => u) := by
  intro u
  have hother : u.half (otherHalf h) = s.half (otherHalf h) := half_setHalf_other s h _ hh
  have hself : u.half h = { s.half h with loaded := true } := half_setHalf s h _
  have hset : ∀ x, u.setHalf h x = s.setHalf h x := fun x => by
    simp only [u, State.setHalf, State.onLane]
    split <;> rfl
  have hseq : u.lane.seq = s.lane.seq ∧ u.lane.pkg = s.lane.pkg := by
    simp only [u, State.setHalf, State.onLane]
    split <;> exact ⟨rfl, rfl⟩
  have hpkg : u.halfPkg h = s.halfPkg h := by
    unfold State.halfPkg
    rw [hself, hseq.1, hseq.2]
  change execHalfLoadDone h s = _
  rw [execHalfLoadDone, whenUp_of_up _ hup]
  refine congrArg _ ((if_neg (by simp [hst, hloaded]; omega)).trans ?_)
  change (if (u.halfIn halfActive).isSome || (u.half (otherHalf h)).arming != .none || (u.halfIn halfStandby).isSome then u
    else if u.flag .CTL_STATE_LOST then u.restartHalf h
    else match u.halfPkg h with
      | some p => (u.setHalf h { u.half h with arming := .start, copy := some { period := 0, bytes := p.init } }).announce h u.nextClaim
      | none => u) = _
  rw [hother, hself, hpkg]
  simp only [hset]
  rfl

/-- Settles O35: each of the half's commands by the state of the half. -/
theorem halvesComeInAndGo : Obligations.HalvesComeInAndGo := by
  intro h s hh
  refine ⟨fun hopen => ⟨fun hen hst => ?_, fun hno => ?_, fun hst => ?_, fun hst => ?_⟩,
    fun hup => ⟨fun hst => ⟨halfScrubDone_spec hh hup hst, fun pass => ?_⟩, fun hst => ⟨?_, fun pass => ?_⟩, fun hst hloaded => ?_⟩⟩
  · have hexec : exec (.repair .fw h) s = .next (s.bringIn h false) := (exec_repair hh hopen).trans (congrArg _ (if_pos ⟨hen, hst⟩))
    exact ⟨hexec, fun hplace => ⟨_, hexec, bringIn_spec hh hplace⟩⟩
  · refine (exec_repair hh hopen).trans (congrArg _ (if_neg ?_))
    rintro ⟨hen, hst⟩
    exact hno.elim (by simp [hen]) fun hne => hst.elim hne.1 hne.2
  · exact (exec_laneRetire hh hopen).trans (congrArg _ (if_pos hst))
  · obtain ⟨hoff, hother, hclaim, hhalf, hsame, -⟩ := halfToOff_spec s h hh
    exact ⟨_, (exec_laneRetire hh hopen).trans (congrArg _ (if_neg hst)), hoff, hother, hclaim, by rw [hhalf], by rw [hhalf], hsame⟩
  · change execHalfSelftestDone h pass s = _
    rw [execHalfSelftestDone, whenUp_of_up _ hup]
    exact congrArg _ (if_pos (Or.inr (by rw [hst]; decide)))
  · change execHalfScrubDone h s = _
    rw [execHalfScrubDone, whenUp_of_up _ hup]
    exact congrArg _ (if_pos (Or.inr (by rw [hst]; decide)))
  · have hexec : exec (.halfSelftestDone h pass) s = .next (if pass then s.enterHalf h halfLoad else s.failHalf h) := by
      change execHalfSelftestDone h pass s = _
      rw [execHalfSelftestDone, whenUp_of_up _ hup]
      exact congrArg _ (if_neg (by simp [hst]; omega))
    cases pass with
    | true =>
      rw [if_pos rfl] at hexec ⊢
      exact ⟨_, hexec, halfSt_enterHalf _ _ _ (by decide), enterHalf_other _ _ _ hh (by decide), sameBut_enterHalf _ _ _ (by decide)⟩
    | false =>
      obtain ⟨hfailed, hother, -, -, hsame⟩ := failHalf_spec s hh
      rw [if_neg (by decide)] at hexec ⊢
      exact ⟨_, hexec, hfailed, hother, hsame⟩
  · have hexec := exec_halfLoadDone hh hup hst hloaded
    dsimp only at hexec
    refine ⟨fun htaken => ?_, fun hact hstand harm => ?_⟩
    · rw [hexec, if_pos]
      rcases htaken with h | h | h
      · simp [Option.isSome_iff_ne_none.2 h]
      · simp [Option.isSome_iff_ne_none.2 h]
      · simp [h]
    · rw [hact, hstand, harm, if_neg (by decide)] at hexec
      refine ⟨fun hlost => by rw [hexec, if_pos hlost], fun hlost p hp => ?_⟩
      rw [hexec, if_neg (by simp [hlost])]
      simp only [hp]

end Sys2Proof.Machine

/-! SUPPORT. Installing a lane package, the grid, and the lane's switches and flags (R217, R265-R295). -/

namespace Sys2Proof.Machine

/-! ### INSTALL and the grid (R270, R271, R292, R295) -/

/-- The registers and bits that the end of an INSTALL leaves (R292). -/
theorem installEnd_spec (s : State) {e : Nat} (he : e < 256) : let t := s.installEnd e
    t.fld .CTL_STATE_INSTALL = (if e = 0 then 2 else 3) ∧ t.fld .CTL_STATE_INSTALL_ERR = e ∧ t.stsBit .CTL_STS 11 = true ∧ s.sameBut t eventParts ∧ t.lane = s.lane
      ∧ ∀ g : Fld, g.reg = .CTL_LAT → t.fld g = s.fld g := by
  intro t
  let u := (s.setFld .CTL_STATE_INSTALL (if e = 0 then 2 else 3)).setFld .CTL_STATE_INSTALL_ERR e
  have hfld : ∀ g : Fld, (∀ q < 4, g.reg.key 0 0 ≠ Reg.RING_EQ_DROP.key q 0) → t.fld g = u.fld g := fun g hg => by
    change ((u.setSts .CTL_STS [11]).laneEvent 0x0B e).fld g = _
    rw [State.laneEvent, fld_emit _ hg, fld_setSts _ hg]
  have hsame : s.sameBut t eventParts := sameBut_trans (sameBut_setFld _ _ _ _ _ _ (by decide)) (sameBut_trans (sameBut_setFld _ _ _ _ _ _ (by decide))
    (sameBut_trans (sameBut_sts _ _ _ _ (List.Subset.refl _)) (sameBut_emit _ _ _ _ _ _ (List.Subset.refl _))))
  refine ⟨?_, ?_, stsBit_emit _ (stsBit_setSts _ (by decide)), hsame, (hsame .lane (by decide)).symm, fun g hg => ?_⟩
  · rw [hfld _ (by decide), State.fld_setFld_of_disjoint _ _ _ _ (by rfl) (Fld.fits_of_le (by decide)) (by decide), fld_setFld_lt _ _ _ _ _ (Fld.fits_of_le (by decide))]
    split <;> decide
  · rw [hfld _ (by decide), fld_setFld_lt _ _ _ _ _ (Fld.fits_of_le (by decide)) he]
  · rw [hfld g (by rw [hg]; decide), State.fld_setFld_of_ne _ _ _ _ (by rw [hg]; decide), State.fld_setFld_of_ne _ _ _ _ (by rw [hg]; decide)]

/-- An INSTALL that is refused ends with its error (R271, R292). -/
theorem installRefused {s : State} {pkg : Option LanePkg} {e : Nat} (he : e < 256) (hne : e ≠ 0) (hexec : exec (.install .fw pkg) s = .next (s.installEnd e)) :
    ∃ t, exec (.install .fw pkg) s = .next t ∧ t.fld .CTL_STATE_INSTALL = 3 ∧ t.fld .CTL_STATE_INSTALL_ERR = e ∧ t.stsBit .CTL_STS 11 = true ∧ s.sameBut t eventParts := by
  obtain ⟨hinst, herr, hsts, hsame, -, -⟩ := installEnd_spec s he
  exact ⟨_, hexec, hinst.trans (if_neg hne), herr, hsts, hsame⟩

/-- The package shown is the one installed. -/
theorem showPkg_spec (s : State) (p : LanePkg) : (s.showPkg p).fld .CTL_LAT_LAT_GT = pkgLatency p % 2 ^ Fld.width .CTL_LAT_LAT_GT ∧ s.sameBut (s.showPkg p) [.regs] := by
  refine ⟨?_, sameBut_trans (sameBut_setFld _ _ _ _ _ _ (by decide)) (sameBut_trans (sameBut_setFld _ _ _ _ _ _ (by decide))
    (sameBut_trans (sameBut_setFld _ _ _ _ _ _ (by decide)) (sameBut_setFld _ _ _ _ _ _ (by decide))))⟩
  rw [State.showPkg, State.fld_setFld_of_disjoint _ _ _ _ (by rfl) (Fld.fits_of_le (by decide)) (by decide), State.fld_setFld_self _ _ _ _ _ (Fld.fits_of_le (by decide))]

/-- INSTALL as firmware writes it. -/
theorem exec_install {s : State} (pkg : Option LanePkg) (hopen : s.openTo 9 0 = true) : exec (.install .fw pkg) s = .next (s.install pkg) :=
  fw_open s .CTL_CMD 0 1 (fun s => s.install pkg) hopen

/-- An INSTALL of a package of the owner, with no update or swap in its way, goes by the package's checks (R271). -/
theorem install_of_pkg {s : State} {p : LanePkg} (hfree : ¬ (s.lane.seq.isSome = true ∨ s.lane.swap.isSome = true))
    (hours : (s.srv.model (s.fld .CTL_CTRL_LANE_MODEL)).st = .resident ∧ (s.srv.model (s.fld .CTL_CTRL_LANE_MODEL)).realm = s.laneOwner) :
    s.install (some p) = if !pkgInLimits p then s.installEnd 2
      else if !p.tsnOk then s.installEnd 3
      else if s.flag .CTL_CTRL_LANE_EN then
        (if (s.halfIn halfStandby).isNone then s.installEnd 4 else ((s.setFld .CTL_STATE_INSTALL 1).setFld .CTL_STATE_INSTALL_ERR 0).startSeq (some p) 0)
      else ((s.onLane (fun l => { l with pkg := some p, period := none, launchAt := none, answered := false, heldOut := false })).showPkg p).installEnd 0 := by
  unfold State.install
  rw [if_neg hfree]
  simp only [hours.1, hours.2, BEq.rfl, Bool.and_self, Option.filter_some, ↓reduceIte]

theorem install_unowned {s : State} {pkg : Option LanePkg} (hfree : ¬ (s.lane.seq.isSome = true ∨ s.lane.swap.isSome = true))
    (hnone : pkg = none ∨ ¬ ((s.srv.model (s.fld .CTL_CTRL_LANE_MODEL)).st = .resident ∧ (s.srv.model (s.fld .CTL_CTRL_LANE_MODEL)).realm = s.laneOwner)) :
    s.install pkg = s.installEnd 1 := by
  have hfilter : pkg.filter (fun _ => (s.srv.model (s.fld .CTL_CTRL_LANE_MODEL)).st == .resident && (s.srv.model (s.fld .CTL_CTRL_LANE_MODEL)).realm == s.laneOwner) = none := by
    cases pkg with
    | none => rfl
    | some p =>
      rw [Option.filter_some, if_neg]
      simpa using hnone
  unfold State.install
  rw [if_neg hfree, hfilter]

/-- A write of CTL_GRID_HI in a disabled lane (R270). -/
theorem gridWrite_spec {s : State} (v : Nat) (hen : s.flag .CTL_CTRL_LANE_EN = false) :
    (s.gridWrite v).lane = { s.lane with grid := (s.word .CTL_GRID_LO).toNat + v % 2 ^ 32 * 2 ^ 32, period := none }
      ∧ (s.gridWrite v).word .CTL_GRID_HI = BitVec.ofNat 32 v ∧ s.sameBut (s.gridWrite v) [.lane, .regs] ∧ s.regsBut (s.gridWrite v) [Reg.CTL_GRID_HI.key 0 0] := by
  let u := s.setWord .CTL_GRID_HI 0 0 (BitVec.ofNat 32 v)
  have hlo : u.word .CTL_GRID_LO = s.word .CTL_GRID_LO := State.word_setWord_of_ne _ _ (by decide)
  have hgrid : s.gridWrite v = u.onLane (fun l => { l with grid := (s.word .CTL_GRID_LO).toNat + v % 2 ^ 32 * 2 ^ 32, period := none }) := by
    rw [← hlo]
    unfold State.gridWrite
    exact if_neg (by simp [hen])
  rw [hgrid]
  refine ⟨State.onLane_lane _ _, ?_, sameBut_trans (sameBut_setWord _ _ _ _ _ _ (by decide)) (sameBut_lane _ _ _ (by decide)), fun k hk => ?_⟩
  · rw [State.word_onLane]
    exact State.word_setWord_self _ _ _ _ _
  · rw [State.onLane_regs]
    exact regsBut_setWord s _ _ _ _ _ (by decide) k hk

/-- Settles O36: INSTALL by its checks in their order, and the write of the grid. -/
theorem lanePackagesInstall : Obligations.LanePackagesInstall := by
  intro s pkg hopen m busy ours refused
  have hexec := exec_install pkg hopen
  refine ⟨fun hbusy => ?_, fun hfree hnone => ?_, fun hfree hours p hpkg => ?_, fun v => ⟨fun hen => ?_, fun hen => ?_⟩⟩
  · refine installRefused (by decide) (by decide) (hexec.trans (congrArg _ ?_))
    unfold State.install
    exact if_pos hbusy
  · exact installRefused (by decide) (by decide) (hexec.trans (congrArg _ (install_unowned hfree hnone)))
  · subst hpkg
    rw [install_of_pkg hfree hours] at hexec
    refine ⟨fun hlim => ?_, fun hlim htsn => ?_, fun hlim htsn hen hstand => ?_, fun hlim htsn hen hstand => ?_, fun hlim htsn hen => ?_⟩
    · exact installRefused (by decide) (by decide) (by rw [hexec, hlim, if_pos (by decide)])
    · exact installRefused (by decide) (by decide) (by rw [hexec, hlim, htsn, if_neg (by decide), if_pos (by decide)])
    · exact installRefused (by decide) (by decide) (by rw [hexec, hlim, htsn, hen, hstand, if_neg (by decide), if_neg (by decide), if_pos rfl, if_pos (by rfl)])
    · rw [hexec, hlim, htsn, hen, if_neg (by decide), if_neg (by decide), if_pos rfl, if_neg (by simpa using hstand)]
    · let u := s.onLane (fun l => { l with pkg := some p, period := none, launchAt := none, answered := false, heldOut := false })
      obtain ⟨hlat, hshow⟩ := showPkg_spec u p
      obtain ⟨hinst, herr, hsts, hsame, hlane, hkeep⟩ := installEnd_spec (u.showPkg p) (e := 0) (by decide)
      rw [hlim, htsn, hen, if_neg (by decide), if_neg (by decide), if_neg (by decide)] at hexec
      have hl : ((u.showPkg p).installEnd 0).lane = u.lane := hlane.trans (hshow .lane (by decide)).symm
      exact ⟨_, hexec, congrArg Lane.pkg hl, congrArg Lane.period hl, hinst, herr, (hkeep _ rfl).trans hlat, hsts,
        sameBut_trans (sameBut_lane _ _ _ (by decide)) (sameBut_trans (sameBut_mono hshow (by decide)) (sameBut_mono hsame (by decide)))⟩
  · refine (fw_open s .CTL_GRID_HI 0 v (fun s => s.gridWrite v) hopen).trans (congrArg _ ?_)
    unfold State.gridWrite
    exact if_pos hen
  · exact ⟨_, fw_open s .CTL_GRID_HI 0 v (fun s => s.gridWrite v) hopen, gridWrite_spec v hen⟩

/-! ### The lane's switches and flags -/

/-- The fields of a register of selectors below `n` are zero once each has been cleared, and no other word has changed. -/
theorem foldl_clearFld {f : Fld} (hf : f.fits) (n : Nat) (hn : n ≤ 1024) (s : State) : let t := (List.range n).foldl (fun s q => s.setFld f 0 0 q) s
    (∀ q < n, t.fld f 0 q = 0) ∧ ∀ (g : Reg) u sel, (∀ q < n, g.key u sel ≠ f.reg.key 0 q) → t.word g u sel = s.word g u sel := by
  induction n with
  | zero => exact ⟨fun q hq => absurd hq (Nat.not_lt_zero q), fun g u sel _ => rfl⟩
  | succ n ih =>
    obtain ⟨hzero, hkeep⟩ := ih (by omega)
    rw [List.range_succ, List.foldl_append]
    refine ⟨fun q hq => ?_, fun g u sel hg => ?_⟩
    · by_cases hqn : q = n
      · rw [hqn]
        exact (State.fld_setFld_self _ f 0 0 n hf).trans (Nat.zero_mod _)
      · refine (State.fld_setFld_of_ne _ 0 0 n ?_).trans (hzero q (by omega))
        simp only [Reg.key]
        omega
    · exact (word_setFld_ne (hg n (Nat.lt_succ_self n))).trans (hkeep g u sel fun q hq => hg q (by omega))

/-- CNT_CLR of the lane. -/
theorem ctlCntClr_spec (s : State) : (∀ g ∈ [Reg.CTL_PERF_HOLD, .CTL_PERF_REJECT, .CTL_PERF_MAXLAT], s.ctlCntClr.word g = 0)
    ∧ (∀ q < 16, s.ctlCntClr.fld .CTL_Q_STS_GAPS 0 q = 0) ∧ s.sameBut s.ctlCntClr [.regs] := by
  let u := ((s.setWord .CTL_PERF_HOLD 0 0 0).setWord .CTL_PERF_REJECT 0 0 0).setWord .CTL_PERF_MAXLAT 0 0 0
  obtain ⟨hzero, hkeep⟩ := foldl_clearFld (f := .CTL_Q_STS_GAPS) (Fld.fits_of_le (by decide)) 16 (by decide) u
  refine ⟨fun g hg => ?_, hzero, ?_⟩
  · have hu : u.word g = 0 := by
      simp only [List.mem_cons, List.not_mem_nil, or_false] at hg
      rcases hg with rfl | rfl | rfl
      · rw [State.word_setWord_of_ne _ _ (by decide), State.word_setWord_of_ne _ _ (by decide), State.word_setWord_self]
      · rw [State.word_setWord_of_ne _ _ (by decide), State.word_setWord_self]
      · rw [State.word_setWord_self]
    refine (hkeep g 0 0 ?_).trans hu
    simp only [List.mem_cons, List.not_mem_nil, or_false] at hg
    rcases hg with rfl | rfl | rfl <;> decide
  · exact sameBut_trans (sameBut_setWord _ _ _ _ _ _ (by decide)) (sameBut_trans (sameBut_setWord _ _ _ _ _ _ (by decide))
      (sameBut_trans (sameBut_setWord _ _ _ _ _ _ (by decide)) (sameBut_foldl _ (fun _ _ => sameBut_setFld _ _ _ _ _ _ (by decide)) _ _)))

/-- LANE_EN as a write of CTL_CTRL leaves it. -/
theorem laneEn_setWord (s : State) (v : Nat) : (s.setWord .CTL_CTRL 0 0 (BitVec.ofNat 32 v &&& 0x00FF031F)).flag .CTL_CTRL_LANE_EN = bit v 0 := by
  have hof : Fld.of .CTL_CTRL_LANE_EN (BitVec.ofNat 32 v &&& 0x00FF031F) = v % 2 := by
    refine Nat.eq_of_testBit_eq fun i => ?_
    rw [Fld.testBit_of, Nat.testBit_mod_two_pow v 1 i]
    by_cases hi : i < 1
    · obtain rfl : i = 0 := by omega
      have hmask : (0x00FF031F : BitVec 32).getLsbD 0 = true := by decide
      rw [Nat.add_zero, BitVec.getLsbD_and, BitVec.getLsbD_ofNat, hmask]
      simp
    · simp [hi]
  rw [State.flag, State.fld_setWord_self _ .CTL_CTRL_LANE_EN, hof, bit, Nat.pow_zero, Nat.div_one]

/-- A lane that is switched off: both halves are OFF and the lane holds nothing (R265, R283). -/
theorem laneOff_spec {s : State} (hen : s.flag .CTL_CTRL_LANE_EN = false) : let t := ((s.halfToOff 0).halfToOff 1).laneHold
    t.halfSt 0 = halfOff ∧ t.halfSt 1 = halfOff ∧ t.laneTiles = [] ∧ t.laneParts = [] := by
  obtain ⟨hoff0, -, -, -, -, hregs0⟩ := halfToOff_spec s 0 (by decide)
  obtain ⟨hoff1, hother1, -, -, -, hregs1⟩ := halfToOff_spec (s.halfToOff 0) 1 (by decide)
  have hword : ((s.halfToOff 0).halfToOff 1).word .CTL_CTRL = s.word .CTL_CTRL :=
    (hregs1 _ (by decide) (by decide) (by decide)).trans (hregs0 _ (by decide) (by decide) (by decide))
  have hflag : ((s.halfToOff 0).halfToOff 1).flag .CTL_CTRL_LANE_EN = false := by
    rw [← hen, State.flag, State.flag, State.fld, State.fld, hword]
  obtain ⟨htiles, hparts, hregs, -⟩ := laneHold_off _ hflag
  have hst : ∀ k, ((s.halfToOff 0).halfToOff 1).laneHold.halfSt k = ((s.halfToOff 0).halfToOff 1).halfSt k := halfSt_of_word (by rw [State.word, hregs]; rfl)
  exact ⟨(hst 0).trans (hother1.trans hoff0), (hst 1).trans hoff1, htiles, hparts⟩

/-- ACK_LOST clears LOST and ends STALE (R289). -/
theorem ackLost_spec (s : State) : s.ackLost.fld .CTL_STATE_LOST = 0 ∧ s.ackLost.lane.stale = false ∧ s.sameBut s.ackLost (.lane :: reportParts) := by
  let u := (s.setFld .CTL_STATE_LOST 0).onLane (fun l => { l with stale := false })
  have hsame := (reportStep_evalState u).1
  refine ⟨?_, ?_, sameBut_trans (sameBut_setFld _ _ _ _ _ _ (by decide)) (sameBut_trans (sameBut_lane _ _ _ (by decide)) (sameBut_mono hsame (by decide)))⟩
  · rw [State.ackLost, (reportRegs_evalState u).fld _ 0 0 (by decide) (by decide) (by decide) (by decide)]
    exact State.fld_setFld_self s .CTL_STATE_LOST 0 0 0 (Fld.fits_of_le (by decide))
  · exact congrArg Lane.stale (hsame .lane (by decide)).symm

/-- Settles O37: each command of the page. -/
theorem laneSwitchesAndFlags : Obligations.LaneSwitchesAndFlags := by
  intro s hopen
  have harm : exec (.swapArm .fw) s = .next s.swapArm := fw_open s .CTL_CMD 0 8 State.swapArm hopen
  refine ⟨fun hnone => ?_, fun hstand => ?_, ?_, fun w hw => ?_, fun r hr => ?_, ?_, ?_, fun v => ?_⟩
  · refine harm.trans (congrArg _ (if_pos ?_))
    rw [hnone]
    rfl
  · exact ⟨_, harm.trans (congrArg _ (if_neg (by simpa using hstand))), rfl, sameBut_lane _ _ _ (by decide)⟩
  · exact ⟨_, fw_open s .CTL_CMD 0 0x10 State.swapCancel hopen, rfl, sameBut_lane _ _ _ (by decide)⟩
  · have hexec : exec (.ackLost w) s = .next s.ackLost := by
      rcases hw with rfl | ⟨rfl, hwin⟩
      · exact fw_open s .CTL_CMD 0 0x20 State.ackLost hopen
      · have hpage : s.pageUp 9 = true := by
          simp only [State.openTo, Bool.and_eq_true] at hopen
          exact hopen.1
        change execAckLost (.realm s.laneOwner) s = _
        simp [execAckLost, hpage, hwin]
    exact ⟨_, hexec, ackLost_spec s⟩
  · change execAckLost (.realm r) s = _
    simp [execAckLost, Ne.symm hr]
  · exact ⟨_, fw_open s .CTL_CMD 0 0x40 State.ctlCntClr hopen, ctlCntClr_spec s⟩
  · exact ⟨_, fw_open s .CTL_CMD 0 0x200 State.qFlush hopen, queue_setQueue_self _ _ _, sameBut_queue _ _ _ _ (by decide)⟩
  · intro u
    have hexec : exec (.laneEnWrite .fw v) s = .next (s.laneEnWrite v) := fw_open s .CTL_CTRL 0 v (fun s => s.laneEnWrite v) hopen
    refine ⟨fun hsame => ?_, fun hon hoff => ?_, fun hoff hon => ?_⟩
    · exact hexec.trans (congrArg _ (if_pos (by simpa using hsame)))
    · refine hexec.trans (congrArg _ ?_)
      unfold State.laneEnWrite
      rw [hon, hoff]
      rfl
    · let v' := u.onLane (fun l => { l with seq := none, swap := none, sent := none, ckpt := none, paired := false })
      refine ⟨((v'.halfToOff 0).halfToOff 1).laneHold, hexec.trans (congrArg _ ?_), laneOff_spec ((laneEn_setWord s v).trans hoff)⟩
      unfold State.laneEnWrite
      rw [hon, hoff]
      rfl

end Sys2Proof.Machine

/-! SUPPORT. Claims, state copies, comparisons and takeovers of the lane's halves (R281, R283, R285). -/

namespace Sys2Proof.Machine

/-! ### Announcing a claim (R281) -/

theorem claimFld_reg (h : Nat) : (claimFld h).reg = .CTL_CLAIM := by
  unfold claimFld
  split <;> rfl

theorem claimFld_fits (h : Nat) : (claimFld h).fits := by
  unfold claimFld Fld.fits
  split <;> decide

theorem fld_setHalf (s : State) (h : Nat) (x : Half) (f : Fld) (u sel : Nat) : (s.setHalf h x).fld f u sel = s.fld f u sel := rfl

/-- LAST stands in a register of its own. -/
theorem last_setClaim (s : State) (h c : Nat) : (s.setFld (claimFld h) c).fld .CTL_CLAIM_LAST_LAST = s.fld .CTL_CLAIM_LAST_LAST :=
  State.fld_setFld_of_ne _ _ _ _ (by rw [claimFld_reg]; decide)

/-- A claim of 0 gives up the hold. -/
theorem announce_zero (s : State) (h : Nat) : s.announce h 0 = (s.setFld (claimFld h) 0).setHalf h { s.half h with accepted := 0 } := by
  unfold State.announce
  exact if_pos rfl

theorem announce_accepted {s : State} (h : Nat) {c : Nat} (hc : c ≠ 0) (hhigh : claimHigher c (s.fld .CTL_CLAIM_LAST_LAST) = true) :
    s.announce h c = ((s.setFld (claimFld h) c).setHalf h { s.half h with accepted := c }).setFld .CTL_CLAIM_LAST_LAST c := by
  unfold State.announce
  dsimp only
  rw [if_neg hc, last_setClaim, if_pos hhigh]
  rfl

theorem announce_ignored {s : State} (h : Nat) {c : Nat} (hc : c ≠ 0) (hlow : claimHigher c (s.fld .CTL_CLAIM_LAST_LAST) = false) :
    s.announce h c = (s.setFld (claimFld h) c).setSts .CTL_STS [13] := by
  unfold State.announce
  dsimp only
  rw [if_neg hc, last_setClaim, if_neg (by simp [hlow])]

theorem word_announce (s : State) (h c : Nat) {g : Reg} {u sel : Nat} (h1 : g.key u sel ≠ Reg.CTL_CLAIM.key 0 0) (h2 : g.key u sel ≠ Reg.CTL_CLAIM_LAST.key 0 0)
    (h3 : ∀ q < 4, g.key u sel ≠ Reg.RING_EQ_DROP.key q 0) : (s.announce h c).word g u sel = s.word g u sel := by
  have hclaim : ∀ v, (s.setFld (claimFld h) v).word g u sel = s.word g u sel := fun v => word_setFld_ne (by rw [claimFld_reg]; exact h1)
  by_cases hc : c = 0
  · subst hc
    rw [announce_zero]
    exact hclaim 0
  cases hhigh : claimHigher c (s.fld .CTL_CLAIM_LAST_LAST) with
  | true =>
    rw [announce_accepted h hc hhigh, word_setFld_ne (f := .CTL_CLAIM_LAST_LAST) h2]
    exact hclaim c
  | false =>
    rw [announce_ignored h hc hhigh, word_setSts _ h3]
    exact hclaim c

/-- A claim changes the state of no half. -/
theorem halfSt_announce (s : State) (h c k : Nat) : (s.announce h c).halfSt k = s.halfSt k :=
  halfSt_of_word (word_announce s h c (by decide) (by decide) (by decide)) k

/-- What a claim that is accepted leaves: LAST follows it, and the half holds it. -/
theorem accepted_spec {s : State} {h c : Nat} (hh : h ≤ 1) (hc : c ≠ 0) (hlt : c < 65536) (hhigh : claimHigher c (s.fld .CTL_CLAIM_LAST_LAST) = true) :
    (s.announce h c).fld .CTL_CLAIM_LAST_LAST = c ∧ ((s.announce h c).half h).accepted = c ∧ (s.announce h c).half (otherHalf h) = s.half (otherHalf h)
      ∧ s.sameBut (s.announce h c) [.lane, .regs] := by
  rw [announce_accepted h hc hhigh]
  refine ⟨fld_setFld_lt _ _ _ _ _ (Fld.fits_of_le (by decide)) hlt, ?_, half_setHalf_other (s.setFld (claimFld h) c) h _ hh,
    sameBut_trans (sameBut_setFld _ _ _ _ _ _ (by decide)) (sameBut_trans (sameBut_setHalf _ _ _ (by decide)) (sameBut_setFld _ _ _ _ _ _ (by decide)))⟩
  exact congrArg Half.accepted (half_setHalf (s.setFld (claimFld h) c) h _)

/-! ### CLAIM (R281, R283) -/

theorem exec_claim {s : State} {h : Nat} (c : Nat) (hh : h ≤ 1) (hup : s.up = true) : exec (.claim h c) s = .next
    (if c != 0 && claimHigher c (s.fld .CTL_CLAIM_LAST_LAST) && (s.announce h (c % 65536)).halfSt (otherHalf h) == halfActive
      then (s.announce h (c % 65536)).failHalf (otherHalf h) else s.announce h (c % 65536)) := by
  change execClaim h c s = _
  rw [execClaim, whenUp_of_up _ hup]
  exact congrArg _ (if_neg (by omega))

/-- An ACTIVE half whose claim a higher one overtakes fails. -/
theorem claim_overtakes {s : State} {h c : Nat} (hh : h ≤ 1) (hup : s.up = true) (hc : c ≠ 0) (hlt : c < 65536)
    (hhigh : claimHigher c (s.fld .CTL_CLAIM_LAST_LAST) = true) (hact : s.halfSt (otherHalf h) = halfActive) :
    ∃ t, exec (.claim h c) s = .next t ∧ t.halfSt (otherHalf h) = halfFailed ∧ (t.half h).accepted = c := by
  have hexec := exec_claim c hh hup
  rw [Nat.mod_eq_of_lt hlt, halfSt_announce, hact, hhigh, if_pos (by simp [hc])] at hexec
  obtain ⟨hfailed, -, hhalf, -⟩ := failHalf_spec (s.announce h c) (otherHalf_le h)
  rw [otherHalf_otherHalf hh] at hhalf
  obtain ⟨-, hacc, -⟩ := accepted_spec hh hc hlt hhigh
  exact ⟨_, hexec, hfailed, by rw [hhalf, hacc]⟩

/-! ### Copies and comparisons (R283, R285) -/

theorem exec_stateCopyReceive {s : State} {h : Nat} {c : LaneCopy} (good : Bool) (hh : h ≤ 1) (hup : s.up = true) (hact : s.halfIn halfActive = some (otherHalf h))
    (hsent : s.lane.sent = some c) : let u := s.onLane (fun l => { l with sent := none })
    exec (.stateCopyReceive good) s = .next (if s.halfSt h = halfStandby then
        (if good then u.setHalf h { s.half h with copy := some c, bad := 0 }
         else if 2 ≤ (s.half h).bad + 1 then ((u.setHalf h { s.half h with bad := (s.half h).bad + 1 }).setSts .CTL_STS [4]).failHalf h
           else u.setHalf h { s.half h with bad := (s.half h).bad + 1 })
      else if s.halfSt h = halfLoad ∧ (s.half h).loaded ∧ good then (u.setHalf h { s.half h with copy := some c }).enterHalf h halfShadow
      else u) := by
  change execStateCopyReceive good s = _
  rw [execStateCopyReceive, whenUp_of_up _ hup]
  simp only [hact, hsent, otherHalf_otherHalf hh]
  rfl

/-- A half that waits in LOAD takes the holder's copy and shadows it. -/
theorem copy_toShadow {s : State} {h : Nat} {c : LaneCopy} (hh : h ≤ 1) (hup : s.up = true) (hact : s.halfIn halfActive = some (otherHalf h))
    (hsent : s.lane.sent = some c) (hst : s.halfSt h = halfLoad) (hloaded : (s.half h).loaded = true) :
    ∃ t, exec (.stateCopyReceive true) s = .next t ∧ t.halfSt h = halfShadow ∧ (t.half h).copy = some c := by
  have hexec := exec_stateCopyReceive true hh hup hact hsent
  dsimp only at hexec
  rw [hst, if_neg (by decide), if_pos ⟨rfl, hloaded, rfl⟩] at hexec
  refine ⟨_, hexec, halfSt_enterHalf _ _ _ (by decide), ?_⟩
  rw [half_enterHalf _ _ _ _ (by decide), half_setHalf_self]

/-- A shadow that differs from the holder fails (R283). -/
theorem shadow_differs {s : State} {h : Nat} {c : LaneCopy} {outs : List (Nat × List Nat)} {bytes : List Nat} (hh : h ≤ 1) (hup : s.up = true)
    (hin : s.halfIn halfShadow = some h) (hsent : s.lane.sent = some c) (hold : (s.half h).copy.any (fun x => x.period == c.period) = false)
    (hfresh : (s.half h).fresh = false) (hne : c.bytes ≠ bytes ∨ c.outs ≠ outs) :
    ∃ t, exec (.shadowCompare outs bytes) s = .next t ∧ t.halfSt h = halfFailed ∧ t.stsBit .CTL_STS 3 = true := by
  let u := (((s.onLane (fun l => { l with sent := none })).setSts .CTL_STS [3]).laneEvent 6 (h * 2 ^ 16)).laneReport 3 h
  have hexec : exec (.shadowCompare outs bytes) s = .next (u.failHalf h) := by
    have hdiff : (c.bytes == bytes && c.outs == outs) = false := by
      rw [Bool.and_eq_false_iff]
      exact hne.imp (by simp) (by simp)
    change execShadowCompare outs bytes s = _
    rw [execShadowCompare, whenUp_of_up _ hup]
    simp only [hin, hsent, hold, hfresh, hdiff, Bool.false_and, Bool.or_self, Bool.false_eq_true, ↓reduceIte]
    have hnotFresh : ((s.onLane (fun l => { l with sent := none })).half h).fresh = false := hfresh
    rw [hnotFresh]
    rfl
  obtain ⟨hfailed, -, -, hsts, -⟩ := failHalf_spec u hh
  exact ⟨_, hexec, hfailed, hsts _ _ _ ((reportRegs_report _ _ _ _ _ _ _ _ _ _ _).sts _ _ _ (stsBit_emit _ (stsBit_setSts _ (by decide))))⟩

/-- A shadow equal to the holder in state and output becomes STANDBY (R283). -/
theorem shadow_agrees {s : State} {h : Nat} {c : LaneCopy} (hup : s.up = true) (hin : s.halfIn halfShadow = some h) (hsent : s.lane.sent = some c)
    (hold : (s.half h).copy.any (fun x => x.period == c.period) = false) :
    ∃ u, exec (.shadowCompare c.outs c.bytes) s = .next (u.toStandby h) ∧ u.half h = { s.half h with copy := some c } ∧ s.sameBut u [.lane] := by
  refine ⟨(s.onLane (fun l => { l with sent := none })).setHalf h { s.half h with copy := some c }, ?_, half_setHalf_self _ _ _,
    sameBut_trans (sameBut_lane _ _ _ (by decide)) (sameBut_setHalf _ _ _ (by decide))⟩
  change execShadowCompare c.outs c.bytes s = _
  rw [execShadowCompare, whenUp_of_up _ hup]
  simp only [hin, hsent, hold, BEq.rfl, Bool.and_self, Bool.or_true, Bool.false_eq_true, ↓reduceIte]
  rfl

/-! ### TAKEOVER (R285) -/

/-- The STANDBY half takes over a holder that is silent or has sent no copy of the period. -/
theorem takeover_spec {s : State} {h k : Nat} {p : LanePkg} (hh : h ≤ 1) (hup : s.up = true) (hpkg : s.lane.pkg = some p) (hperiod : s.lane.period = some k)
    (hstand : s.halfIn halfStandby = some h) (harm : (s.half h).arming = .none)
    (hgo : (s.half (otherHalf h)).accepted = 0 ∨ (s.half h).copy.map LaneCopy.period ≠ some k) :
    ∃ t, exec .takeover s = .next t ∧ (t.half h).arming = .resume ∧ t.stsBit .CTL_STS 0 = true
      ∧ (s.halfSt (otherHalf h) = halfActive → t.halfSt (otherHalf h) = halfFailed) := by
  let u := if (s.half (otherHalf h)).accepted = 0 then s else { s with gauge := max s.gauge (s.copyAt p) }
  let v := (u.announce h u.nextClaim).setHalf h { (u.announce h u.nextClaim).half h with arming := .resume }
  let lost := k - ((v.half h).copy.map LaneCopy.period).getD 0
  let w := ((v.bumpSat .CTL_CLAIM_LAST_TAKEOVERS 1).setSts .CTL_STS [0]).laneEvent 1 (u.nextClaim + h * 2 ^ 16 + min 255 lost * 2 ^ 24)
  have hexec : exec .takeover s = .next (if w.halfSt (otherHalf h) = halfActive then w.failHalf (otherHalf h) else w) := by
    change execTakeover s = _
    rw [execTakeover, whenUp_of_up _ hup]
    simp only [hpkg, hperiod, hstand]
    exact congrArg _ (if_neg fun hor => hor.elim (· harm) fun hno => by simp only [decide_eq_true hgo, Bool.not_true, Bool.false_eq_true] at hno)
  have hu : u.halfSt (otherHalf h) = s.halfSt (otherHalf h) := by
    simp only [u]
    split <;> rfl
  have hstate : w.halfSt (otherHalf h) = s.halfSt (otherHalf h) := by
    refine (halfSt_of_word (s := u.announce h u.nextClaim) ?_ _).trans ((halfSt_announce _ _ _ _).trans hu)
    change (((v.bumpSat .CTL_CLAIM_LAST_TAKEOVERS 1).setSts .CTL_STS [0]).emit 11 0x40 1 _ _).word .CTL_STATE = _
    rw [word_emit _ (by decide), word_setSts _ (by decide)]
    exact word_setFld_ne (f := .CTL_CLAIM_LAST_TAKEOVERS) (by decide)
  have hlane : w.lane = v.lane := by
    change (((v.bumpSat .CTL_CLAIM_LAST_TAKEOVERS 1).setSts .CTL_STS [0]).emit 11 0x40 1 _ _).lane = _
    rw [← sameBut_emit _ _ _ _ _ eventParts (List.Subset.refl _) .lane (by decide), ← sameBut_sts _ _ _ eventParts (List.Subset.refl _) .lane (by decide)]
    rfl
  have harmed : (w.half h).arming = .resume := by
    have hhalf : w.half h = v.half h := by
      unfold State.half
      rw [hlane]
    rw [hhalf]
    exact congrArg Half.arming (half_setHalf _ h _)
  have hsts : w.stsBit .CTL_STS 0 = true := stsBit_emit _ (stsBit_setSts _ (by decide))
  refine ⟨_, hexec, ?_⟩
  rw [hstate]
  by_cases hact : s.halfSt (otherHalf h) = halfActive
  · obtain ⟨hfailed, -, hhalf, hkeep, -⟩ := failHalf_spec w (otherHalf_le h)
    rw [otherHalf_otherHalf hh] at hhalf
    rw [if_pos hact]
    exact ⟨by rw [hhalf, harmed], hkeep _ _ _ hsts, fun _ => hfailed⟩
  · rw [if_neg hact]
    exact ⟨harmed, hsts, fun h => absurd h hact⟩

/-- Settles O39: each of the commands by the states of the two halves. -/
theorem claimsCopiesAndTakeovers : Obligations.ClaimsCopiesAndTakeovers := by
  intro h s hh hup
  refine ⟨?_, fun c hc hlt => ⟨fun hhigh hother => ?_, claim_overtakes hh hup hc hlt, fun hlow => ?_⟩,
    fun c hact hsent => ⟨fun hst => ?_, fun hst hbad => ?_, fun hst hbad => ?_, copy_toShadow hh hup hact hsent⟩,
    fun c outs bytes hin hsent hold hfresh => ⟨?_, shadow_differs hh hup hin hsent hold hfresh⟩,
    fun p k hpkg hperiod hstand harm => ⟨fun hheld hcopy => ?_, takeover_spec hh hup hpkg hperiod hstand harm⟩⟩
  · have hexec := exec_claim 0 hh hup
    rw [if_neg (by simp), Nat.zero_mod, announce_zero] at hexec
    refine ⟨_, hexec, ?_, congrArg Half.accepted (half_setHalf (s.setFld (claimFld h) 0) h _),
      sameBut_trans (sameBut_setFld _ _ _ _ _ _ (by decide)) (sameBut_setHalf _ _ _ (by decide))⟩
    rw [fld_setHalf, State.fld_setFld_self _ _ _ _ _ (claimFld_fits h), Nat.zero_mod]
  · have hexec := exec_claim c hh hup
    rw [Nat.mod_eq_of_lt hlt, halfSt_announce, if_neg (by simp [hother])] at hexec
    obtain ⟨hlast, hacc, -, hsame⟩ := accepted_spec hh hc hlt hhigh
    exact ⟨_, hexec, hlast, hacc, hsame⟩
  · have hexec := exec_claim c hh hup
    rw [Nat.mod_eq_of_lt hlt, hlow, if_neg (by simp), announce_ignored h hc hlow] at hexec
    exact ⟨_, hexec, stsBit_setSts _ (by decide), (sameBut_sts _ _ _ eventParts (List.Subset.refl _) .lane (by decide)).symm⟩
  · have hexec := exec_stateCopyReceive true hh hup hact hsent
    dsimp only at hexec
    rw [if_pos hst, if_pos rfl] at hexec
    exact ⟨_, hexec, half_setHalf _ _ _, sameBut_trans (sameBut_lane _ _ _ (by decide)) (sameBut_setHalf _ _ _ (by decide))⟩
  · have hexec := exec_stateCopyReceive false hh hup hact hsent
    dsimp only at hexec
    rw [if_pos hst, hbad, if_neg (by decide), if_neg (by decide)] at hexec
    exact ⟨_, hexec, half_setHalf _ _ _, sameBut_trans (sameBut_lane _ _ _ (by decide)) (sameBut_setHalf _ _ _ (by decide))⟩
  · have hexec := exec_stateCopyReceive false hh hup hact hsent
    dsimp only at hexec
    rw [if_pos hst, hbad, if_neg (by decide), if_pos (by decide)] at hexec
    obtain ⟨hfailed, -, -, hsts, -⟩ := failHalf_spec
      (((s.onLane (fun l => { l with sent := none })).setHalf h { s.half h with bad := 1 + 1 }).setSts .CTL_STS [4]) hh
    exact ⟨_, hexec, hfailed, hsts _ _ _ (stsBit_setSts _ (by decide))⟩
  · rintro rfl rfl
    exact shadow_agrees hup hin hsent hold
  · change execTakeover s = _
    rw [execTakeover, whenUp_of_up _ hup]
    simp only [hpkg, hperiod, hstand]
    exact congrArg _ (if_pos (by simp [hheld, hcopy]))

end Sys2Proof.Machine

/-! SUPPORT. The lane's ports, frames and time (R212, R213, R269, R270, R278, R279, R290). -/

namespace Sys2Proof.Machine

/-! ### Frames into their queues (R212, R213, R269, R278) -/

/-- LANE_FRAME_RX of a frame with a good header and a mapped axis. -/
theorem exec_laneFrameRx {s : State} {port q hdr : Nat} {ws : List Nat} (hup : s.up = true) (hport : s.portUp port = true) (hq : q < 4)
    (hhdr : laneHeaderOk hdr ws = true) (hmap : ((s.lane.pkg.map LanePkg.axes).getD []).any (fun a => a.axis == bits hdr 8 8 && a.queue == q) = true)
    (hgap : (s.queue (4 * port + q)).gap = none) : let k := 4 * port + q
    let u := s.setQueue k ((s.queue k).arrive k (hdr :: ws))
    exec (.laneFrameRx port q hdr ws) s = .next (if (s.queue k).admits (ws.length + 1) then u
      else ((u.onLane (fun l => { l with gaps := Tab.set (fun _ => 0) k (Tab.get (fun _ => 0) l.gaps k + 1) l.gaps })).bumpSat .CTL_Q_STS_GAPS 1 0 k).setSts .CTL_STS [6]) := by
  change execLaneFrameRx port q hdr ws s = _
  rw [execLaneFrameRx, whenUp_of_up _ hup]
  simp only [hport, decide_eq_false (Nat.not_le.2 hq), hhdr, hmap, enterGap_of_no_marker _ hgap, Bool.not_true, Bool.or_self, Bool.false_eq_true, ↓reduceIte]

/-- LANE_FRAME_RX of any other lane frame. -/
theorem exec_laneFrameRx_dropped {s : State} {port q hdr : Nat} {ws : List Nat} (hup : s.up = true) (hport : s.portUp port = true) (hq : q < 4)
    (hbad : laneHeaderOk hdr ws = false ∨ ((s.lane.pkg.map LanePkg.axes).getD []).any (fun a => a.axis == bits hdr 8 8 && a.queue == q) = false) :
    exec (.laneFrameRx port q hdr ws) s = .next (s.rxDrop port) := by
  change execLaneFrameRx port q hdr ws s = _
  rw [execLaneFrameRx, whenUp_of_up _ hup]
  simp only [hport, decide_eq_false (Nat.not_le.2 hq), Bool.not_true, Bool.or_self, Bool.false_eq_true, ↓reduceIte]
  exact congrArg _ (if_pos (by rcases hbad with h | h <;> simp [h]))

theorem portUp_lt {s : State} {p : Nat} (h : s.portUp p = true) : p < 4 := by
  simp only [State.portUp, Bool.and_eq_true, decide_eq_true_eq] at h
  exact h.1.1

/-! ### Time (R268-R270) -/

theorem exec_ptpFrameRx {s : State} {port : Nat} {p : LanePkg} (d : Nat) (sync : Bool) (hup : s.up = true) (hport : s.portUp port = true) (hpkg : s.lane.pkg = some p) :
    exec (.ptpFrameRx port d sync) s = .next (if d ≠ p.domain then s.rxDrop port
      else if sync && !s.flag .CTL_CTRL_TS_ROLE then
        (((List.range 4).foldl (fun s q => s.setFld .CTL_PORT_STS_TS_PORT (b2n (q == port)) 0 q) s).setFld .CTL_STATE_TS_LOCK 1).onLane (fun l => { l with tsPort := port })
      else s) := by
  change execPtpFrameRx port d sync s = _
  rw [execPtpFrameRx, whenUp_of_up _ hup]
  simp only [hport, hpkg, Bool.not_true, Bool.false_eq_true, ↓reduceIte]

theorem flag_setFld_self (s : State) {f : Fld} (v : Bool) (u sel : Nat) (hf : f.fits) (hw : f.width = 1) : (s.setFld f (b2n v) u sel).flag f u sel = v := by
  rw [State.flag, State.fld_setFld_self _ _ _ _ _ hf, hw]
  cases v <;> rfl

/-- TS_UNLOCK of a follower (R270). -/
theorem tsUnlock_spec {s : State} (hup : s.up = true) (hrole : s.flag .CTL_CTRL_TS_ROLE = false) (hlock : s.flag .CTL_STATE_TS_LOCK = true) :
    ∃ t, exec .tsUnlock s = .next t ∧ t.flag .CTL_STATE_TS_LOCK = false ∧ t.stsBit .CTL_STS 9 = true ∧ s.sameBut t eventParts := by
  let u := (s.setFld .CTL_STATE_TS_LOCK 0).setFld .CTL_PORT_STS_TS_PORT 0 0 s.lane.tsPort
  have hexec : exec .tsUnlock s = .next ((u.setSts .CTL_STS [9]).emit 16 0x40 0x0A s.laneOwner s.lane.tsPort) := by
    have howner : u.laneOwner = s.laneOwner := by
      rw [State.laneOwner, State.fld_setFld_of_ne _ _ _ _ (by simp only [Reg.key]; omega), State.fld_setFld_of_ne _ _ _ _ (by decide)]
      rfl
    change execTsUnlock s = _
    rw [execTsUnlock, whenUp_of_up _ hup]
    simp only [hrole, hlock, Bool.not_true, Bool.or_self, Bool.false_eq_true, ↓reduceIte]
    change Host.Outcome.next ((u.setSts .CTL_STS [9]).emit 16 0x40 0x0A u.laneOwner s.lane.tsPort) = _
    rw [howner]
  refine ⟨_, hexec, ?_, stsBit_emit _ (stsBit_setSts _ (by decide)), sameBut_trans (sameBut_setFld _ _ _ _ _ _ (by decide))
    (sameBut_trans (sameBut_setFld _ _ _ _ _ _ (by decide)) (sameBut_trans (sameBut_sts _ _ _ _ (List.Subset.refl _)) (sameBut_emit _ _ _ _ _ _ (List.Subset.refl _))))⟩
  rw [State.flag, fld_emit _ (by decide), fld_setSts _ (by decide), State.fld_setFld_of_ne _ _ _ _ (by simp only [Reg.key]; omega),
    State.fld_setFld_self _ _ _ _ _ (Fld.fits_of_le (by decide))]
  rfl

/-! ### Ports (R290) -/

theorem portSts_ne_drop {p : Nat} (hp : p < 4) : ∀ q < 4, Reg.CTL_PORT_STS.key 0 p ≠ Reg.RING_EQ_DROP.key q 0 := fun q hq =>
  Reg.key_ne (by omega) (by decide) (by decide) (by omega) (.inl (by decide))

@[simp] theorem port_setPort_self (s : State) (p : Nat) (x : Port) : (s.setPort p x).port p = x := Tab.get_set_self _ _ _ _

theorem fld_portEvent (s : State) (code payload : Nat) {g : Fld} {p : Nat} (hg : g.reg = .CTL_PORT_STS) (hp : p < 4) :
    (s.portEvent code payload).fld g 0 p = s.fld g 0 p := fld_emit _ (hg ▸ portSts_ne_drop hp)

/-- A port that goes into or out of use (R290). -/
theorem usePort_spec (s : State) {p : Nat} (up : Bool) (hp : p < 4) : let t := s.usePort p up
    t.flag .CTL_PORT_STS_LINK_UP 0 p = up ∧ t.flag .CTL_PORT_STS_QUARANTINE 0 p = s.flag .CTL_PORT_STS_QUARANTINE 0 p ∧ s.sameBut t eventParts := by
  unfold State.usePort
  by_cases hsame : (s.flag .CTL_PORT_STS_LINK_UP 0 p == up) = true
  · rw [if_pos hsame]
    exact ⟨beq_iff_eq.1 hsame, rfl, sameBut_refl _ _⟩
  · rw [if_neg hsame]
    refine ⟨?_, ?_, sameBut_trans (sameBut_setFld _ _ _ _ _ _ (by decide)) (sameBut_trans (sameBut_setFld _ _ _ _ _ _ (by decide))
      (sameBut_emit _ _ _ _ _ _ (List.Subset.refl _)))⟩
    · rw [State.flag, fld_portEvent _ _ _ (by rfl) hp, State.fld_setFld_of_disjoint _ _ _ _ (by rfl) (Fld.fits_of_le (by decide)) (by decide)]
      exact flag_setFld_self _ _ _ _ (Fld.fits_of_le (by decide)) rfl
    · rw [State.flag, fld_portEvent _ _ _ (by rfl) hp, State.fld_setFld_of_disjoint _ _ _ _ (by rfl) (Fld.fits_of_le (by decide)) (by decide),
        State.fld_setFld_of_disjoint _ _ _ _ (by rfl) (Fld.fits_of_le (by decide)) (by decide)]
      rfl

theorem port_of_lane {s t : State} (h : s.lane = t.lane) (p : Nat) : t.port p = s.port p := by
  unfold State.port
  rw [h]

/-- A port's record and its registers after its link has changed. -/
def State.linkChanged (s : State) (p : Nat) (up : Bool) : State :=
  let x := s.port p
  let recent := (x.changes.filter (fun t => decide (s.gauge < t + 3200000000))) ++ [s.gauge]
  let u := (s.setPort p { x with link := up, since := s.gauge, changes := recent, cfg := if up then x.cfg else (s.word .CTL_PORT_CFG 0 p).toNat }).setFld
    .CTL_PORT_STS_FLAPS (min 255 recent.length) 0 p
  if up then u else u.usePort p false

theorem linkChanged_spec (s : State) {p : Nat} (up : Bool) (hp : p < 4) : let t := s.linkChanged p up
    (t.port p).link = up ∧ (t.port p).since = s.gauge ∧ t.flag .CTL_PORT_STS_QUARANTINE 0 p = s.flag .CTL_PORT_STS_QUARANTINE 0 p
      ∧ s.sameBut t (.lane :: eventParts) := by
  let x := s.port p
  let recent := (x.changes.filter (fun t => decide (s.gauge < t + 3200000000))) ++ [s.gauge]
  let y : Port := { x with link := up, since := s.gauge, changes := recent, cfg := if up then x.cfg else (s.word .CTL_PORT_CFG 0 p).toNat }
  let u := (s.setPort p y).setFld .CTL_PORT_STS_FLAPS (min 255 recent.length) 0 p
  have huport : u.port p = y := port_setPort_self s p y
  have huq : u.flag .CTL_PORT_STS_QUARANTINE 0 p = s.flag .CTL_PORT_STS_QUARANTINE 0 p := by
    rw [State.flag, State.fld_setFld_of_disjoint _ _ _ _ (by rfl) (Fld.fits_of_le (by decide)) (by decide)]
    rfl
  have husame : s.sameBut u (.lane :: eventParts) := sameBut_trans (sameBut_lane _ _ _ (by decide)) (sameBut_setFld _ _ _ _ _ _ (by decide))
  have hchanged : s.linkChanged p up = if up then u else u.usePort p false := rfl
  intro t
  rw [show t = _ from hchanged]
  cases up with
  | true => exact ⟨by rw [if_pos rfl, huport], by rw [if_pos rfl, huport], huq, husame⟩
  | false =>
    obtain ⟨-, hq, hsame⟩ := usePort_spec u false hp
    have hport := port_of_lane (hsame .lane (by decide)) p
    rw [if_neg (by decide)]
    exact ⟨by rw [hport, huport], by rw [hport, huport], hq.trans huq, sameBut_trans husame (sameBut_mono hsame (by decide))⟩

/-- A port that FLAP_LIMIT changes have quarantined (R290). -/
def State.quarantined (s : State) (p until' : Nat) : State :=
  (((((s.usePort p false).setPort p { s.port p with until_ := until' }).setFld .CTL_PORT_STS_QUARANTINE 1 0 p).setSts .CTL_STS [8]).portEvent 8 p).portEvent 9 p

theorem quarantined_spec (s : State) {p : Nat} (until' : Nat) (hp : p < 4) : let t := s.quarantined p until'
    (t.port p).link = (s.port p).link ∧ (t.port p).since = (s.port p).since ∧ t.flag .CTL_PORT_STS_QUARANTINE 0 p = true ∧ t.flag .CTL_PORT_STS_LINK_UP 0 p = false
      ∧ t.stsBit .CTL_STS 8 = true ∧ s.sameBut t (.lane :: eventParts) := by
  obtain ⟨hlink, -, hsame⟩ := usePort_spec s false hp
  let x : Port := { s.port p with until_ := until' }
  let u := ((s.usePort p false).setPort p x).setFld .CTL_PORT_STS_QUARANTINE 1 0 p
  have hevents : u.sameBut (s.quarantined p until') eventParts := sameBut_trans (sameBut_sts _ _ _ _ (List.Subset.refl _))
    (sameBut_trans (sameBut_emit _ _ _ _ _ _ (List.Subset.refl _)) (sameBut_emit _ _ _ _ _ _ (List.Subset.refl _)))
  have hport : (s.quarantined p until').port p = x := (port_of_lane (hevents .lane (by decide)) p).trans (port_setPort_self _ _ _)
  have hfld : ∀ g : Fld, g.reg = .CTL_PORT_STS → (s.quarantined p until').fld g 0 p = u.fld g 0 p := fun g hg => by
    have hne : ∀ q < 4, g.reg.key 0 p ≠ Reg.RING_EQ_DROP.key q 0 := hg ▸ portSts_ne_drop hp
    rw [State.quarantined, fld_portEvent _ _ _ hg hp, fld_portEvent _ _ _ hg hp, fld_setSts (g := g) _ hne]
  refine ⟨by rw [hport], by rw [hport], ?_, ?_, stsBit_emit _ (stsBit_emit _ (stsBit_setSts _ (by decide))),
    sameBut_trans (sameBut_mono hsame (by decide)) (sameBut_trans (sameBut_lane _ _ _ (by decide)) (sameBut_trans (sameBut_setFld _ _ _ _ _ _ (by decide))
      (sameBut_mono hevents (by decide))))⟩
  · rw [State.flag, hfld _ rfl]
    exact flag_setFld_self _ true _ _ (Fld.fits_of_le (by decide)) rfl
  · rw [State.flag, hfld _ rfl, State.fld_setFld_of_disjoint _ _ _ _ (by rfl) (Fld.fits_of_le (by decide)) (by decide)]
    exact hlink

theorem exec_linkChange {s : State} {p : Nat} {up : Bool} (hup : s.up = true) (hp : p < 4) (hoff : s.portsOff = false) (hne : (s.port p).link ≠ up) :
    let cfg := if up = true then (s.port p).cfg else (s.word .CTL_PORT_CFG 0 p).toNat
    let t := s.linkChanged p up
    exec (.linkChange p up) s = .next (if bits cfg 4 4 ≠ 0
        ∧ bits cfg 4 4 ≤ (((s.port p).changes.filter (fun t => decide (s.gauge < t + 3200000000))) ++ [s.gauge]).length ∧ !t.flag .CTL_PORT_STS_QUARANTINE 0 p
      then t.quarantined p (t.gauge + bits cfg 16 8 * 320000000) else t) := by
  change execLinkChange p up s = _
  rw [execLinkChange, whenUp_of_up _ hup]
  exact congrArg _ (if_neg (by simp [hne, hoff]; omega))

/-- Settles O40: each of the commands by the branch that the statement names. -/
theorem framesReachTheirSlots : Obligations.FramesReachTheirSlots := by
  intro s hup
  refine ⟨fun port q hdr ws hport hq hhdr hmap hgap => ?_, fun port q hdr ws hport hq hbad => ?_, fun port p hport hpkg => ?_,
    tsUnlock_spec hup, fun q flips w t x' hq hread hw ht => ?_, fun p hp hoff => ⟨fun up hne => ?_, fun hlink hquar hcfg => ?_, fun hquar => ?_⟩⟩
  · have hexec := exec_laneFrameRx hup hport hq hhdr hmap hgap
    dsimp only at hexec
    refine ⟨fun hroom => ?_, fun hfull => ?_⟩
    · rw [if_pos ((admits_iff _ _).2 ⟨by omega, hgap⟩), arrive_of_room _ hgap (by simp only [List.length_cons]; omega)] at hexec
      exact ⟨_, hexec, by rw [queue_setQueue_self], sameBut_queue _ _ _ _ (by decide)⟩
    · rw [if_neg (fun h => absurd ((admits_iff _ _).1 h).1 (by omega)), arrive_of_no_room _ hgap (by simp only [List.length_cons]; omega)] at hexec
      have hlt := portUp_lt hport
      have hne : 4 * port + q ≠ fwQueue := by
        unfold fwQueue
        omega
      have hkey : ∀ r < 4, Reg.CTL_Q_STS.key 0 (4 * port + q) ≠ Reg.RING_EQ_DROP.key r 0 := fun r hr =>
        Reg.key_ne (by omega) (by decide) (by decide) (by omega) (.inl (by decide))
      refine ⟨_, hexec, ?_, ?_, stsBit_setSts _ (by decide), ?_⟩
      · rw [queue_setSts _ _ _ _ _ hne]
        rw [State.queue_bumpSat, State.queue_onLane, queue_setQueue_self]
        rfl
      · rw [queue_setSts _ _ _ _ _ hne]
        rw [State.queue_bumpSat, State.queue_onLane, queue_setQueue_self]
        exact drop_gap_of_no_marker hgap
      · rw [fld_setSts (g := .CTL_Q_STS_GAPS) _ hkey, fld_bumpSat_self _ _ _ _ _ (Fld.fits_of_le (by decide))]
        rfl
  · exact ⟨exec_laneFrameRx_dropped hup hport hq hbad, fld_bumpSat_self s .CTL_PORT_STS_RX_DROP 1 0 port (Fld.fits_of_le (by decide))⟩
  · refine ⟨fun d sync hd => (exec_ptpFrameRx d sync hup hport hpkg).trans (congrArg _ (if_pos hd)), fun hrole => ?_⟩
    have hexec := exec_ptpFrameRx p.domain true hup hport hpkg
    rw [if_neg (by simp), hrole, if_pos (by decide)] at hexec
    refine ⟨_, hexec, ?_, rfl, sameBut_trans (sameBut_foldl _ (fun _ _ => sameBut_setFld _ _ _ _ _ _ (by decide)) _ _)
      (sameBut_trans (sameBut_setFld _ _ _ _ _ _ (by decide)) (sameBut_lane _ _ _ (by decide)))⟩
    rw [State.flag, State.fld_onLane]
    exact flag_setFld_self _ true 0 0 (Fld.fits_of_le (by decide)) rfl
  · let u := s.setQueue q (x'.enterGap q)
    let a := bits (wordData w) 8 8
    have hexec : exec (.ingressRead q flips) s = .next (u.setAxisIn a { u.axisIn a with got := 1, words := t.map (fun e => wordData e.1) }) := by
      change execIngressRead q flips s = _
      rw [execIngressRead, whenUp_of_up _ hup]
      simp only [if_neg (Nat.not_le.2 hq), hread, ht, hw, Bool.or_self, Bool.false_eq_true, ↓reduceIte]
      rfl
    exact ⟨_, hexec, queue_setQueue_self s _ _, sameBut_trans (sameBut_queue _ _ _ _ (by decide)) (sameBut_lane _ _ _ (by decide)), Tab.get_set_self _ _ _ _⟩
  · have hexec := exec_linkChange hup hp hoff hne
    obtain ⟨hlink, hsince, hquar, hsame⟩ := linkChanged_spec s up hp
    dsimp only at hexec
    rw [hquar, List.length_append, List.length_singleton] at hexec
    generalize (if up = true then (s.port p).cfg else (s.word .CTL_PORT_CFG 0 p).toNat) = cfg at hexec ⊢
    obtain ⟨hlink', hsince', hquar', hdown', hsts', hsame'⟩ :=
      quarantined_spec (s.linkChanged p up) ((s.linkChanged p up).gauge + bits cfg 16 8 * 320000000) hp
    by_cases hflap : bits cfg 4 4 ≠ 0 ∧ bits cfg 4 4 ≤ ((s.port p).changes.filter (fun t => decide (s.gauge < t + 3200000000))).length + 1
        ∧ (!s.flag .CTL_PORT_STS_QUARANTINE 0 p) = true
    · rw [if_pos hflap] at hexec
      exact ⟨_, hexec, hlink'.trans hlink, hsince'.trans hsince, sameBut_trans hsame hsame', fun _ _ _ => ⟨hquar', hdown', hsts'⟩⟩
    · rw [if_neg hflap] at hexec
      exact ⟨_, hexec, hlink, hsince, hsame, fun hlim hcount hfree => absurd ⟨hlim, hcount, by simp [hfree]⟩ hflap⟩
  · let u : State := { s with gauge := max s.gauge ((s.port p).since + bits (s.port p).cfg 8 8 * 320000) }
    obtain ⟨hused, -, hsame⟩ := usePort_spec u true hp
    refine ⟨u.usePort p true, ?_, hused, (hsame .gauge (by decide)).symm, sameBut_trans (sameBut_gauge _ _ _ (by decide)) (sameBut_mono hsame (by decide))⟩
    change execUpHoldExpiry p s = _
    rw [execUpHoldExpiry, whenUp_of_up _ hup]
    exact congrArg _ (if_neg (by simp [hlink, hquar, hcfg]; omega))
  · let g := max s.gauge (s.port p).until_
    let u := ({ s with gauge := g } : State).setPort p { s.port p with since := g, changes := [] }
    refine ⟨u.setFld .CTL_PORT_STS_QUARANTINE 0 0 p, ?_, flag_setFld_self _ false _ _ (Fld.fits_of_le (by decide)) rfl, rfl,
      congrArg Port.changes (port_setPort_self ({ s with gauge := g } : State) p _),
      sameBut_trans (sameBut_gauge _ _ _ (by decide)) (sameBut_trans (sameBut_lane _ _ _ (by decide)) (sameBut_setFld _ _ _ _ _ _ (by decide)))⟩
    change execQuarantineEnd p s = _
    rw [execQuarantineEnd, whenUp_of_up _ hup]
    exact congrArg _ (if_neg (by simp [hquar]; omega))

end Sys2Proof.Machine

/-! SUPPORT. The video engine: frames in turn, parts on cores, the kill of a stream (R300, R301, R305, R306, R314). -/

namespace Sys2Proof.Machine

/-! ### Streams -/

@[simp] theorem strm_setStrm_self (s : State) (k : Nat) (x : VidStrm) : (s.setStrm k x).strm k = x := Tab.get_set_self _ _ _ _

theorem strm_of_vid {s t : State} (h : s.vid = t.vid) (k : Nat) : t.strm k = s.strm k := by
  unfold State.strm
  rw [h]

theorem sameBut_setStrm (s : State) (k : Nat) (x : VidStrm) {ps : List Part} (h : Part.vid ∈ ps) : s.sameBut (s.setStrm k x) ps := sameBut_onVid s _ h

theorem strm_vidDone (s : State) (k ring uid status result q : Nat) : (s.vidDone k ring uid status result).strm q = s.strm q :=
  strm_of_vid (sameBut_finish _ _ _ _ _ .vid (by decide)) q

theorem sameBut_vidShow (s : State) {ps : List Part} (h : Part.regs ∈ ps) : s.sameBut s.vidShow ps := by
  unfold State.vidShow
  exact sameBut_trans (sameBut_setFld _ _ _ _ _ _ h) (sameBut_trans (sameBut_setFld _ _ _ _ _ _ h) (sameBut_trans
    (sameBut_foldl _ (fun _ _ => sameBut_setFld _ _ _ _ _ _ h) _ _) (sameBut_trans (sameBut_setFld _ _ _ _ _ _ h) (sameBut_setFld _ _ _ _ _ _ h))))

theorem vid_vidShow (s : State) : s.vidShow.vid = s.vid := (sameBut_vidShow s (ps := [.regs]) (by decide) .vid (by decide)).symm

theorem vidKey_div {r m : Nat} (h : m < 256) : vidKey r m / 256 = r := by
  unfold vidKey
  omega

theorem vidKey_mod {r m : Nat} (h : m < 256) : vidKey r m % 256 = m := by
  unfold vidKey
  omega

/-! ### A frame's turn (R300, R301) -/

/-- The entry of a started frame in its stream. -/
def Desc.vidEntry (d : Desc) (n parts : Nat) : VidEntry := { ring := n, uid := d.uid, no := d.num 0x0C 4, parts := parts }

/-- A frame waits for no earlier frame of its stream once each of them has acted. -/
theorem vidWaits_of_acted {s : State} {k : Nat} {e : VidEntry}
    (h : ∀ d ∈ (s.ring (k / 256) e.ring).descs, d.ty = 0x0A → d.num 8 2 = k % 256 → d.uid < e.uid → d.acted = true) : s.vidWaits k e = false := by
  unfold State.vidWaits
  rw [List.any_eq_false]
  intro d hd hwait
  simp only [Bool.and_eq_true, beq_iff_eq, decide_eq_true_eq, Bool.not_eq_true'] at hwait
  obtain ⟨⟨⟨⟨hty, hnum⟩, hlt⟩, hacted⟩, -⟩ := hwait
  exact Bool.false_ne_true (hacted.symm.trans (h d hd hty hnum hlt))

/-- Acting on a descriptor makes no frame wait. -/
theorem acted_of_acted {s : State} {r n : Nat} {d : Desc} {m : Nat}
    (h : ∀ e ∈ (s.ring r n).descs, e.ty = 0x0A → e.num 8 2 = m → e.uid < d.uid → e.acted = true) :
    ∀ e ∈ ((s.acted r n d).ring r n).descs, e.ty = 0x0A → e.num 8 2 = m → e.uid < d.uid → e.acted = true := by
  intro e he
  rw [State.acted, ring_updDesc_self] at he
  obtain ⟨x, hx, rfl⟩ := List.mem_map.1 he
  split
  · intros; rfl
  · exact h x hx

/-- What the descriptor of a frame whose turn has come does (R300, R301). -/
def State.vidActs (s : State) (k : Nat) (e : VidEntry) (x : VidStrm) (d : Desc) : State :=
  if e.no = 0xFFFFFFFF ∧ d.num 0x18 4 = 0 then s.vidClose k e (d.num 0x20 8)
  else if e.no = 0 then
    let o := s.openStrm (k / 256) k d
    if o.1 = stOk then o.2.vidTake k e d else o.2.vidDone k e.ring e.uid o.1 0
  else if x.st ≠ VidSt.opened then s.vidDone k e.ring e.uid stVidState 0
  else if e.no ≠ x.nextNo ∨ e.no = 0xFFFFFFFF then s.vidDone k e.ring e.uid stVidOrder 0
  else s.vidTake k e d

/-- The one frame of a stream that runs none takes its turn (R300). -/
theorem vidTurn_one {s : State} {k : Nat} {e : VidEntry} {x : VidStrm} {d : Desc} (hx : s.strm k = { x with queue := [e] }) (hcur : x.cur = none)
    (hwaits : s.vidWaits k e = false) (hd : s.descUid (k / 256) e.ring e.uid = some d) (hcan : e.cancelled = false) :
    s.vidTurn k 1 = (s.setStrm k { x with queue := [] }).vidActs k e x d := by
  have hd' : (s.setStrm k { x with queue := [] }).descUid (k / 256) e.ring e.uid = some d := hd
  have hnone : x.cur.isSome = false := by rw [hcur]; rfl
  simp only [State.vidTurn, hx, hnone, hwaits, hd', hcan, Bool.or_self, Bool.false_eq_true, ↓reduceIte]
  rfl

/-- VIDEO_FRAME of a started frame whose stream holds no other entry (R300, R314). -/
theorem exec_videoFrame {r n i : Nat} (parts : Nat) {s : State} {d : Desc} {x : VidStrm} (hready : s.ready = true) (hgate : s.gated gVideo = false)
    (hstart : s.starting r n i 0x0A = some d) (hm : d.num 8 2 < 256)
    (hacted : ∀ e ∈ (s.ring r n).descs, e.ty = 0x0A → e.num 8 2 = d.num 8 2 → e.uid < d.uid → e.acted = true)
    (hx : s.strm (vidKey r (d.num 8 2)) = x) (hqueue : x.queue = []) : let k := vidKey r (d.num 8 2)
    exec (.videoFrame r n i parts) s = .next (((s.acted r n d).setStrm k { x with queue := [d.vidEntry n parts] }).vidTurn k 1) := by
  intro k
  have hwaits : s.vidWaits k (d.vidEntry n parts) = false := vidWaits_of_acted (by rw [vidKey_div hm, vidKey_mod hm]; exact hacted)
  have hroom : decide (8 ≤ (s.strm k).queue.length + b2n (s.strm k).cur.isSome) = false := by
    rw [show s.strm k = x from hx, hqueue]
    cases x.cur <;> rfl
  have hput : (s.acted r n d).vidPut k (d.vidEntry n parts) = ((s.acted r n d).setStrm k { x with queue := [d.vidEntry n parts] }).vidTurn k 1 := by
    have hstrm : (s.acted r n d).strm k = x := hx
    simp only [State.vidPut, hstrm, hqueue, insertEntry, strm_setStrm_self, List.length_singleton]
  rw [← hput]
  change execVideoFrame r n i parts s = _
  rw [execVideoFrame, whenReady_of_ready _ hready]
  simp only [hstart]
  exact congrArg _ (if_neg (by
    rw [hgate, Bool.false_or, Bool.or_eq_true]
    exact not_or.2 ⟨by rw [Bool.not_eq_true]; exact hwaits, by rw [Bool.not_eq_true]; exact hroom⟩))

/-- A frame whose stream runs none acts by its descriptor (R300, R301). -/
theorem exec_videoFrame_turn {r n i : Nat} (parts : Nat) {s : State} {d : Desc} {x : VidStrm} (hready : s.ready = true) (hgate : s.gated gVideo = false)
    (hstart : s.starting r n i 0x0A = some d) (hm : d.num 8 2 < 256) (hrec : s.recordable r n d)
    (hacted : ∀ e ∈ (s.ring r n).descs, e.ty = 0x0A → e.num 8 2 = d.num 8 2 → e.uid < d.uid → e.acted = true)
    (hx : s.strm (vidKey r (d.num 8 2)) = x) (hqueue : x.queue = []) (hcur : x.cur = none) : let k := vidKey r (d.num 8 2)
    let a := s.acted r n d
    ∃ u : State, u.strm k = x ∧ a.sameBut u [.vid] ∧ exec (.videoFrame r n i parts) s = .next (u.vidActs k (d.vidEntry n parts) x { d with acted := true }) := by
  intro k a
  obtain ⟨hd, -⟩ := hrec
  let u := a.setStrm k { x with queue := [d.vidEntry n parts] }
  have hempty : ({ x with queue := [] } : VidStrm) = x := by rw [← hqueue]
  have hdesc : u.descUid (k / 256) n d.uid = some { d with acted := true } := by
    rw [vidKey_div hm]
    exact (descUid_updDesc_self s r n d.uid (fun d => { d with acted := true }) (fun _ => rfl)).trans (by rw [hd]; rfl)
  have hwaits : u.vidWaits k (d.vidEntry n parts) = false := vidWaits_of_acted (by rw [vidKey_div hm, vidKey_mod hm]; exact acted_of_acted hacted)
  refine ⟨u.setStrm k x, strm_setStrm_self _ _ _, sameBut_trans (sameBut_setStrm _ _ _ (by decide)) (sameBut_setStrm _ _ _ (by decide)), ?_⟩
  rw [exec_videoFrame parts hready hgate hstart hm hacted hx hqueue, vidTurn_one (strm_setStrm_self _ _ _) hcur hwaits hdesc rfl, hempty]

/-- A frame that ends at its turn: its record is written and its stream is as it was. -/
theorem vidDone_spec {s u : State} {r n k : Nat} {d : Desc} {x : VidStrm} (st : Nat) (hrec : s.recordable r n d) (hk : k / 256 = r) (hu : u.strm k = x)
    (hsame : (s.acted r n d).sameBut u [.vid]) : let t := u.vidDone k n d.uid st 0
    s.completed t r n d st ∧ t.strm k = x ∧ s.sameBut t (.vid :: recordParts) := by
  subst hk
  refine ⟨completed_acted s (finish_after (d := { d with acted := true }) _ (recordable_acted s hrec) (hsame .rings (by decide)) (hsame .flt (by decide)) fun g _ => ?_),
    (strm_vidDone _ _ _ _ _ _ _).trans hu,
    sameBut_trans (sameBut_descs s _ n d.uid _ (by decide)) (sameBut_trans (sameBut_mono hsame (by decide)) (sameBut_mono (sameBut_finish _ _ _ _ _) (by decide)))⟩
  rw [State.word, State.word, ← hsame .regs (by decide)]
  rfl

@[simp] theorem mark_setMark_self (x : VidStrm) (b m : Nat) : (x.setMark b m).mark b = m := Tab.get_set_self _ _ _ _

/-- The run of a frame that a stream takes into a buffer. -/
def VidEntry.toRun (e : VidEntry) (x : VidStrm) (b now : Nat) : VidRun :=
  { ring := e.ring, uid := e.uid, no := e.no, parts := x.params.parts e.parts, waiting := List.range (x.params.parts e.parts), readyAt := now, buffer := b,
    n := x.n + 1 }

/-- A frame that a stream takes: it is the stream's frame, in the lowest-numbered free buffer (R300, R306, R314). -/
theorem vidTake_spec {u : State} {k b : Nat} {e : VidEntry} {x : VidStrm} {d : Desc} (hu : u.strm k = x) (hno : e.no ≠ 0) (hop : d.byte 0x0A = x.params.op)
    (hcls : d.byte 0x0B = x.cls) (hstats : x.params.statsEn = false) (hfits : x.params.op = 0 → x.params.pictureBytes ≤ d.num 0x28 4) (hbuf : x.freeBuf = some b) :
    let t := u.vidTake k e d
    u.sameBut t [.vid] ∧ (t.strm k).cur = some (e.toRun x b u.gauge) ∧ (t.strm k).mark b = 8 ∧ (t.strm k).lastNo = e.no := by
  let y : VidStrm := { x with lastNo := e.no, n := x.n + 1 }
  have hy : y.freeBuf = some b := hbuf
  have htake : u.vidTake k e d = (u.setStrm k y).setStrm k { y.setMark b 8 with cur := some (e.toRun x b u.gauge) } := by
    unfold State.vidTake
    simp only [hu, if_neg hno]
    rw [if_neg (by simp [hop, hcls]), if_neg (by simp [hstats]), if_neg (fun h => absurd (hfits h.1) (Nat.not_le.2 h.2))]
    change (match y.freeBuf with | none => _ | some b => _) = _
    rw [hy]
    rfl
  intro t
  rw [show t = _ from htake]
  refine ⟨sameBut_trans (sameBut_setStrm _ _ _ (by decide)) (sameBut_setStrm _ _ _ (by decide)), ?_⟩
  rw [strm_setStrm_self]
  exact ⟨rfl, mark_setMark_self y b 8, rfl⟩

/-! ### Parts on cores (R305, R314) -/

/-- PART_DISPATCH of a core that may take a part (R305). -/
theorem partDispatch_spec {core k p : Nat} {s : State} {x : VidStrm} {c : VidRun} (hready : s.ready = true) (hheld : s.workHeld = false) (hopen : s.coreOpen core = true)
    (hen : s.flag .VID_CTRL_ENABLE = true) (hgate : s.gated gVideo = false) (hfree : Tab.find core s.vid.cores = none)
    (hfirst : firstPart (s.readyParts core) = some (k, x)) (hcur : x.cur = some c) (hpart : c.waiting.find? (fun q => !c.rerun.contains (q, core)) = some p) :
    ∃ t, exec (.partDispatch core) s = .next t ∧ Tab.find core t.vid.cores = some (k, c.uid, p)
      ∧ (t.strm k).cur = some { c with waiting := c.waiting.erase p, running := c.running ++ [p], cores := insertKey core c.cores } ∧ s.sameBut t [.regs, .vid] := by
  let c' : VidRun := { c with waiting := c.waiting.erase p, running := c.running ++ [p], cores := insertKey core c.cores }
  let u := (s.setStrm k { x with cur := some c' }).onVid (fun v =>
    { v with cores := Tab.put core (k, c.uid, p) v.cores, lastClass := Tab.set (fun _ => 0) core x.cls v.lastClass })
  let past := x.cls == 0 && decide (2 ≤ Tab.get (fun _ => 0) s.vid.lastClass core) && (s.readyParts core).any (fun e => decide (2 ≤ e.2.cls))
  let w := if past then u.bumpWrap .VID_PERF_PREEMPT_COUNT 1 else u
  have hw : u.sameBut w [.regs] := by
    simp only [w]
    split
    · exact sameBut_setFld _ _ _ _ _ _ (by decide)
    · exact sameBut_refl _ _
  have hvid : w.vidShow.vid = u.vid := (vid_vidShow w).trans (hw .vid (by decide)).symm
  refine ⟨w.vidShow, ?_, ?_, ?_, ?_⟩
  · change execPartDispatch core s = _
    rw [execPartDispatch, whenRunning_of_ready _ hready hheld]
    simp only [hopen, hen, hgate, hfree, hfirst, hcur, hpart, Option.isNone_none, Bool.not_false, Bool.and_self, Bool.not_true, Bool.false_eq_true, ↓reduceIte]
    rfl
  · rw [hvid]
    exact Tab.find_put_self _ _ _
  · rw [strm_of_vid hvid.symm]
    exact congrArg VidStrm.cur (strm_setStrm_self s k _)
  · exact sameBut_trans (sameBut_setStrm _ _ _ (by decide)) (sameBut_trans (sameBut_onVid _ _ (by decide))
      (sameBut_trans (sameBut_mono hw (by decide)) (sameBut_vidShow _ (by decide))))

/-- The core of a part that ends is free. -/
def State.coreFreed (s : State) (core : Nat) (o : VidOut) : State :=
  (s.onVid (fun v => { v with cores := Tab.del core v.cores })).bumpWrap .VID_PERF_BUSY_COUNT o.cycles

/-- PART_DONE of a part that meets no error, of a frame that is not killed (R305, R314). -/
theorem exec_partDone {core k uid p : Nat} {o : VidOut} {s : State} {c : VidRun} (hup : s.up = true) (hcore : Tab.find core s.vid.cores = some (k, uid, p))
    (hcur : (s.strm k).cur = some c) (huid : c.uid = uid) (hrun : c.running.contains p = true) (hce : o.ce = false) (hue : o.ue = false) (hkill : c.killed = false) :
    let u := s.coreFreed core o
    let c' : VidRun := { c with running := c.running.erase p, ended := c.ended + 1 }
    exec (.partDone core o) s = .next (if c.ended + 1 < c.parts then u.setStrm k { s.strm k with cur := some c' }
      else match s.descUid (k / 256) c.ring c.uid with
        | none => (u.setStrm k ({ s.strm k with cur := none }.setMark c.buffer 0)).vidAfter k
        | some d => (if (s.strm k).params.op = 1 then u.encodeEnd k (s.strm k) c' d o else u.decodeEnd k (s.strm k) c' d o).vidAfter k).vidShow := by
  subst huid
  intro u c'
  have hstrm : ((s.onVid (fun v => { v with cores := Tab.del core v.cores })).bumpWrap .VID_PERF_BUSY_COUNT o.cycles).strm k = s.strm k := rfl
  change execPartDone core o s = _
  rw [execPartDone, whenUp_of_up _ hup]
  simp only [hcore, hce, hue, hstrm, hcur, Option.filter_some, BEq.rfl, hrun, Bool.and_self, Bool.false_eq_true, ↓reduceIte]
  rw [if_neg (by simp [hkill])]
  rfl

/-! ### STRM_KILL (R301) -/

/-- A stream that is OPEN enters ERROR. -/
theorem vidError_spec {s : State} {k : Nat} (status no : Nat) (h : (s.strm k).st = .opened) : ((s.vidError k status no).strm k).st = .error
    ∧ (s.vidError k status no).stsBit .VID_STS 0 = true := by
  have herr : s.vidError k status no = ((s.setStrm k { s.strm k with st := .error, cur := none }).setSts .VID_STS [0]).vidEvent 1 k (status % 256 + no % 2 ^ 32 * 2 ^ 8) := by
    unfold State.vidError
    exact if_neg (by simp [h])
  rw [herr]
  refine ⟨?_, stsBit_emit _ (stsBit_setSts _ (by decide))⟩
  have hvid := (sameBut_trans (sameBut_sts (s := s.setStrm k { s.strm k with st := .error, cur := none }) .VID_STS [0] 0 eventParts (List.Subset.refl _))
    (sameBut_emit 12 0x50 1 (k / 256) (k % 256 + (status % 256 + no % 2 ^ 32 * 2 ^ 8) * 2 ^ 8) eventParts (List.Subset.refl _))) .vid (by decide)
  exact (congrArg VidStrm.st (strm_of_vid hvid k)).trans (congrArg VidStrm.st (strm_setStrm_self s k _))

/-- Settles O41: a frame's turn by the branches of `vidActs`, and a part's dispatch, its end and the kill by theirs. -/
theorem framesRunOneAtATime : Obligations.FramesRunOneAtATime := by
  refine ⟨fun r n i parts s d x hr hn hready hgate hstart hm hrec hacted hx hqueue => ⟨fun hcur => ?_, fun hcur => ?_⟩,
    fun core k p s x c => partDispatch_spec, fun core k uid p o s c hup hcore hcur huid hrun hce hue hkill => ⟨fun hmore => ?_, fun d hlast hd => ?_⟩,
    fun s k hopen hk => ⟨fun hcur hqueue hst => ?_, fun c hcur hrun => ?_⟩⟩
  · have hexec := exec_videoFrame parts hready hgate hstart hm hacted hx hqueue
    refine ⟨(s.acted r n d).setStrm (vidKey r (d.num 8 2)) { x with queue := [d.vidEntry n parts] }, hexec.trans (congrArg _ ?_), strm_setStrm_self _ _ _,
      sameBut_trans (sameBut_descs s r n d.uid _ (by decide)) (sameBut_setStrm _ _ _ (by decide))⟩
    simp only [State.vidTurn, strm_setStrm_self, Option.isSome_iff_ne_none.2 hcur, Bool.true_or, ↓reduceIte]
  · obtain ⟨u, hu, hsame, hexec⟩ := exec_videoFrame_turn parts hready hgate hstart hm hrec hacted hx hqueue hcur
    have hk : vidKey r (d.num 8 2) / 256 = r := vidKey_div hm
    refine ⟨fun h0 hF hst => ?_, fun h0 hF hst hno => ?_, fun hF hclose hst => ?_, fun b h0 hF hst hno hop hcls hstats hfits hbuf => ?_⟩
    · refine ⟨_, hexec.trans (congrArg _ ?_), vidDone_spec stVidState hrec hk hu hsame⟩
      exact (if_neg fun h => hF h.1).trans ((if_neg h0).trans (if_pos hst))
    · refine ⟨_, hexec.trans (congrArg _ ?_), vidDone_spec stVidOrder hrec hk hu hsame⟩
      exact (if_neg fun h => hF h.1).trans ((if_neg h0).trans ((if_neg (not_not_intro hst)).trans (if_pos (.inl hno))))
    · refine ⟨_, hexec.trans (congrArg _ ?_), vidDone_spec stOk hrec hk hu hsame⟩
      refine (if_pos ⟨hF, hclose⟩).trans ?_
      unfold State.vidClose
      simp only [hu, hst]
      rfl
    · obtain ⟨htake, hrun, hmark, hlast⟩ := vidTake_spec (e := d.vidEntry n parts) (d := { d with acted := true }) hu h0 hop hcls hstats hfits hbuf
      have hgauge : u.gauge = s.gauge := (hsame .gauge (by decide)).symm
      rw [hgauge] at hrun
      refine ⟨_, hexec.trans (congrArg _ ?_), sameBut_trans (sameBut_descs s r n d.uid _ (by decide))
        (sameBut_trans (sameBut_mono hsame (by decide)) (sameBut_mono htake (by decide))), hrun, hmark, hlast⟩
      exact (if_neg fun h => hF h.1).trans ((if_neg h0).trans ((if_neg (not_not_intro hst)).trans (if_neg (not_or.2 ⟨not_not_intro hno, hF⟩))))
  · have hexec := exec_partDone hup hcore hcur huid hrun hce hue hkill
    dsimp only at hexec
    rw [if_pos hmore] at hexec
    refine ⟨_, hexec, ?_, ?_, ?_⟩
    · rw [strm_of_vid (vid_vidShow _).symm, strm_setStrm_self]
    · rw [vid_vidShow]
      exact Tab.find_del_self _ _
    · exact sameBut_trans (sameBut_onVid _ _ (by decide)) (sameBut_trans (sameBut_setFld _ _ _ _ _ _ (by decide))
        (sameBut_trans (sameBut_setStrm _ _ _ (by decide)) (sameBut_vidShow _ (by decide))))
  · have hexec := exec_partDone hup hcore hcur huid hrun hce hue hkill
    dsimp only at hexec
    rw [if_neg (Nat.not_lt.2 hlast), hd] at hexec
    exact ⟨s.coreFreed core o, rfl, Tab.find_del_self _ _, sameBut_trans (sameBut_onVid _ _ (by decide)) (sameBut_setFld _ _ _ _ _ _ (by decide)), hexec⟩
  · obtain ⟨herr, hsts⟩ := vidError_spec stVidState (s.strm k).lastNo hst
    refine ⟨_, (fw_open s .VID_CMD 0 2 State.strmKill hopen).trans (congrArg _ ?_), herr, hsts⟩
    unfold State.strmKill
    rw [← hk]
    simp only [hcur, hqueue, List.length_nil, State.vidTurn]
  · refine ⟨_, (fw_open s .VID_CMD 0 2 State.strmKill hopen).trans (congrArg _ ?_), ?_, sameBut_setStrm s k { s.strm k with cur := some { c with killed := true } } (by decide)⟩
    · unfold State.strmKill
      rw [← hk]
      simp only [hcur]
      exact if_neg (by simpa using hrun)
    · rw [strm_setStrm_self]

end Sys2Proof.Machine

/-! SUPPORT. Halting tiles, scrubbing them, and the registers written on every physical unit at once (R47, R48, R51, R54, R121). -/

namespace Sys2Proof.Machine

/-- A register written in every unit below `n` holds the value in each of them, and no other register has changed. -/
theorem foldl_setWord (r : Reg) (v : BitVec 32) (n : Nat) (hn : n ≤ 1024) (s : State) : let t := (List.range n).foldl (fun s q => s.setWord r q 0 v) s
    (∀ q < n, t.word r q = v) ∧ s.sameBut t [.regs] ∧ s.regsBut t ((List.range n).map (fun q => r.key q 0)) := by
  refine ⟨?_, sameBut_foldl _ (fun _ _ => sameBut_setWord _ _ _ _ _ _ (by decide)) _ _, ?_⟩
  · induction n with
    | zero => exact fun q hq => absurd hq (Nat.not_lt_zero q)
    | succ n ih =>
      intro q hq
      rw [List.range_succ, List.foldl_append]
      by_cases hqn : q = n
      · rw [hqn]
        exact State.word_setWord_self _ _ _ _ _
      · exact (State.word_setWord_of_ne _ _ (Reg.key_ne (by omega) (by omega) (by decide) (by decide) (.inr (.inl hqn)))).trans (ih (by omega) q (by omega))
  · induction n with
    | zero => exact regsBut_refl _ _
    | succ n ih =>
      rw [List.range_succ, List.foldl_append]
      refine regsBut_trans (fun k hk => ih (by omega) k fun h => hk ?_) (regsBut_setWord _ _ _ _ _ _ ?_)
      · rw [List.map_append]
        exact List.mem_append_left _ h
      · exact List.mem_map_of_mem (List.mem_append_right _ (List.mem_singleton_self n))

/-! ### HALT (R51) -/

theorem exec_halt {s : State} {p : Nat} (on : Bool) (hp : p < 153) (hopen : s.openTo 6 p = true) : exec (.halt .fw p on) s = .next (s.haltWrite p on) :=
  (fw_open s .TIL_CTRL p ((s.setFld .TIL_CTRL_HALT (b2n on) p).word .TIL_CTRL p).toNat (fun s => if p < 153 then s.haltWrite p on else s) hopen).trans
    (congrArg _ (if_pos hp))

theorem halt_setFld (s : State) (p : Nat) (on : Bool) : (s.setFld .TIL_CTRL_HALT (b2n on) p).fld .TIL_CTRL_HALT p = b2n on :=
  fld_setFld_lt _ _ _ _ _ (Fld.fits_of_le (by decide)) (by cases on <;> decide)

theorem haltWrite_of_idle {s : State} {p : Nat} (h : (s.tile p).st = .idle) :
    s.haltWrite p true = (s.setFld .TIL_CTRL_HALT (b2n true) p).setTile p { s.tile p with st := .halted } := by
  have htile : (s.setFld .TIL_CTRL_HALT (b2n true) p).tile p = s.tile p := rfl
  unfold State.haltWrite
  simp only [htile, h]

theorem haltWrite_of_halted {s : State} {p : Nat} (h : (s.tile p).st = .halted) :
    s.haltWrite p false = (s.setFld .TIL_CTRL_HALT (b2n false) p).setTile p { s.tile p with st := .idle } := by
  have htile : (s.setFld .TIL_CTRL_HALT (b2n false) p).tile p = s.tile p := rfl
  unfold State.haltWrite
  simp only [htile, h]

theorem haltWrite_of_running {s : State} {p : Nat} (on : Bool) (h : (s.tile p).st = .running) : s.haltWrite p on = s.setFld .TIL_CTRL_HALT (b2n on) p := by
  have htile : (s.setFld .TIL_CTRL_HALT (b2n on) p).tile p = s.tile p := rfl
  unfold State.haltWrite
  simp only [htile, h]

/-! ### Scrubbing (R47, R48) -/

theorem exec_scrubNow {s : State} {p : Nat} (hp : p < 153) (hopen : s.openTo 6 p = true) : exec (.scrubNow .fw p) s = .next (s.scrubStart p) := by
  obtain ⟨hup, hgate⟩ := openTo_iff.1 hopen
  change execScrubNow .fw p s = _
  unfold execScrubNow State.tileCommand
  rw [hup, hgate]
  exact congrArg _ (if_neg (by simp [hp]))

theorem scrubStart_spec (s : State) (p : Nat) : ((s.scrubStart p).tile p).scrubbing = true ∧ s.sameBut (s.scrubStart p) [.tiles] := by
  unfold State.scrubStart
  by_cases h : (s.tile p).scrubbing = true
  · rw [if_pos h]
    exact ⟨h, sameBut_refl _ _⟩
  · rw [if_neg h]
    exact ⟨congrArg Tile.scrubbing (tile_setTile_self _ _ _), sameBut_setTile _ _ _ (by decide)⟩

/-- A pass that finds no error only ends. -/
theorem exec_scrubPass_clean {s : State} {p : Nat} (hp : p < 153) (hup : s.up = true) (hen : s.flag .TIL_CTRL_SCRUB_EN p = true) (hgate : s.tileGated p = false) :
    exec (.scrubPass p [] []) s = .next (s.setTile p { s.tile p with scrubbing := false, colCe := [] }) := by
  change execScrubPass p [] [] s = _
  rw [execScrubPass, whenUp_of_up _ hup]
  exact congrArg _ (if_neg (by simp [hen, hgate, hp]))

/-- Settles O21: a write of HALT by the tile's state, a scrub pass by its branches, and the writes of every unit by `foldl_setWord`. -/
theorem tilesHaltScrubAndConvert : Obligations.TilesHaltScrubAndConvert := by
  intro p v s hp
  refine ⟨fun hopen => ⟨fun hst => ?_, fun hst => ?_, fun on hst => ?_, ⟨_, exec_scrubNow hp hopen, scrubStart_spec s p⟩, ?_⟩, fun hopen => ?_, fun hup hen hgate => ?_,
    fun hup hrew => ?_⟩
  · exact ⟨_, (exec_halt true hp hopen).trans (congrArg _ (haltWrite_of_idle hst)), congrArg Tile.st (tile_setTile_self _ _ _), halt_setFld s p true,
      sameBut_trans (sameBut_setFld _ _ _ _ _ _ (by decide)) (sameBut_setTile _ _ _ (by decide))⟩
  · exact ⟨_, (exec_halt false hp hopen).trans (congrArg _ (haltWrite_of_halted hst)), congrArg Tile.st (tile_setTile_self _ _ _), halt_setFld s p false,
      sameBut_trans (sameBut_setFld _ _ _ _ _ _ (by decide)) (sameBut_setTile _ _ _ (by decide))⟩
  · exact ⟨_, (exec_halt on hp hopen).trans (congrArg _ (haltWrite_of_running on hst)), rfl, halt_setFld s p on, sameBut_setFld _ _ _ _ _ _ (by decide)⟩
  · exact ⟨_, fw_open s .TIL_CVT p v (fun s => s.tilCvtAll v) hopen, foldl_setWord .TIL_CVT (BitVec.ofNat 32 (v % 4)) 153 (by decide) s⟩
  · exact ⟨_, fw_open s .CLU_CTRL (p / 17) v (fun s => s.cluCtrlAll v) hopen, foldl_setWord .CLU_CTRL (BitVec.ofNat 32 (v % 8)) 9 (by decide) s⟩
  · exact ⟨_, exec_scrubPass_clean hp hup hen hgate, tile_setTile_self _ _ _, sameBut_setTile _ _ _ (by decide)⟩
  · let u := s.setTile p { s.tile p with rewrite := none }
    have htile : (u.setSts .TIL_STS [6] p).tile p = u.tile p := by
      unfold State.tile
      rw [(sameBut_sts (s := u) .TIL_STS [6] p eventParts (List.Subset.refl _) .tiles (by decide)).symm]
    refine ⟨_, (whenUp_of_up _ hup).trans (congrArg _ (if_pos hrew)), ?_, stsBit_setSts _ (by decide),
      sameBut_trans (sameBut_setTile _ _ _ (by decide)) (sameBut_sts _ _ _ _ (by decide))⟩
    exact congrArg Tile.rewrite (htile.trans (tile_setTile_self _ _ _))

end Sys2Proof.Machine

/-! SUPPORT. The root of trust: command blocks and their results (R388-R394, R409, R412). -/

namespace Sys2Proof.Machine

/-! ### From the command to its block (R388, R389) -/

/-- The first failed check of a block, in the order in which the root of trust makes them (R389). -/
def State.rotCode (u : State) (old : Nat) (b : List Nat) : Nat :=
  if blockFormatOk b = false then cmdBadFormat
  else if fieldOf b 8 8 ≠ old ∨ fieldOf b 16 8 ≠ u.serial then cmdBadNonce
  else if u.secSigned b = false then cmdBadSig
  else u.secRefuse (blockOp b) (blockArgs b)

/-- A page that firmware and the management window write directly. -/
theorem direct_open {s : State} {b : Nat} {w : Win} (f : State → State) (hw : ∀ r, w ≠ .realm r) (hup : s.pageUp b = true) : s.direct b w f = f s := by
  unfold State.direct
  rw [hup]
  cases w with
  | realm r => exact absurd rfl (hw r)
  | fw => rfl
  | mgmt => rfl

/-- A row of the command table, through firmware or the management window. -/
theorem exec_rot {c : Win → Bool → Instr} {op : Nat} (hc : (c, op) ∈ rotCommands) {w : Win} (hw : ∀ r, w ≠ .realm r) {s : State} (hup : s.pageUp 13 = true)
    (hbusy : s.flag .SEC_STATE_CMD_BUSY = false) (err : Bool) (hop : blockOp s.secBlock = op) :
    exec (c w err) s = .next (if err then s.secResult (s.fld .SEC_CMD_STS_OP) cmdReadErr else s.secRun s.secBlock) := by
  have hrow : exec (c w err) s = s.secRow w op err := by
    simp only [rotCommands, List.mem_cons, Prod.mk.injEq, List.not_mem_nil, or_false] at hc
    rcases hc with ⟨rfl, rfl⟩ | ⟨rfl, rfl⟩ | ⟨rfl, rfl⟩ | ⟨rfl, rfl⟩ | ⟨rfl, rfl⟩ | ⟨rfl, rfl⟩ | ⟨rfl, rfl⟩ | ⟨rfl, rfl⟩ <;> rfl
  rw [hrow, State.secRow, direct_open _ hw hup, if_pos (by simp [hop]), State.secGo, hbusy]
  exact congrArg _ (if_neg (by decide))

/-- A block is refused with its first failed check, or carried out (R388, R389). -/
theorem secRun_eq (s : State) (b : List Nat) : let u := s.newNonce.setFld .SEC_CMD_STS_OP (blockOp b)
    s.secRun b = if u.rotCode s.nonce b = cmdOk then u.secAct (blockOp b) (blockArgs b) else u.secResult (blockOp b) (u.rotCode s.nonce b) := by
  intro u
  unfold State.secRun State.rotCode
  dsimp only
  change (if (!blockFormatOk b) = true then _ else if _ ∨ fieldOf b 16 8 ≠ u.serial then _ else if (!u.secSigned b) = true then _ else _) = _
  by_cases hfmt : blockFormatOk b = true
  · rw [hfmt]
    by_cases hnonce : fieldOf b 8 8 ≠ s.nonce ∨ fieldOf b 16 8 ≠ u.serial
    · rw [if_neg (by decide), if_pos hnonce, if_neg (by decide : ¬ true = false), if_pos hnonce, if_neg (by decide)]
    · rw [if_neg (by decide), if_neg hnonce, if_neg (by decide : ¬ true = false), if_neg hnonce]
      cases u.secSigned b with
      | false => rw [if_pos (by decide), if_pos rfl, if_neg (by decide)]
      | true =>
        rw [if_neg (by decide), if_neg (by decide : ¬ true = false)]
        exact ite_not _ _ _
  · rw [Bool.not_eq_true] at hfmt
    rw [hfmt, if_pos (by decide), if_pos rfl, if_neg (by decide)]

/-- A check that fails has a status that the CODE field holds. -/
theorem secRefuse_lt (s : State) (op : Nat) (a : List Nat) : s.secRefuse op a < 256 := by
  unfold State.secRefuse
  split
  · decide
  · split
    all_goals first | decide | (split <;> decide)

theorem rotCode_lt (u : State) (old : Nat) (b : List Nat) : u.rotCode old b < 256 := by
  unfold State.rotCode
  split
  · decide
  · split
    · decide
    · split
      · decide
      · exact secRefuse_lt _ _ _

/-- A block whose every check passes has arguments in range. -/
theorem argsOk_of_rotCode {u : State} {old : Nat} {b : List Nat} (h : u.rotCode old b = cmdOk) : argsOk (blockOp b) (blockArgs b) = true := by
  cases hfmt : blockFormatOk b with
  | true =>
    unfold blockFormatOk at hfmt
    exact (Bool.and_eq_true _ _ ▸ hfmt).2
  | false => exact absurd h (by rw [State.rotCode, if_pos hfmt]; decide)

/-- The nonce that a command draws (R388). -/
theorem nonce_newNonce (s : State) : s.newNonce.nonce = s.drawRandom.1 % 2 ^ 64 := by
  have hlo : s.newNonce.word .SEC_NONCE_LO = BitVec.ofNat 32 s.drawRandom.1 := (State.word_setWord_of_ne _ _ (by decide)).trans (State.word_setWord_self _ _ _ _ _)
  have hhi : s.newNonce.word .SEC_NONCE_HI = BitVec.ofNat 32 (s.drawRandom.1 / 2 ^ 32) := State.word_setWord_self _ _ _ _ _
  rw [State.nonce, hlo, hhi, BitVec.toNat_ofNat, BitVec.toNat_ofNat]
  omega

theorem sameBut_newNonce (s : State) {ps : List Part} (h : Part.free ∈ ps) (hr : Part.regs ∈ ps) : s.sameBut s.newNonce ps :=
  sameBut_trans (sameBut_free _ _ _ h) (sameBut_trans (sameBut_setWord _ _ _ _ _ _ hr) (sameBut_setWord _ _ _ _ _ _ hr))

/-! ### Results and effects -/

/-- The result of a command: its code, its status bit, and no register but these and the status registers changed (R388, R404). -/
theorem secResult_spec (s : State) (op : Nat) {code : Nat} (hcode : code < 256) : let t := s.secResult op code
    t.fld .SEC_CMD_STS_CODE = code ∧ (code = cmdOk → t.stsBit .SEC_STS 0 = true) ∧ (code ≠ cmdOk → t.stsBit .SEC_STS 1 = true) ∧ s.sameBut t eventParts
      ∧ (∀ g : Reg, (∀ k ∈ [Reg.SEC_CMD_STS, .SEC_STATE, .SEC_PERF_REJECT], g.key 0 0 ≠ k.key 0 0) → (∀ q < 4, g.key 0 0 ≠ Reg.RING_EQ_DROP.key q 0) → t.word g = s.word g)
      ∧ t.fld .SEC_STATE_DEBUG = s.fld .SEC_STATE_DEBUG := by
  let u := ((s.setFld .SEC_CMD_STS_OP op).setFld .SEC_CMD_STS_CODE code).setFld .SEC_STATE_CMD_BUSY 0
  have hsame : s.sameBut u eventParts := sameBut_trans (sameBut_setFld _ _ _ _ _ _ (by decide))
    (sameBut_trans (sameBut_setFld _ _ _ _ _ _ (by decide)) (sameBut_setFld _ _ _ _ _ _ (by decide)))
  have hcodeu : u.fld .SEC_CMD_STS_CODE = code :=
    (State.fld_setFld_of_ne _ _ _ _ (by decide)).trans (fld_setFld_lt _ _ _ _ _ (Fld.fits_of_le (by decide)) hcode)
  have hdebug : u.fld .SEC_STATE_DEBUG = s.fld .SEC_STATE_DEBUG := (State.fld_setFld_of_disjoint _ _ _ _ (by rfl) (Fld.fits_of_le (by decide)) (by decide)).trans
    ((State.fld_setFld_of_ne _ _ _ _ (by decide)).trans (State.fld_setFld_of_ne _ _ _ _ (by decide)))
  have hword : ∀ g : Reg, (∀ k ∈ [Reg.SEC_CMD_STS, .SEC_STATE, .SEC_PERF_REJECT], g.key 0 0 ≠ k.key 0 0) → u.word g = s.word g := fun g hg =>
    (word_setFld_ne (hg _ (by decide))).trans ((word_setFld_ne (hg _ (by decide))).trans (word_setFld_ne (hg _ (by decide))))
  intro t
  by_cases hok : code = cmdOk
  · have ht : t = u.setSts .SEC_STS [0] := if_pos hok
    rw [ht]
    exact ⟨(fld_setSts _ (by decide)).trans hcodeu, fun _ => stsBit_setSts _ (by decide), fun h => absurd hok h,
      sameBut_trans hsame (sameBut_sts _ _ _ _ (List.Subset.refl _)), fun g hg hdrop => (word_setSts _ hdrop).trans (hword g hg),
      (fld_setSts _ (by decide)).trans hdebug⟩
  · have ht : t = ((u.setSts .SEC_STS [1]).bumpWrap .SEC_PERF_REJECT_COUNT 1).emit 0 0x70 1 mgmtRealm (op + code * 2 ^ 8) := if_neg hok
    rw [ht]
    exact ⟨(fld_emit _ (by decide)).trans ((State.fld_setFld_of_ne _ _ _ _ (by decide)).trans ((fld_setSts _ (by decide)).trans hcodeu)), fun h => absurd h hok,
      fun _ => stsBit_emit _ (stsBit_setSts _ (by decide)),
      sameBut_trans hsame (sameBut_trans (sameBut_sts _ _ _ _ (List.Subset.refl _)) (sameBut_trans (sameBut_setFld _ _ _ _ _ _ (by decide))
        (sameBut_emit _ _ _ _ _ _ (List.Subset.refl _)))),
      fun g hg hdrop => (word_emit _ hdrop).trans ((word_setFld_ne (hg _ (by decide))).trans ((word_setSts _ hdrop).trans (hword g hg))),
      (fld_emit _ (by decide)).trans ((State.fld_setFld_of_ne _ _ _ _ (by decide)).trans ((fld_setSts _ (by decide)).trans hdebug))⟩

/-- A realm that changes state is shown and reported; nothing but its record and the registers changes (R404). -/
theorem sameBut_rlmEnter (s : State) (r : Nat) (x : Realm) : (s.setRealm r x).sameBut (s.rlmEnter r x) eventParts := by
  unfold State.rlmEnter State.rlmShow
  exact sameBut_trans (sameBut_setFld _ _ _ _ _ _ (by decide)) (sameBut_trans (sameBut_setFld _ _ _ _ _ _ (by decide)) (sameBut_trans (sameBut_setFld _ _ _ _ _ _ (by decide))
    (sameBut_trans (sameBut_setFld _ _ _ _ _ _ (by decide)) (sameBut_trans (sameBut_setFld _ _ _ _ _ _ (by decide)) (sameBut_trans (sameBut_setFld _ _ _ _ _ _ (by decide))
      (sameBut_trans (sameBut_sts _ _ _ _ (List.Subset.refl _)) (sameBut_emit _ _ _ _ _ _ (List.Subset.refl _))))))))

theorem realm_of_realms {s t : State} (h : s.realms = t.realms) (r : Nat) : t.realm r = s.realm r := by
  unfold State.realm
  rw [h]

@[simp] theorem realm_setRealm_self (s : State) (r : Nat) (x : Realm) : (s.setRealm r x).realm r = x := Tab.get_set_self _ _ _ _

theorem realm_rlmEnter (s : State) (r : Nat) (x : Realm) : (s.rlmEnter r x).realm r = x :=
  (realm_of_realms (sameBut_rlmEnter s r x .realms (by decide)) r).trans (realm_setRealm_self s r x)

/-- The update's state and its error, as FWU_STATE shows them (R411). -/
theorem fwuEnter_spec (s : State) {st err : Nat} (hst : st < 16) (herr : err < 256) : let t := s.fwuEnter st err
    t.fwuSt = st ∧ t.fld .FWU_STATE_ERR = err ∧ s.sameBut t eventParts
      ∧ (∀ g : Reg, g.key 0 0 ≠ Reg.FWU_STATE.key 0 0 → (∀ q < 4, g.key 0 0 ≠ Reg.RING_EQ_DROP.key q 0) → t.word g = s.word g) := by
  let u := (s.setFld .FWU_STATE_STATE st).setFld .FWU_STATE_ERR err
  have hstate : u.fld .FWU_STATE_STATE = st := (State.fld_setFld_of_disjoint _ _ _ _ (by rfl) (Fld.fits_of_le (by decide)) (by decide)).trans
    (fld_setFld_lt _ _ _ _ _ (Fld.fits_of_le (by decide)) hst)
  have herr' : u.fld .FWU_STATE_ERR = err := fld_setFld_lt _ _ _ _ _ (Fld.fits_of_le (by decide)) herr
  exact ⟨(fld_emit _ (by decide)).trans hstate, (fld_emit _ (by decide)).trans herr',
    sameBut_trans (sameBut_setFld _ _ _ _ _ _ (by decide)) (sameBut_trans (sameBut_setFld _ _ _ _ _ _ (by decide)) (sameBut_emit _ _ _ _ _ _ (List.Subset.refl _))),
    fun g hg hdrop => (word_emit _ hdrop).trans ((word_setFld_ne (f := .FWU_STATE_ERR) hg).trans (word_setFld_ne (f := .FWU_STATE_STATE) hg))⟩

/-- The debug mode as SEC_STATE shows it, and its expiry (R409). -/
theorem debugSet_spec (s : State) {mode : Nat} (u : Nat) (hmode : mode < 4) : let t := s.debugSet mode u
    t.fld .SEC_STATE_DEBUG = mode ∧ t.sec = { s.sec with debugUntil := if mode = 0 then 0 else u } ∧ s.sameBut t (.sec :: eventParts) := by
  let v := s.onSec (fun x => { x with debugUntil := if mode = 0 then 0 else u })
  have hsame : v.sameBut (s.debugSet mode u) eventParts :=
    sameBut_trans (sameBut_setFld _ _ _ _ _ _ (by decide)) (sameBut_trans (sameBut_setFld _ _ _ _ _ _ (by decide)) (sameBut_emit _ _ _ _ _ _ (List.Subset.refl _)))
  exact ⟨(fld_emit _ (by decide)).trans ((State.fld_setFld_of_ne _ _ _ _ (by decide)).trans (fld_setFld_lt _ _ _ _ _ (Fld.fits_of_le (by decide)) hmode)),
    (hsame .sec (by decide)).symm, sameBut_trans (sameBut_sec _ _ _ (by decide)) (sameBut_mono hsame (by decide))⟩

/-! ### What a command that passes does (R389-R394, R409, R412) -/

section
variable (s : State) (a : List Nat)

theorem secAct_ownerSet : s.secAct opOwnerSet a = s.ownerSet a := by rw [State.secAct, if_pos rfl]
theorem secAct_ownerClear : s.secAct opOwnerClear a = s.ownerClear := by rw [State.secAct, if_neg (by decide), if_pos rfl]
theorem secAct_realmCreate : s.secAct opRealmCreate a = s.realmCreate a := by rw [State.secAct, if_neg (by decide), if_neg (by decide), if_pos rfl]
theorem secAct_realmDestroy : s.secAct opRealmDestroy a = s.realmDestroy a := by
  rw [State.secAct, if_neg (by decide), if_neg (by decide), if_neg (by decide), if_pos rfl]
theorem secAct_fwActivate : s.secAct opFwActivate a = s.fwActivate a := by
  rw [State.secAct, if_neg (by decide), if_neg (by decide), if_neg (by decide), if_neg (by decide), if_pos rfl]
theorem secAct_fwDisarm : s.secAct opFwDisarm a = ((s.setAct 0).fwuEnter fwuStaged 0).secResult opFwDisarm cmdOk := by
  rw [State.secAct, if_neg (by decide), if_neg (by decide), if_neg (by decide), if_neg (by decide), if_neg (by decide), if_pos rfl]
theorem secAct_debugArm : s.secAct opDebugArm a = (s.debugSet (fieldOf a 0 1) (fieldOf a 1 8)).secResult opDebugArm cmdOk := by
  rw [State.secAct, if_neg (by decide), if_neg (by decide), if_neg (by decide), if_neg (by decide), if_neg (by decide), if_neg (by decide), if_pos rfl]
theorem secAct_debugDisarm : s.secAct opDebugDisarm a = (s.debugSet 0 0).secResult opDebugDisarm cmdOk := by
  rw [State.secAct, if_neg (by decide), if_neg (by decide), if_neg (by decide), if_neg (by decide), if_neg (by decide), if_neg (by decide), if_neg (by decide)]

theorem ownerSet_spec : let t := s.ownerSet a
    t.sec.owner = a ∧ t.fld .SEC_CMD_STS_CODE = cmdOk ∧ t.stsBit .SEC_STS 0 = true := by
  unfold State.ownerSet
  generalize (if s.sec.owner = a then s else s.dropAllKeys) = v
  obtain ⟨hcode, hok, -, hsame, -, -⟩ := secResult_spec ((v.onSec (fun x => { x with owner := a })).setFld .SEC_STATE_OWNED 1) opOwnerSet (code := cmdOk) (by decide)
  exact ⟨congrArg Sec.owner (hsame .sec (by decide)).symm, hcode, hok rfl⟩

/-- OWNER_CLEAR of a module without realms. -/
theorem ownerClear_spec (h : ∀ r < 4, (s.realm r).st = .absent) : let t := s.ownerClear
    t.sec.owner = [] ∧ t.fld .SEC_CMD_STS_CODE = cmdOk := by
  have hnone : ((List.range 4).filter (fun r => (s.realm r).st != .absent)).isEmpty = true := by
    rw [List.isEmpty_iff, List.filter_eq_nil_iff]
    intro r hr
    simp [h r (List.mem_range.1 hr)]
  obtain ⟨hcode, -, -, hsame, -, -⟩ := secResult_spec s.ownerGone opOwnerClear (code := cmdOk) (by decide)
  rw [State.ownerClear, if_pos hnone]
  exact ⟨congrArg Sec.owner (hsame .sec (by decide)).symm, hcode⟩

theorem realmCreate_spec : let t := s.realmCreate a
    t.realm (fieldOf a 0 1) = grantRealm a ((s.realm (fieldOf a 0 1)).created + 1) .creating ∧ t.flag .SEC_STATE_CMD_BUSY = true
      ∧ t.sec.waiting = some (opRealmCreate, fieldOf a 0 1) := by
  let u := s.onSec (fun x => { x with grants := Tab.put (fieldOf a 0 1) a x.grants, waiting := some (opRealmCreate, fieldOf a 0 1) })
  let g := grantRealm a ((s.realm (fieldOf a 0 1)).created + 1) .creating
  exact ⟨realm_rlmEnter u (fieldOf a 0 1) g, flag_setFld_self (u.rlmEnter (fieldOf a 0 1) g) true _ _ (Fld.fits_of_le (by decide)) (by decide),
    congrArg Sec.waiting (sameBut_rlmEnter u (fieldOf a 0 1) g .sec (by decide)).symm⟩

theorem rlmDestroy_st (r : Nat) : ((s.rlmDestroy r).realm r).st = .destroying := congrArg Realm.st (realm_rlmEnter _ _ _)

theorem realmDestroy_spec : let t := s.realmDestroy a
    (t.realm (fieldOf a 0 1)).st = .destroying ∧ t.flag .SEC_STATE_CMD_BUSY = true ∧ t.sec.waiting = some (opRealmDestroy, fieldOf a 0 1) := by
  have hst := rlmDestroy_st s (fieldOf a 0 1)
  unfold State.realmDestroy
  generalize s.rlmDestroy (fieldOf a 0 1) = v at hst
  exact ⟨hst, flag_setFld_self _ true _ _ (Fld.fits_of_le (by decide)) (by decide), rfl⟩

theorem fwActivate_spec : let t := s.fwActivate a
    t.fwuSt = fwuArmed ∧ t.sec.count = fieldOf a 0 8 ∧ t.fld .SEC_CMD_STS_CODE = cmdOk := by
  unfold State.fwActivate
  have hcount : ((s.onSec (fun x => { x with count := fieldOf a 0 8 })).setAct (fieldOf a 0 8)).sec.count = fieldOf a 0 8 := rfl
  generalize (s.onSec (fun x => { x with count := fieldOf a 0 8 })).setAct (fieldOf a 0 8) = u at hcount
  obtain ⟨hst, -, hsame, -⟩ := fwuEnter_spec u (st := fwuArmed) (err := 0) (by decide) (by decide)
  obtain ⟨hcode, -, -, hres, hkeep, -⟩ := secResult_spec (u.fwuEnter fwuArmed 0) opFwActivate (code := cmdOk) (by decide)
  exact ⟨(congrArg (Fld.of .FWU_STATE_STATE) (hkeep .FWU_STATE (by decide) (by decide))).trans hst,
    (congrArg Sec.count ((hsame .sec (by decide)).trans (hres .sec (by decide))).symm).trans hcount, hcode⟩

theorem fwDisarm_spec : let t := ((s.setAct 0).fwuEnter fwuStaged 0).secResult opFwDisarm cmdOk
    t.fwuSt = fwuStaged ∧ t.fld .SEC_CMD_STS_CODE = cmdOk := by
  generalize s.setAct 0 = u
  obtain ⟨hst, -⟩ := fwuEnter_spec u (st := fwuStaged) (err := 0) (by decide) (by decide)
  obtain ⟨hcode, -, -, -, hkeep, -⟩ := secResult_spec (u.fwuEnter fwuStaged 0) opFwDisarm (code := cmdOk) (by decide)
  exact ⟨(congrArg (Fld.of .FWU_STATE_STATE) (hkeep .FWU_STATE (by decide) (by decide))).trans hst, hcode⟩

end

/-- DEBUG_ARM and DEBUG_DISARM: the mode and its expiry. -/
theorem debugResult_spec (s : State) (op : Nat) {mode : Nat} (v : Nat) (hmode : mode < 4) : let t := (s.debugSet mode v).secResult op cmdOk
    t.sec.debugUntil = (if mode = 0 then 0 else v) ∧ t.fld .SEC_STATE_DEBUG = mode ∧ t.fld .SEC_CMD_STS_CODE = cmdOk := by
  obtain ⟨hdebug, hsec, -⟩ := debugSet_spec s v hmode
  obtain ⟨hcode, -, -, hsame, -, hkeep⟩ := secResult_spec (s.debugSet mode v) op (code := cmdOk) (by decide)
  exact ⟨congrArg Sec.debugUntil ((hsame .sec (by decide)).symm.trans hsec), hkeep.trans hdebug, hcode⟩

/-- A DEBUG_ARM whose arguments are in range arms mode 1 or 2. -/
theorem debugArm_mode {a : List Nat} (h : argsOk opDebugArm a = true) : fieldOf a 0 1 = 1 ∨ fieldOf a 0 1 = 2 := by
  simp only [argsOk, opDebugArm, Bool.and_eq_true, Bool.or_eq_true, beq_iff_eq] at h
  exact h.2

/-- Settles O42: a command block by its first failed check, and the effect of each command. -/
theorem commandBlocksAreChecked : Obligations.CommandBlocksAreChecked := by
  intro c op hc w s u b hw hup hbusy hb hop hu
  subst hb hop hu
  let u := s.newNonce.setFld .SEC_CMD_STS_OP (blockOp s.secBlock)
  have hexec := fun err => exec_rot hc hw hup hbusy err rfl
  have hrun := (hexec false).trans (congrArg _ ((if_neg (by decide)).trans (secRun_eq s s.secBlock)))
  refine ⟨?_, fun code hcode => ⟨fun hbad => ?_, fun hok => ?_⟩⟩
  · obtain ⟨hcode, -, hsts, hsame, -, -⟩ := secResult_spec s (s.fld .SEC_CMD_STS_OP) (code := cmdReadErr) (by decide)
    exact ⟨_, (hexec true).trans (congrArg _ (if_pos rfl)), hcode, hsts (by decide), hsame⟩
  · have hcode' : code = u.rotCode s.nonce s.secBlock := hcode
    rw [← hcode'] at hrun
    obtain ⟨hres, -, hsts, hsame, hkeep, -⟩ := secResult_spec u (blockOp s.secBlock) (code := code) (hcode' ▸ rotCode_lt _ _ _)
    have hword : ∀ g : Reg, (∀ k ∈ [Reg.SEC_CMD_STS, .SEC_STATE, .SEC_PERF_REJECT], g.key 0 0 ≠ k.key 0 0) → (∀ q < 4, g.key 0 0 ≠ Reg.RING_EQ_DROP.key q 0) →
        (u.secResult (blockOp s.secBlock) code).word g = s.newNonce.word g := fun g hg hdrop => (hkeep g hg hdrop).trans (word_setFld_ne (hg _ (by decide)))
    refine ⟨_, hrun.trans (congrArg _ (if_neg hbad)), hres, hsts hbad, ?_, sameBut_trans (sameBut_newNonce s (by decide) (by decide))
      (sameBut_trans (sameBut_setFld _ _ _ _ _ _ (by decide)) (sameBut_mono hsame (by decide)))⟩
    rw [State.nonce, hword .SEC_NONCE_LO (by decide) (by decide), hword .SEC_NONCE_HI (by decide) (by decide)]
    exact nonce_newNonce s
  · have hcode' : u.rotCode s.nonce s.secBlock = cmdOk := hcode.symm.trans hok
    have hargs := argsOk_of_rotCode hcode'
    have hrealm : ∀ r, u.realm r = s.realm r := fun _ => rfl
    refine ⟨_, hrun.trans (congrArg _ (if_pos hcode')), ?_⟩
    generalize blockArgs s.secBlock = a at hargs
    refine ⟨fun h => ?_, fun h habsent => ?_, fun h => ?_, fun h => ?_, fun h => ?_, fun h => ?_, fun h => ?_, fun h => ?_⟩ <;> rw [h] at hargs ⊢
    · rw [secAct_ownerSet]
      exact ownerSet_spec _ a
    · rw [secAct_ownerClear]
      exact ownerClear_spec _ habsent
    · rw [secAct_realmCreate]
      exact realmCreate_spec _ a
    · rw [secAct_realmDestroy]
      exact realmDestroy_spec _ a
    · rw [secAct_fwActivate]
      exact fwActivate_spec _ a
    · rw [secAct_fwDisarm]
      exact fwDisarm_spec _
    · rw [secAct_debugArm]
      obtain hmode | hmode := debugArm_mode hargs <;> rw [hmode]
      · exact debugResult_spec _ opDebugArm _ (by decide)
      · exact debugResult_spec _ opDebugArm _ (by decide)
    · rw [secAct_debugDisarm]
      exact debugResult_spec _ opDebugDisarm 0 (by decide)

end Sys2Proof.Machine

/-! SUPPORT. Realm requests, the end of a realm's clears, and the end of the debug mode (R390, R394, R396, R398, R407-R409). -/

namespace Sys2Proof.Machine

/-! ### A realm's request (R398) -/

theorem windowOpen_lt {s : State} {r : Nat} (h : s.windowOpen r = true) : r < 4 := by
  simp only [State.windowOpen, Bool.and_eq_true, decide_eq_true_eq] at h
  exact h.1

/-- A request that may run, on the state whose DONE bit it has cleared (R398). -/
theorem reqGo_open {r op mode use slot : Nat} {s u : State} (f : State → State) (hup : s.pageUp 13 = true) (hopen : s.windowOpen r = true)
    (hbusy : bit ((s.reqSet r op mode use slot).fld .SEC_STATE_REQ_BUSY) r = false) (hu : u = (s.reqSet r op mode use slot).setFld .SEC_REQ_STS_DONE 0 0 r) :
    s.reqGo r op mode use slot f = .next (if !u.flag .SEC_CTRL_REQ_EN || (op == 0 && mode == 1 && !u.flag .SEC_CTRL_IMPORT_EN) || decide (3 < op)
      then u.reqEnd r stKeyUse 0 else f u) := by
  subst hu
  unfold State.reqGo
  rw [hup, hopen]
  exact congrArg _ ((if_neg (by decide)).trans (if_neg (by rw [hbusy]; decide)))

theorem reqGo_runs {r op mode use slot : Nat} {s u : State} (f : State → State) (hup : s.pageUp 13 = true) (hopen : s.windowOpen r = true)
    (hbusy : bit ((s.reqSet r op mode use slot).fld .SEC_STATE_REQ_BUSY) r = false) (hu : u = (s.reqSet r op mode use slot).setFld .SEC_REQ_STS_DONE 0 0 r)
    (hen : u.flag .SEC_CTRL_REQ_EN = true) (hop : op ≤ 3) (himp : op = 0 → mode = 1 → u.flag .SEC_CTRL_IMPORT_EN = true) :
    s.reqGo r op mode use slot f = .next (f u) := by
  refine (reqGo_open f hup hopen hbusy hu).trans (congrArg _ (if_neg fun h => ?_))
  simp only [hen, Bool.not_true, Bool.false_or, Bool.or_eq_true, Bool.and_eq_true, beq_iff_eq, decide_eq_true_eq, Bool.not_eq_true'] at h
  rcases h with ⟨⟨h0, h1⟩, h⟩ | h
  · exact Bool.false_ne_true (h.symm.trans (himp h0 h1))
  · omega

theorem sameBut_reqSet (s : State) (r op mode use slot : Nat) {ps : List Part} (h : Part.regs ∈ ps) :
    s.sameBut ((s.reqSet r op mode use slot).setFld .SEC_REQ_STS_DONE 0 0 r) ps :=
  sameBut_trans (sameBut_setFld _ _ _ _ _ _ h) (sameBut_trans (sameBut_setFld _ _ _ _ _ _ h) (sameBut_trans (sameBut_setFld _ _ _ _ _ _ h)
    (sameBut_trans (sameBut_setFld _ _ _ _ _ _ h) (sameBut_setFld _ _ _ _ _ _ h))))

/-- The end of a request, as SEC_REQ_STS shows it. -/
theorem reqEnd_spec (s : State) {r code : Nat} (n : Nat) (hcode : code < 256) : let t := s.reqEnd r code n
    t.fld .SEC_REQ_STS_CODE 0 r = code ∧ t.fld .SEC_REQ_STS_BYTES 0 r = n % 65536 ∧ t.flag .SEC_REQ_STS_DONE 0 r = true ∧ s.sameBut t [.regs] := by
  refine ⟨?_, ?_, flag_setFld_self _ true _ _ (Fld.fits_of_le (by decide)) (by decide), sameBut_trans (sameBut_setFld _ _ _ _ _ _ (by decide))
    (sameBut_trans (sameBut_setFld _ _ _ _ _ _ (by decide)) (sameBut_setFld _ _ _ _ _ _ (by decide)))⟩
  · exact (State.fld_setFld_of_disjoint _ _ _ _ (by rfl) (Fld.fits_of_le (by decide)) (by decide)).trans
      ((State.fld_setFld_of_disjoint _ _ _ _ (by rfl) (Fld.fits_of_le (by decide)) (by decide)).trans (fld_setFld_lt _ _ _ _ _ (Fld.fits_of_le (by decide)) hcode))
  · exact (State.fld_setFld_of_disjoint _ _ _ _ (by rfl) (Fld.fits_of_le (by decide)) (by decide)).trans (State.fld_setFld_self _ _ _ _ _ (Fld.fits_of_le (by decide)))

/-- The SLOT event leaves SEC_REQ_STS as it stands (R404). -/
theorem slotEvent_spec (s : State) {r : Nat} (slot : Nat) (loaded : Bool) (code : Nat) (hr : r < 4) : let t := s.slotEvent r slot loaded code
    t.word .SEC_REQ_STS 0 r = s.word .SEC_REQ_STS 0 r ∧ s.sameBut t eventParts := by
  refine ⟨?_, sameBut_trans (sameBut_setFld _ _ _ _ _ _ (by decide)) (sameBut_emit _ _ _ _ _ _ (List.Subset.refl _))⟩
  refine (word_emit _ fun q hq => Reg.key_ne (by omega) (by decide) (by decide) (by omega) (.inl (by decide))).trans (word_setFld_ne ?_)
  exact Reg.key_ne (by decide) (by decide) (by omega) (by omega) (.inl (by decide))

/-- A request that ends with a SLOT event. -/
theorem reqEvent_spec (s : State) {r code : Nat} (n slot : Nat) (loaded : Bool) (ev : Nat) (hr : r < 4) (hcode : code < 256) :
    let t := (s.reqEnd r code n).slotEvent r slot loaded ev
    t.fld .SEC_REQ_STS_CODE 0 r = code ∧ t.fld .SEC_REQ_STS_BYTES 0 r = n % 65536 ∧ t.flag .SEC_REQ_STS_DONE 0 r = true ∧ s.sameBut t eventParts := by
  obtain ⟨hc, hb, hd, hsame⟩ := reqEnd_spec (r := r) s n hcode
  obtain ⟨hword, hev⟩ := slotEvent_spec (s.reqEnd r code n) slot loaded ev hr
  refine ⟨(congrArg (Fld.of .SEC_REQ_STS_CODE) hword).trans hc, (congrArg (Fld.of .SEC_REQ_STS_BYTES) hword).trans hb, ?_,
    sameBut_trans (sameBut_mono hsame (by decide)) hev⟩
  exact (congrArg (fun w => Fld.of .SEC_REQ_STS_DONE w == 1) hword).trans hd

/-- The slots of a realm after a change of the keys that no event touches. -/
theorem keySlot_of_keys {s t : State} (h : s.keys = t.keys) (r slot : Nat) : t.keySlot r slot = s.keySlot r slot := by
  unfold State.keySlot
  rw [h]

/-- The end of an exchange: the key is in its slot, or the slot is empty (R398). -/
theorem provisionEnd_spec (s : State) {r slot : Nat} (use a : Nat) (key : Option (List Nat)) (resp : List Nat) (hr : r < 4) (hslot : slot < 256) :
    let t := s.provisionEnd r use slot a key resp
    ((∃ k, t.keySlot r slot = some k ∧ k.use = use ∧ t.fld .SEC_REQ_STS_CODE 0 r = 0 ∧ t.fld .SEC_REQ_STS_BYTES 0 r = 176)
      ∨ (key = none ∧ t.keySlot r slot = none ∧ t.fld .SEC_REQ_STS_CODE 0 r = stKeySeal)) ∧ s.sameBut t (.keys :: eventParts) := by
  cases key with
  | none =>
    let u : State := { s with keys := Tab.del (256 * r + slot) s.keys }
    obtain ⟨hcode, -, -, hsame⟩ := reqEvent_spec u 0 slot false stKeySeal hr (code := stKeySeal) (by decide)
    refine ⟨.inr ⟨rfl, (keySlot_of_keys (hsame .keys (by decide)) r slot).trans ?_, hcode⟩, sameBut_trans (sameBut_keys _ _ _ (by decide)) (sameBut_mono hsame (by decide))⟩
    exact (if_pos hslot).trans (Tab.find_del_self _ _)
  | some k =>
    let u := (s.store a resp).setKeySlot r slot { key := k, use := use }
    obtain ⟨hcode, hbytes, -, hsame⟩ := reqEvent_spec u 176 slot true 0 hr (code := 0) (by decide)
    refine ⟨.inl ⟨{ key := k, use := use }, (keySlot_of_keys (hsame .keys (by decide)) r slot).trans ?_, rfl, hcode, hbytes⟩,
      sameBut_trans (sameBut_onMem _ _ (by decide)) (sameBut_trans (sameBut_keys _ _ _ (by decide)) (sameBut_mono hsame (by decide)))⟩
    exact (if_pos hslot).trans (Tab.find_put_self _ _ _)

/-- The key that an exchange under `t` leaves: the derived one, or the imported one that opens (R398). -/
def exchangedKey (mode : Nat) (t info w : List Nat) : Option (List Nat) :=
  if mode = 0 then some (t.take 32) else gcmOpen (t.take 32) (List.replicate 12 0) info (w.take 32) (w.drop 32)

/-- An exchange whose share is a point of the curve ends with its key. -/
theorem provision_of_onCurve {s : State} {r mode use slot : Nat} (h : onCurve (bytesPoint ((s.bytes (hostBase + s.reqAddr r) 128).take 64)) = true) :
    ∃ t info w resp, s.provision r mode use slot
      = (s.drawRandom.2.drawRandom.2).provisionEnd r use slot (hostBase + s.reqAddr r + 0x100) (exchangedKey mode t info w) resp := by
  unfold State.provision
  dsimp only
  rw [h]
  exact ⟨_, _, _, _, if_neg (by decide)⟩

/-- An exchange whose share is no point of the curve. -/
theorem provision_of_offCurve {s : State} {r mode use slot : Nat} (h : onCurve (bytesPoint ((s.bytes (hostBase + s.reqAddr r) 128).take 64)) = false) :
    s.provision r mode use slot = (s.reqEnd r stKeySeal 0).slotEvent r slot (s.keySlot r slot).isSome stKeySeal := by
  unfold State.provision
  dsimp only
  rw [h]
  exact if_pos rfl

/-! ### The requests (R396, R398, R407, R408) -/

section
variable {r op mode use slot : Nat} {s u : State} (hup : s.pageUp 13 = true) (hopen : s.windowOpen r = true)
  (hbusy : bit ((s.reqSet r op mode use slot).fld .SEC_STATE_REQ_BUSY) r = false) (hu : u = (s.reqSet r op mode use slot).setFld .SEC_REQ_STS_DONE 0 0 r)
include hup hopen hbusy hu

theorem clear_refused (hen : u.flag .SEC_CTRL_REQ_EN = false) (hop : op = 1) (hmode : mode = 0) (huse : use = 0) (hslot : slot < 256) :
    ∃ t, exec (.clear r slot) s = .next t ∧ t.fld .SEC_REQ_STS_CODE 0 r = stKeyUse ∧ t.flag .SEC_REQ_STS_DONE 0 r = true ∧ s.sameBut t [.regs] := by
  have hsame : s.sameBut u [.regs] := hu ▸ sameBut_reqSet s r op mode use slot (by decide)
  obtain ⟨hcode, -, hdone, hend⟩ := reqEnd_spec (r := r) u 0 (code := stKeyUse) (by decide)
  subst hop hmode huse
  refine ⟨_, ?_, hcode, hdone, sameBut_trans hsame hend⟩
  change execClear r slot s = _
  unfold execClear
  rw [Nat.mod_eq_of_lt hslot]
  exact (reqGo_open _ hup hopen hbusy hu).trans (congrArg _ (if_pos (by rw [hen]; rfl)))

theorem clear_runs (hen : u.flag .SEC_CTRL_REQ_EN = true) (hop : op = 1) (hmode : mode = 0) (huse : use = 0) (hslot : slot < 256) :
    ∃ t, exec (.clear r slot) s = .next t ∧ t.keySlot r slot = none ∧ t.fld .SEC_REQ_STS_CODE 0 r = 0 ∧ t.flag .SEC_REQ_STS_DONE 0 r = true
      ∧ (∀ k, k ≠ 256 * r + slot → Tab.find k t.keys = Tab.find k s.keys) ∧ s.sameBut t (.keys :: eventParts) := by
  have hsame : s.sameBut u [.regs] := hu ▸ sameBut_reqSet s r op mode use slot (by decide)
  let v : State := { u with keys := Tab.del (256 * r + slot) u.keys }
  obtain ⟨hcode, -, hdone, hend⟩ := reqEvent_spec v 0 slot false 0 (windowOpen_lt hopen) (code := 0) (by decide)
  have hkeys := hend .keys (by decide)
  subst hop hmode huse
  refine ⟨_, ?_, (keySlot_of_keys hkeys r slot).trans ((if_pos hslot).trans (Tab.find_del_self _ _)), hcode, hdone, fun k hk => ?_,
    sameBut_trans (sameBut_mono hsame (by decide)) (sameBut_trans (sameBut_keys _ _ _ (by decide)) (sameBut_mono hend (by decide)))⟩
  · change execClear r slot s = _
    unfold execClear
    rw [Nat.mod_eq_of_lt hslot]
    exact reqGo_runs _ hup hopen hbusy hu hen (by decide) (fun h => absurd h (by decide))
  · rw [← hkeys, hsame .keys (by decide)]
    exact Tab.find_del_of_ne _ hk

theorem attest_runs (hen : u.flag .SEC_CTRL_REQ_EN = true) (hop : op = 2) (hmode : mode = 0) (huse : use = 0) (hslot : slot = 0) :
    ∃ t x, exec (.attest r) s = .next t ∧ x = u.report192 r (s.bytes (hostBase + u.reqAddr r + 0x40) 32)
      ∧ t.mem = s.mem.store (hostBase + u.reqAddr r + 0x100) (x ++ ecdsaSign u.attestKey x) ∧ t.fld .SEC_REQ_STS_CODE 0 r = 0 ∧ t.fld .SEC_REQ_STS_BYTES 0 r = 256
      ∧ s.sameBut t [.mem, .regs] := by
  have hsame : s.sameBut u [.regs] := hu ▸ sameBut_reqSet s r op mode use slot (by decide)
  have hmem : s.mem = u.mem := hsame .mem (by decide)
  have hbytes : s.bytes = u.bytes := by
    unfold State.bytes
    rw [hmem]
  let x := u.report192 r (u.bytes (hostBase + u.reqAddr r + 0x40) 32)
  let v := u.store (hostBase + u.reqAddr r + 0x100) (x ++ ecdsaSign u.attestKey x)
  obtain ⟨hcode, hn, -, hend⟩ := reqEnd_spec (r := r) v 256 (code := 0) (by decide)
  subst hop hmode huse hslot
  refine ⟨_, x, ?_, by rw [hbytes], ?_, hcode, hn, sameBut_trans (sameBut_mono hsame (by decide)) (sameBut_trans (sameBut_onMem _ _ (by decide)) (sameBut_mono hend (by decide)))⟩
  · change execAttest r s = _
    exact reqGo_runs _ hup hopen hbusy hu hen (by decide) (fun h => absurd h (by decide))
  · rw [hmem]
    exact (hend .mem (by decide)).symm

theorem certs_runs (chain : List Nat) (hen : u.flag .SEC_CTRL_REQ_EN = true) (hop : op = 3) (hmode : mode = 0) (huse : use = 0) (hslot : slot = 0) :
    ∃ t, exec (.certs r chain) s = .next t ∧ t.mem = s.mem.store (hostBase + u.reqAddr r + 0x100) chain
      ∧ t.fld .SEC_REQ_STS_CODE 0 r = 0 ∧ t.fld .SEC_REQ_STS_BYTES 0 r = chain.length % 65536 ∧ s.sameBut t [.mem, .regs] := by
  have hsame : s.sameBut u [.regs] := hu ▸ sameBut_reqSet s r op mode use slot (by decide)
  let v := u.store (hostBase + u.reqAddr r + 0x100) chain
  obtain ⟨hcode, hn, -, hend⟩ := reqEnd_spec (r := r) v chain.length (code := 0) (by decide)
  subst hop hmode huse hslot
  refine ⟨_, ?_, ?_, hcode, hn, sameBut_trans (sameBut_mono hsame (by decide)) (sameBut_trans (sameBut_onMem _ _ (by decide)) (sameBut_mono hend (by decide)))⟩
  · change execCerts r chain s = _
    exact reqGo_runs _ hup hopen hbusy hu hen (by decide) (fun h => absurd h (by decide))
  · rw [show s.mem = u.mem from hsame .mem (by decide)]
    exact (hend .mem (by decide)).symm

theorem exec_provision (hen : u.flag .SEC_CTRL_REQ_EN = true) (hop : op = 0) (hmode : mode < 2) (huse : use < 2) (hslot : slot < 256)
    (himp : mode = 1 → u.flag .SEC_CTRL_IMPORT_EN = true) : exec (.provision r mode use slot) s = .next (u.provision r mode use slot) := by
  subst hop
  change execProvision r mode use slot s = _
  unfold execProvision
  rw [Nat.mod_eq_of_lt hmode, Nat.mod_eq_of_lt huse, Nat.mod_eq_of_lt hslot]
  exact reqGo_runs _ hup hopen hbusy hu hen (by decide) (fun _ => himp)

end

/-! ### The end of the clears (R390, R394) -/

theorem sameBut_rlmClear (s : State) (r : Nat) : s.sameBut (s.rlmClear r) [.mem, .kvm] := by
  unfold State.rlmClear State.clearStore
  exact sameBut_trans (sameBut_foldl _ (fun _ _ => sameBut_onMem _ _ (by decide)) _ _) (sameBut_trans
    (sameBut_foldl _ (fun _ _ => sameBut_foldl _ (fun _ _ => sameBut_onMem _ _ (by decide)) _ _) _ _)
    (sameBut_trans (sameBut_foldl _ (fun _ _ => sameBut_onMem _ _ (by decide)) _ _) (sameBut_onKvm _ _ (by decide))))

/-- No command waits for the clears. -/
theorem clearsOver_of_none {s : State} (r : Nat) (h : s.sec.waiting = none) : s.clearsOver r = s := by
  unfold State.clearsOver
  rw [h]

/-- The clears of a CREATING realm end. -/
theorem realmClearDone_creating {r : Nat} {s : State} (hup : s.up = true) (hr : r < 4) (hwait : s.sec.waiting = none) (hst : (s.realm r).st = .creating) :
    ∃ t, exec (.realmClearDone r) s = .next t ∧ t.realm r = { s.realm r with st := .active } := by
  let x : Realm := { s.realm r with st := .active }
  have hsec : ((s.rlmClear r).rlmEnter r x).sec = s.sec :=
    ((sameBut_rlmClear s r .sec (by decide)).trans (sameBut_rlmEnter (s.rlmClear r) r x .sec (by decide))).symm
  refine ⟨(s.rlmClear r).rlmEnter r x, ?_, realm_rlmEnter _ r x⟩
  change execRealmClearDone r s = _
  rw [execRealmClearDone, whenUp_of_up _ hup, if_neg (Nat.not_le.2 hr)]
  simp only [hst]
  exact congrArg _ (clearsOver_of_none r ((congrArg Sec.waiting hsec).trans hwait))

/-- The clears of a DESTROYING realm end. -/
theorem realmClearDone_destroying {r : Nat} {s : State} (hup : s.up = true) (hr : r < 4) (hwait : s.sec.waiting = none) (hst : (s.realm r).st = .destroying) :
    ∃ t, exec (.realmClearDone r) s = .next t ∧ t.realm r = { created := (s.realm r).created } ∧ Tab.find r t.sec.grants = none := by
  let u := (s.rlmClear r).onSec (fun x => { x with grants := Tab.del r x.grants })
  let x : Realm := { created := (s.realm r).created }
  have hclear : (s.rlmClear r).sec = s.sec := (sameBut_rlmClear s r .sec (by decide)).symm
  have hrealm : u.realm r = s.realm r := realm_of_realms (sameBut_rlmClear s r .realms (by decide)) r
  have hsec : (u.rlmEnter r x).sec = u.sec := (sameBut_rlmEnter u r x .sec (by decide)).symm
  refine ⟨u.rlmEnter r x, ?_, realm_rlmEnter u r x, by rw [hsec]; exact Tab.find_del_self r _⟩
  change execRealmClearDone r s = _
  rw [execRealmClearDone, whenUp_of_up _ hup, if_neg (Nat.not_le.2 hr)]
  simp only [hst]
  change Host.Outcome.next ((u.rlmEnter r { created := (u.realm r).created }).clearsOver r) = _
  rw [hrealm]
  exact congrArg _ (clearsOver_of_none r ((congrArg Sec.waiting hsec).trans ((congrArg Sec.waiting hclear).trans hwait)))

/-- Settles O43: a request by whether it may run and by its operation; the ends of the clears and of the debug mode by their branches. -/
theorem realmRequestsAreAnswered : Obligations.RealmRequestsAreAnswered := by
  refine ⟨fun r op mode use slot s u hup hopen hbusy hu => ⟨fun hen => clear_refused hup hopen hbusy hu hen, fun hen => ⟨clear_runs hup hopen hbusy hu hen,
    attest_runs hup hopen hbusy hu hen, fun chain => certs_runs hup hopen hbusy hu chain hen, fun hop hmode huse hslot himp => ?_⟩⟩,
    fun r s hup hr hwait => ⟨realmClearDone_creating hup hr hwait, realmClearDone_destroying hup hr hwait⟩, fun s hup hdebug => ?_⟩
  · have hexec := exec_provision hup hopen hbusy hu hen hop hmode huse hslot himp
    have hsame : s.sameBut u [.regs] := hu ▸ sameBut_reqSet s r op mode use slot (by decide)
    have hbytes : s.bytes = u.bytes := by
      unfold State.bytes
      rw [show s.mem = u.mem from hsame .mem (by decide)]
    rw [hbytes]
    refine ⟨fun hcurve => ?_, fun hcurve => ?_⟩
    · obtain ⟨hcode, -, -, hend⟩ := reqEvent_spec u 0 slot (u.keySlot r slot).isSome stKeySeal (windowOpen_lt hopen) (code := stKeySeal) (by decide)
      exact ⟨_, hexec.trans (congrArg _ (provision_of_offCurve hcurve)), hcode, sameBut_trans (sameBut_mono hsame (by decide)) hend⟩
    · obtain ⟨x, info, w, resp, hprov⟩ := provision_of_onCurve (mode := mode) (use := use) (slot := slot) hcurve
      obtain ⟨hend, hpe⟩ := provisionEnd_spec u.drawRandom.2.drawRandom.2 use (hostBase + u.reqAddr r + 0x100) (exchangedKey mode x info w) resp (windowOpen_lt hopen) hslot
      refine ⟨_, hexec.trans (congrArg _ hprov), hend.imp id fun ⟨hkey, hslot', hcode⟩ => ⟨?_, hslot', hcode⟩,
        sameBut_trans (sameBut_mono hsame (by decide)) (sameBut_trans (sameBut_free _ _ _ (by decide)) (sameBut_trans (sameBut_free _ _ _ (by decide)) (sameBut_mono hpe (by decide))))⟩
      by_contra hne
      have hzero : mode = 0 := by omega
      rw [exchangedKey, if_pos hzero] at hkey
      exact Option.some_ne_none _ hkey
  · let u : State := { s with gauge := max s.gauge s.sec.debugUntil }
    obtain ⟨hmode, -, hsame⟩ := debugSet_spec u 0 (mode := 0) (by decide)
    have hexec : exec .debugExpiry s = .next (u.debugSet 0 0) := by
      change execDebugExpiry s = _
      rw [execDebugExpiry, whenUp_of_up _ hup, if_neg hdebug]
    exact ⟨_, hexec, hmode, (hsame .gauge (by decide)).symm,
      sameBut_trans (sameBut_gauge _ _ _ (by decide)) (sameBut_mono hsame (by decide))⟩

end Sys2Proof.Machine

/-! SUPPORT. The firmware update's states, and the Drawer's budgets (R411-R417). -/

namespace Sys2Proof.Machine

/-! ### The slots and the update's state (R410, R411) -/

/-- A change of the update's state keeps the other fields of FWU_STATE. -/
theorem fwuEnter_keep (s : State) (st err : Nat) {g : Fld} (hg : g.reg = .FWU_STATE) (hf : g.fits) (hlo : 4 ≤ g.lo) (herr : g.lo + g.width ≤ 8 ∨ 16 ≤ g.lo) :
    (s.fwuEnter st err).fld g = s.fld g :=
  (fld_emit _ (by rw [hg]; decide)).trans ((State.fld_setFld_of_disjoint _ _ _ _ hg hf herr).trans (State.fld_setFld_of_disjoint _ _ _ _ hg hf (.inr hlo)))

theorem running_of_fld {s t : State} (h : t.fld .FWU_STATE_RUNNING = s.fld .FWU_STATE_RUNNING) : t.flag .FWU_STATE_RUNNING = s.flag .FWU_STATE_RUNNING :=
  congrArg (fun x => x == 1) h

theorem other_congr {s t : State} (hsec : s.sec = t.sec) (hrun : t.fld .FWU_STATE_RUNNING = s.fld .FWU_STATE_RUNNING) : t.other = s.other := by
  unfold State.other
  rw [running_of_fld hrun, hsec]

/-- A write of the other slot goes to its record, its version register and the REJECTED bit. -/
theorem setOther_eq (s : State) (x : Image) : ∃ (f : Sec → Sec) (g : Reg) (v : BitVec 32), (g = .FWU_VER_A ∨ g = .FWU_VER_B)
    ∧ s.setOther x = ((s.onSec f).setWord g 0 0 v).setFld .FWU_STATE_REJECTED (b2n x.rejected)
    ∧ (if s.flag .FWU_STATE_RUNNING then (f s.sec).imgA else (f s.sec).imgB) = x := by
  have h (u : State) : (if u.flag .FWU_STATE_RUNNING then u.setWord .FWU_VER_A 0 0 (BitVec.ofNat 32 (if x.present then x.version else 0))
      else u.setWord .FWU_VER_B 0 0 (BitVec.ofNat 32 (if x.present then x.version else 0)))
      = u.setWord (if u.flag .FWU_STATE_RUNNING then .FWU_VER_A else .FWU_VER_B) 0 0 (BitVec.ofNat 32 (if x.present then x.version else 0)) := by
    split <;> rfl
  unfold State.setOther
  dsimp only
  rw [h]
  refine ⟨_, _, _, ?_, rfl, ?_⟩
  · exact ite_eq_or_eq _ _ _
  · cases s.flag .FWU_STATE_RUNNING <;> rfl

/-- A write of the other slot: the slot, and the registers that show it. -/
theorem setOther_spec (s : State) (x : Image) : let t := s.setOther x
    t.other = x ∧ t.fld .FWU_STATE_RUNNING = s.fld .FWU_STATE_RUNNING ∧ s.sameBut t [.sec, .regs]
      ∧ ∀ g : Reg, (∀ k ∈ [Reg.FWU_VER_A, .FWU_VER_B, .FWU_STATE], g.key 0 0 ≠ k.key 0 0) → t.word g = s.word g := by
  obtain ⟨f, r, v, hr, ht, hx⟩ := setOther_eq s x
  rw [ht]
  have hver : ∀ k : Reg, k.key 0 0 ≠ Reg.FWU_VER_A.key 0 0 → k.key 0 0 ≠ Reg.FWU_VER_B.key 0 0 → k.key 0 0 ≠ r.key 0 0 := fun k ha hb => by
    rcases hr with rfl | rfl
    · exact ha
    · exact hb
  have hfld : (((s.onSec f).setWord r 0 0 v).setFld .FWU_STATE_REJECTED (b2n x.rejected)).fld .FWU_STATE_RUNNING = s.fld .FWU_STATE_RUNNING :=
    (State.fld_setFld_of_disjoint _ _ _ _ (by rfl) (Fld.fits_of_le (by decide)) (by decide)).trans (State.fld_setWord_of_ne _ _ (hver _ (by decide) (by decide)))
  refine ⟨?_, hfld, sameBut_trans (sameBut_sec _ _ _ (by decide)) (sameBut_trans (sameBut_setWord _ _ _ _ _ _ (by decide)) (sameBut_setFld _ _ _ _ _ _ (by decide))),
    fun g hg => (word_setFld_ne (hg _ (by decide))).trans (State.word_setWord_of_ne _ _ (hver g (hg _ (by decide)) (hg _ (by decide))))⟩
  rw [State.other, running_of_fld hfld]
  exact hx

/-- An update that ends with an error (R411). -/
theorem fwuFail_spec (s : State) {err : Nat} (herr : err < 256) : let t := s.fwuFail err
    t.fwuSt = fwuIdle ∧ t.fld .FWU_STATE_ERR = err ∧ t.other = s.other ∧ t.stsBit .FWU_STS 4 = true ∧ s.sameBut t eventParts := by
  obtain ⟨hst, herr', hsame, -⟩ := fwuEnter_spec s (st := fwuIdle) (by decide) herr
  have hsts : (s.fwuEnter fwuIdle err).sameBut (s.fwuFail err) eventParts := sameBut_sts _ _ _ _ (List.Subset.refl _)
  have hall := sameBut_trans hsame hsts
  refine ⟨(fld_setSts _ (by decide)).trans hst, (fld_setSts _ (by decide)).trans herr', other_congr (hall .sec (by decide)) ?_, stsBit_setSts _ (by decide), hall⟩
  exact (fld_setSts _ (by decide)).trans (fwuEnter_keep _ _ _ rfl (Fld.fits_of_le (by decide)) (by decide) (by decide))

/-- An update that ends with an error and an empty slot (R411). -/
theorem fwuEmptyFail_spec (s : State) {err : Nat} (herr : err < 256) : let t := s.fwuEmpty.fwuFail err
    t.fwuSt = fwuIdle ∧ t.fld .FWU_STATE_ERR = err ∧ t.other = {} ∧ t.stsBit .FWU_STS 4 = true := by
  obtain ⟨hst, herr', hother, hsts, -⟩ := fwuFail_spec s.fwuEmpty herr
  exact ⟨hst, herr', hother.trans (setOther_spec s {}).1, hsts⟩

/-! ### LOAD, ABORT, VERIFY and APPLY (R411) -/

theorem exec_load {w : Win} {s : State} (hw : ∀ r, w ≠ .realm r) (hup : s.pageUp 14 = true) : exec (.load w) s = .next s.fwuLoad := congrArg _ (direct_open _ hw hup)

theorem exec_fwuAbort {w : Win} {s : State} (hw : ∀ r, w ≠ .realm r) (hup : s.pageUp 14 = true) : exec (.fwuAbort w) s = .next s.fwuAbort :=
  congrArg _ (direct_open _ hw hup)

/-- The address of FWU_SRC, before it is cut to a multiple of 4 KiB. -/
def State.fwuSrc (s : State) : Nat := (s.word .FWU_SRC_LO).toNat + (s.word .FWU_SRC_HI).toNat * 2 ^ 32

theorem load_spec {s : State} (hst : s.fwuSt = fwuIdle) (hsrc : s.fwuSrc / 4096 ≠ 0) : let t := s.fwuLoad
    t.fwuSt = fwuVerify ∧ t.fld .FWU_STATE_ERR = 0 ∧ t.sec.src = s.fwuSrc / 4096 * 4096 ∧ t.sec.size = s.fld .FWU_SRC_BYTES_BYTES ∧ s.sameBut t (.sec :: eventParts) := by
  let u := s.onSec (fun x => { x with src := s.fwuSrc / 4096 * 4096, size := s.fld .FWU_SRC_BYTES_BYTES, header := [] })
  have ht : s.fwuLoad = u.fwuEnter fwuVerify 0 := if_neg (not_or.2 ⟨not_not_intro hst, Nat.mul_ne_zero hsrc (by decide)⟩)
  obtain ⟨hst', herr, hsame, -⟩ := fwuEnter_spec u (st := fwuVerify) (err := 0) (by decide) (by decide)
  rw [ht]
  have hsec := hsame .sec (by decide)
  exact ⟨hst', herr, congrArg Sec.src hsec.symm, congrArg Sec.size hsec.symm, sameBut_trans (sameBut_sec _ _ _ (by decide)) (sameBut_mono hsame (by decide))⟩

theorem fwuAbort_of_running {s : State} (h1 : 1 ≤ s.fwuSt) (h4 : s.fwuSt ≤ 4) : s.fwuAbort = s.fwuEmpty.fwuFail errAbort := by
  refine if_pos ?_
  obtain h | h | h | h : s.fwuSt = 1 ∨ s.fwuSt = 2 ∨ s.fwuSt = 3 ∨ s.fwuSt = 4 := by omega
  all_goals rw [h]; decide

theorem fwuAbort_of_other {s : State} (h : 5 ≤ s.fwuSt ∨ s.fwuSt = 0) : s.fwuAbort = s := by
  refine if_neg ?_
  simp only [List.contains_eq_mem, List.mem_cons, List.not_mem_nil, or_false, decide_eq_true_eq, fwuVerify, fwuApply, fwuCheck, fwuStaged]
  omega

theorem fwuUp_open {s : State} (f : State → State) (h : s.pageUp 14 = true) : s.fwuUp f = .next (f s) := congrArg _ (if_pos h)

theorem fwuVerifyErr_lt (s : State) (b : List Nat) : s.fwuVerifyErr b < 256 := by
  unfold State.fwuVerifyErr
  dsimp only
  split
  · decide
  split
  · decide
  split
  · decide
  split
  · decide
  split <;> decide

theorem exec_verifyDone {s : State} (err : Bool) (hup : s.pageUp 14 = true) (hst : s.fwuSt = fwuVerify) :
    exec (.verifyDone err) s = .next (if err then s.fwuFail errRead
      else if s.fwuVerifyErr (s.bytes (hostBase + s.sec.src) 256) ≠ 0 then s.fwuFail (s.fwuVerifyErr (s.bytes (hostBase + s.sec.src) 256))
      else (s.onSec (fun x => { x with header := s.bytes (hostBase + s.sec.src) 256 })).fwuEnter fwuApply 0) := by
  change execVerifyDone err s = _
  rw [execVerifyDone, fwuUp_open _ hup, if_neg (not_not_intro hst)]

theorem verify_passes {s : State} (hup : s.pageUp 14 = true) (hst : s.fwuSt = fwuVerify) (hok : s.fwuVerifyErr (s.bytes (hostBase + s.sec.src) 256) = 0) :
    ∃ t, exec (.verifyDone false) s = .next t ∧ t.fwuSt = fwuApply ∧ t.sec.header = s.bytes (hostBase + s.sec.src) 256 := by
  have hexec := (exec_verifyDone false hup hst).trans (congrArg _ ((if_neg (by decide)).trans (if_neg (not_not_intro hok))))
  generalize s.bytes (hostBase + s.sec.src) 256 = b at hexec ⊢
  obtain ⟨hst', -, hsame, -⟩ := fwuEnter_spec (s.onSec (fun x => { x with header := b })) (st := fwuApply) (err := 0) (by decide) (by decide)
  exact ⟨_, hexec, hst', congrArg Sec.header (hsame .sec (by decide)).symm⟩

/-- What a body that opens to `x` leads to (R410, R411). -/
def State.applied (s : State) (h x meas : List Nat) (size ucode : Nat) : State :=
  let full := fieldOf h 5 1 == 1
  let m := if full then sha256 x else meas
  let v := s.imageWritten (if full then x.length else size)
  if m ≠ (h.drop 0x40).take 32 then v.fwuEmpty.fwuFail errMeas
  else (((v.setOther { version := fieldOf h 12 4, meas := some m, svn := fieldOf h 6 1, ucode := ucode % 2 ^ 32, present := true }).fwuEnter fwuStaged 0).setSts
    .FWU_STS [0]).recoveryStart

theorem exec_applyDone {meas : List Nat} {size ucode : Nat} {s : State} {p : Option (List Nat)} (hup : s.pageUp 14 = true) (hst : s.fwuSt = fwuApply)
    (hp : p = gcmOpen (beBytes 32 (Config.secret 1)) ((s.sec.header.drop 0x60).take 12) (s.sec.header.take 0x70)
      ((s.fwuEnter fwuCheck 0).bytes (hostBase + s.sec.src + 256) (fieldOf s.sec.header 16 8)) ((s.sec.header.drop 0x70).take 16)) :
    exec (.applyDone false meas size ucode) s = .next (match (generalizing := false) p with
      | none => (s.fwuEnter fwuCheck 0).fwuEmpty.fwuFail errTag
      | some x => (s.fwuEnter fwuCheck 0).applied s.sec.header x meas size ucode) := by
  have hsrc : (s.fwuEnter fwuCheck 0).sec.src = s.sec.src := congrArg Sec.src ((fwuEnter_spec s (by decide) (by decide)).2.2.1 .sec (by decide)).symm
  change execApplyDone false meas size ucode s = _
  rw [execApplyDone, fwuUp_open _ hup, if_neg (not_not_intro hst), if_neg (by decide)]
  dsimp only
  rw [hsrc, ← hp]
  cases p with
  | none => rfl
  | some x => rfl

theorem exec_applyDone_unread {meas : List Nat} {size ucode : Nat} {s : State} (hup : s.pageUp 14 = true) (hst : s.fwuSt = fwuApply) :
    exec (.applyDone true meas size ucode) s = .next (s.fwuEmpty.fwuFail errRead) := by
  change execApplyDone true meas size ucode s = _
  rw [execApplyDone, fwuUp_open _ hup, if_neg (not_not_intro hst), if_pos rfl]

/-- The Drawer's budgets as their registers show them. -/
theorem drawerShow_spec (s : State) : s.sameBut s.drawerShow [.regs]
    ∧ ∀ g : Reg, (∀ k ∈ [Reg.FWU_DRAWER_WR, .FWU_DRAWER_LEFT], g.key 0 0 ≠ k.key 0 0) → s.drawerShow.word g = s.word g :=
  ⟨sameBut_trans (sameBut_setFld _ _ _ _ _ _ (by decide)) (sameBut_trans (sameBut_setFld _ _ _ _ _ _ (by decide)) (sameBut_setFld _ _ _ _ _ _ (by decide))),
    fun _ hg => (word_setFld_ne (f := .FWU_DRAWER_LEFT_MODEL_GIB) (hg _ (by decide))).trans ((word_setFld_ne (f := .FWU_DRAWER_LEFT_SPILL_GIB) (hg _ (by decide))).trans
      (word_setFld_ne (f := .FWU_DRAWER_WR_GIB) (hg _ (by decide))))⟩

/-- A full image whose measurement is the header's is STAGED, outside RECOVERY (R411). -/
theorem applied_staged {s : State} {h x : List Nat} (meas : List Nat) (size ucode : Nat) (hfull : fieldOf h 5 1 = 1) (hmeas : sha256 x = (h.drop 0x40).take 32)
    (hstage : s.fld .GLB_STATE_STAGE ≠ 5) : let t := s.applied h x meas size ucode
    t.fwuSt = fwuStaged ∧ t.stsBit .FWU_STS 0 = true
      ∧ t.other = { version := fieldOf h 12 4, meas := some (sha256 x), svn := fieldOf h 6 1, ucode := ucode % 2 ^ 32, present := true } := by
  let v := s.imageWritten x.length
  let i : Image := { version := fieldOf h 12 4, meas := some (sha256 x), svn := fieldOf h 6 1, ucode := ucode % 2 ^ 32, present := true }
  let w := (v.setOther i).fwuEnter fwuStaged 0
  let t := w.setSts .FWU_STS [0]
  obtain ⟨hother, hrun, -, hword⟩ := setOther_spec v i
  obtain ⟨hst, -, hsame, hkeep⟩ := fwuEnter_spec (v.setOther i) (st := fwuStaged) (err := 0) (by decide) (by decide)
  have hv : v.word .GLB_STATE = s.word .GLB_STATE := (drawerShow_spec _).2 .GLB_STATE (by decide)
  have hglb : t.word .GLB_STATE = s.word .GLB_STATE :=
    (word_setSts _ (by decide)).trans ((hkeep .GLB_STATE (by decide) (by decide)).trans ((hword .GLB_STATE (by decide)).trans hv))
  have happ : s.applied h x meas size ucode = t := by
    unfold State.applied
    simp only [hfull, BEq.rfl, ↓reduceIte]
    rw [if_neg (not_not_intro hmeas)]
    refine if_neg (fun h5 => hstage ?_)
    exact (congrArg (Fld.of .GLB_STATE_STAGE) hglb).symm.trans h5
  intro t'
  rw [show t' = t from happ]
  refine ⟨(fld_setSts _ (by decide)).trans hst, stsBit_setSts _ (by decide), (other_congr ?_ ?_).trans hother⟩
  · exact (hsame .sec (by decide)).trans (sameBut_sts .FWU_STS [0] 0 eventParts (List.Subset.refl _) .sec (by decide))
  · exact (fld_setSts _ (by decide)).trans (fwuEnter_keep _ _ _ rfl (Fld.fits_of_le (by decide)) (by decide) (by decide))

theorem applied_mismatch {s : State} {h x : List Nat} (meas : List Nat) (size ucode : Nat) (hfull : fieldOf h 5 1 = 1) (hmeas : sha256 x ≠ (h.drop 0x40).take 32) :
    s.applied h x meas size ucode = (s.imageWritten x.length).fwuEmpty.fwuFail errMeas := by
  unfold State.applied
  simp only [hfull, BEq.rfl, ↓reduceIte]
  exact if_pos hmeas

/-! ### Starting an image, confirmation and fall-back (R411-R416) -/

/-- An image that starts in a module whose lane is off. -/
theorem startOther_spec (s : State) (swapAt : Nat) (hen : s.flag .CTL_CTRL_LANE_EN = false) : let t := s.startOther swapAt
    t.fld .FWU_STATE_RUNNING = 1 - s.fld .FWU_STATE_RUNNING ∧ s.sameBut t [.regs, .flt, .sec, .tiles] := by
  let u := ((s.setFld .FWU_STATE_RUNNING (1 - s.fld .FWU_STATE_RUNNING)).setWord .GLB_FW_VER 0 0 (BitVec.ofNat 32 s.other.version)).onFlt
    (fun f => { f with mpDown := true })
  let v := u.onSec (fun x => { x with planned := true })
  let w := (List.range 153).foldl (fun t p => t.setTile p { t.tile p with nextUcode := some s.other.ucode, passed := false }) v
  have hw : v.sameBut w [.tiles] := sameBut_foldl _ (fun _ _ => sameBut_setTile _ _ _ (by decide)) _ _
  have hregs : w.regs = v.regs := (hw .regs (by decide)).symm
  have hword : ∀ g, w.word g = v.word g := fun g => by
    unfold State.word
    rw [hregs]
  have hlane : w.word .CTL_CTRL = s.word .CTL_CTRL := (hword _).trans ((State.word_setWord_of_ne _ _ (by decide)).trans (word_setFld_ne (by decide)))
  have ht : s.startOther swapAt = w := if_neg (by
    rw [Bool.not_eq_true]
    exact (congrArg (fun x => Fld.of .CTL_CTRL_LANE_EN x == 1) hlane).trans hen)
  have hlt : 1 - s.fld .FWU_STATE_RUNNING < 2 ^ Fld.width .FWU_STATE_RUNNING := by
    change 1 - s.fld .FWU_STATE_RUNNING < 2
    omega
  rw [ht]
  refine ⟨(congrArg (Fld.of .FWU_STATE_RUNNING) (hword .FWU_STATE)).trans ?_, ?_⟩
  · exact (State.fld_setWord_of_ne _ _ (by decide)).trans (fld_setFld_lt s .FWU_STATE_RUNNING _ 0 0 (Fld.fits_of_le (by decide)) hlt)
  · exact sameBut_trans (sameBut_setFld _ _ _ _ _ _ (by decide)) (sameBut_trans (sameBut_setWord _ _ _ _ _ _ (by decide)) (sameBut_trans (sameBut_onFlt _ _ (by decide))
      (sameBut_trans (sameBut_sec _ _ _ (by decide)) (sameBut_mono hw (by decide)))))

theorem confirmWindow_lt (s : State) : s.confirmWindow < 2 ^ 16 := by
  unfold State.confirmWindow
  split
  · decide
  · exact Nat.mod_lt _ (by decide)

/-- The armed count has come: the registers and the Gauge as the new image finds them. -/
theorem trialBegin_spec (s : State) : let t := s.trialBegin
    t.gauge = max s.gauge s.sec.count ∧ ∀ g : Reg, (∀ k ∈ [Reg.FWU_SETTINGS, .FWU_ACT_LO, .FWU_ACT_HI], g.key 0 0 ≠ k.key 0 0) → t.word g = s.word g :=
  ⟨rfl, fun _ hg => (State.word_setWord_of_ne _ _ (hg _ (by decide))).trans ((State.word_setWord_of_ne _ _ (hg _ (by decide))).trans
    (word_setFld_ne (f := .FWU_SETTINGS_OLD_KEPT) (hg _ (by decide))))⟩

/-- ACTIVATION at the armed count (R411, R413). -/
theorem activation_spec {s : State} (hup : s.up = true) (hst : s.fwuSt = fwuArmed) : ∃ t, exec .activation s = .next t ∧ t.fwuSt = fwuTrial ∧ t.stsBit .FWU_STS 1 = true
    ∧ t.fld .FWU_STATE_LEFT = s.confirmWindow
    ∧ (s.flag .CTL_CTRL_LANE_EN = false → t.fld .FWU_STATE_RUNNING = 1 - s.fld .FWU_STATE_RUNNING ∧ t.gauge = max s.gauge s.sec.count) := by
  let swapAt := if s.fld .FWU_LANE_SWAP_DELAY = 0 then 0 else s.sec.count + s.fld .FWU_LANE_SWAP_DELAY * 2 ^ 16
  have hexec : exec .activation s = .next ((((s.trialBegin.startOther swapAt).setFld .FWU_STATE_LEFT s.confirmWindow).fwuEnter fwuTrial 0).setSts .FWU_STS [1]) := by
    change execActivation s = _
    rw [execActivation, whenUp_of_up _ hup, if_neg (not_not_intro hst)]
  obtain ⟨hgauge, hword⟩ := trialBegin_spec s
  have hstart := startOther_spec s.trialBegin swapAt
  generalize s.trialBegin.startOther swapAt = u at hexec hstart
  obtain ⟨htrial, -, hsame, -⟩ := fwuEnter_spec (u.setFld .FWU_STATE_LEFT s.confirmWindow) (st := fwuTrial) (err := 0) (by decide) (by decide)
  refine ⟨_, hexec, (fld_setSts _ (by decide)).trans htrial, stsBit_setSts _ (by decide), ?_, fun hen => ?_⟩
  · exact (fld_setSts _ (by decide)).trans ((fwuEnter_keep _ _ _ rfl (Fld.fits_of_le (by decide)) (by decide) (by decide)).trans
      (fld_setFld_lt _ _ _ _ _ (Fld.fits_of_le (by decide)) (confirmWindow_lt s)))
  · obtain ⟨hrun, hsu⟩ := hstart ((congrArg (fun x => Fld.of .CTL_CTRL_LANE_EN x == 1) (hword .CTL_CTRL (by decide))).trans hen)
    have hrun' : s.trialBegin.fld .FWU_STATE_RUNNING = s.fld .FWU_STATE_RUNNING := congrArg (Fld.of .FWU_STATE_RUNNING) (hword .FWU_STATE (by decide))
    refine ⟨?_, ?_⟩
    · rw [hrun'] at hrun
      exact (fld_setSts _ (by decide)).trans ((fwuEnter_keep _ _ _ rfl (Fld.fits_of_le (by decide)) (by decide) (by decide)).trans
        ((State.fld_setFld_of_disjoint _ _ _ _ (by rfl) (Fld.fits_of_le (by decide)) (by decide)).trans hrun))
    · exact ((sameBut_trans hsame (sameBut_sts .FWU_STS [1] 0 eventParts (List.Subset.refl _))) .gauge (by decide)).symm.trans
        ((hsu .gauge (by decide)).symm.trans hgauge)

/-- MICROCODE_LOAD by the tile's state (R413). -/
theorem exec_microcodeLoad {p u : Nat} {s : State} (hup : s.up = true) (hp : p < 153) (hnext : (s.tile p).nextUcode = some u) :
    exec (.microcodeLoad p) s = .next (if (s.tile p).st ≠ .idle ∨ s.earlierWaits p = true then s
      else (s.setTile p { s.tile p with nextUcode := none, passed := false }).setWord .TIL_UCODE_ID p 0 (BitVec.ofNat 32 u)) := by
  change execMicrocodeLoad p s = _
  rw [execMicrocodeLoad, whenUp_of_up _ hup]
  dsimp only
  rw [hnext]
  dsimp only
  by_cases h : (s.tile p).st ≠ .idle ∨ s.earlierWaits p = true
  · rw [if_pos (.inr h), if_pos h]
  · rw [if_neg (not_or.2 ⟨Nat.not_le.2 hp, h⟩), if_neg h]

/-- CONFIRM (R411, R414). -/
theorem confirm_spec {s : State} (hup : s.up = true) (hmay : s.mayConfirm = true) : ∃ t, exec .confirm s = .next t ∧ t.fwuSt = fwuIdle
    ∧ t.fld .SEC_ID_SVN = s.running.svn % 256 ∧ t.flag .FWU_SETTINGS_OLD_KEPT = false ∧ t.stsBit .FWU_STS 2 = true := by
  let u := s.setFld .SEC_ID_SVN (s.running.svn % 256)
  let v := u.setFld .FWU_SETTINGS_OLD_KEPT (b2n false)
  let w := v.setFld .FWU_STATE_LEFT 0
  obtain ⟨hidle, -, -, hkeep⟩ := fwuEnter_spec w (st := fwuIdle) (err := 0) (by decide) (by decide)
  have hword : ∀ g : Reg, g.key 0 0 ≠ Reg.FWU_STATE.key 0 0 → (∀ q < 4, g.key 0 0 ≠ Reg.RING_EQ_DROP.key q 0) →
      ((w.fwuEnter fwuIdle 0).setSts .FWU_STS [2]).word g = v.word g := fun g hg hdrop =>
    (word_setSts _ hdrop).trans ((hkeep g hg hdrop).trans (word_setFld_ne (f := .FWU_STATE_LEFT) hg))
  refine ⟨(w.fwuEnter fwuIdle 0).setSts .FWU_STS [2], ?_, (fld_setSts _ (by decide)).trans hidle, ?_, ?_, stsBit_setSts _ (by decide)⟩
  · change execConfirm s = _
    rw [execConfirm, whenUp_of_up _ hup, if_neg (by rw [hmay]; decide)]
    rfl
  · exact (congrArg (Fld.of .SEC_ID_SVN) (hword .SEC_ID (by decide) (by decide))).trans ((State.fld_setFld_of_ne _ _ _ _ (by decide)).trans
      (fld_setFld_lt s .SEC_ID_SVN _ 0 0 (Fld.fits_of_le (by decide)) (Nat.mod_lt _ (by decide))))
  · exact (congrArg (fun x => Fld.of .FWU_SETTINGS_OLD_KEPT x == 1) (hword .FWU_SETTINGS (by decide) (by decide))).trans
      (flag_setFld_self u false 0 0 (Fld.fits_of_le (by decide)) (by decide))

/-- The end of the window without confirmation (R411). -/
theorem confirmWindowExpiry_spec {s : State} (hup : s.up = true) (hst : s.fwuSt = fwuTrial) : ∃ t, exec .confirmWindowExpiry s = .next t ∧ t.fwuSt = fwuFallback
    ∧ t.gauge = max s.gauge (s.sec.count + s.sec.window * secondGt) := by
  let u : State := { s with gauge := max s.gauge (s.sec.count + s.sec.window * secondGt) }
  obtain ⟨hfall, -, hsame, -⟩ := fwuEnter_spec (u.setFld .FWU_STATE_LEFT 0) (st := fwuFallback) (err := 0) (by decide) (by decide)
  refine ⟨(u.setFld .FWU_STATE_LEFT 0).fwuEnter fwuFallback 0, ?_, hfall, (hsame .gauge (by decide)).symm⟩
  change execConfirmWindowExpiry s = _
  rw [execConfirmWindowExpiry, whenUp_of_up _ hup, if_neg (not_not_intro hst)]

/-- The old image returns and the other is rejected (R415, R416). -/
theorem oldReturns_spec (s : State) (hen : s.flag .CTL_CTRL_LANE_EN = false) : let t := s.oldReturns
    t.fwuSt = fwuIdle ∧ t.fld .FWU_STATE_ERR = errFallback ∧ t.fld .FWU_STATE_RUNNING = 1 - s.fld .FWU_STATE_RUNNING ∧ t.other.rejected = true := by
  obtain ⟨hrun, -⟩ := startOther_spec s 0 hen
  unfold State.oldReturns
  dsimp only
  generalize s.startOther 0 = u at hrun ⊢
  obtain ⟨hother, hrunv, -, -⟩ := setOther_spec u { u.other with rejected := true }
  generalize u.setOther { u.other with rejected := true } = v at hother hrunv ⊢
  have hotherw : (v.onSec (fun x => { x with migrating := false })).other = v.other := rfl
  generalize hw : v.onSec (fun x => { x with migrating := false }) = w at hotherw ⊢
  have hrunw : w.fld .FWU_STATE_RUNNING = v.fld .FWU_STATE_RUNNING := by rw [← hw]; rfl
  let y := ((w.setFld .FWU_SETTINGS_VERSION w.sec.oldSettings).setFld .FWU_SETTINGS_OLD_KEPT 0).setFld .FWU_STATE_LEFT 0
  have hruny : y.fld .FWU_STATE_RUNNING = w.fld .FWU_STATE_RUNNING := (State.fld_setFld_of_disjoint _ _ _ _ (by rfl) (Fld.fits_of_le (by decide)) (by decide)).trans
    ((State.fld_setFld_of_ne _ _ _ _ (by decide)).trans (State.fld_setFld_of_ne _ _ _ _ (by decide)))
  have hsec : w.sec = y.sec := rfl
  obtain ⟨hidle, herr, hsame, -⟩ := fwuEnter_spec y (st := fwuIdle) (err := errFallback) (by decide) (by decide)
  have hrunt : (y.fwuEnter fwuIdle errFallback).fld .FWU_STATE_RUNNING = w.fld .FWU_STATE_RUNNING :=
    (fwuEnter_keep _ _ _ rfl (Fld.fits_of_le (by decide)) (by decide) (by decide)).trans hruny
  refine ⟨hidle, herr, hrunt.trans (hrunw.trans (hrunv.trans hrun)), ?_⟩
  rw [other_congr (hsec.trans (hsame .sec (by decide))) hrunt, hotherw, hother]

/-- The FALLBACK event leaves the update as it stands and sets its status bit (R415). -/
theorem fellBack_spec (s : State) (left : Nat) : let t := s.fellBack left
    t.word .FWU_STATE = s.word .FWU_STATE ∧ t.sec = s.sec ∧ t.stsBit .FWU_STS 3 = true := by
  unfold State.fellBack
  dsimp only
  have hsec : s.draw.2.sec = s.sec := rfl
  have hword : s.draw.2.word .FWU_STATE = s.word .FWU_STATE := rfl
  generalize s.draw.2 = u at hsec hword ⊢
  generalize left + (u.word .GLB_FW_VER).toNat * 2 ^ 32 + s.draw.1 % 256 * 2 ^ 64 = p
  exact ⟨(word_setSts _ (by decide)).trans ((word_emit _ (by decide)).trans hword),
    ((sameBut_trans (sameBut_emit (s := u) 0 0x70 8 mgmtRealm p eventParts (List.Subset.refl _)) (sameBut_sts .FWU_STS [3, 4] 0 eventParts (List.Subset.refl _)))
      .sec (by decide)).symm.trans hsec, stsBit_setSts _ (by decide)⟩

/-- FALLBACK at a safe point of a module whose lane is off (R415). -/
theorem fallback_spec {s : State} (lost : Bool) (hup : s.up = true) (hst : s.fwuSt = fwuFallback) (hsafe : s.safePoint = true) (hen : s.flag .CTL_CTRL_LANE_EN = false) :
    ∃ t, exec (.fallback lost) s = .next t ∧ t.fwuSt = fwuIdle ∧ t.fld .FWU_STATE_ERR = errFallback
      ∧ t.fld .FWU_STATE_RUNNING = 1 - s.fld .FWU_STATE_RUNNING ∧ t.stsBit .FWU_STS 3 = true ∧ t.other.rejected = true := by
  have hexec : exec (.fallback lost) s = .next (if lost then (s.oldReturns.fellBack (s.word .GLB_FW_VER).toNat).emit 0 0x70 9 mgmtRealm
      ((s.oldReturns.fellBack (s.word .GLB_FW_VER).toNat).fld .FWU_SETTINGS_VERSION + 2 ^ 16) else s.oldReturns.fellBack (s.word .GLB_FW_VER).toNat) := by
    change execFallback lost s = _
    rw [execFallback, whenUp_of_up _ hup, if_neg (by rw [hsafe]; exact not_or.2 ⟨not_not_intro hst, by decide⟩)]
  obtain ⟨hidle, herr, hrun, hrej⟩ := oldReturns_spec s hen
  obtain ⟨hword, hsec, hsts⟩ := fellBack_spec s.oldReturns (s.word .GLB_FW_VER).toNat
  generalize s.oldReturns.fellBack (s.word .GLB_FW_VER).toNat = u at hexec hword hsec hsts
  have key : ∀ t : State, t.word .FWU_STATE = u.word .FWU_STATE → t.sec = u.sec → t.fwuSt = fwuIdle ∧ t.fld .FWU_STATE_ERR = errFallback
      ∧ t.fld .FWU_STATE_RUNNING = 1 - s.fld .FWU_STATE_RUNNING ∧ t.other.rejected = true := fun t ht hts => by
    have hf := ht.trans hword
    refine ⟨(congrArg (Fld.of .FWU_STATE_STATE) hf).trans hidle, (congrArg (Fld.of .FWU_STATE_ERR) hf).trans herr, (congrArg (Fld.of .FWU_STATE_RUNNING) hf).trans hrun, ?_⟩
    rw [other_congr (s := s.oldReturns) (hts.trans hsec).symm (congrArg (Fld.of .FWU_STATE_RUNNING) hf)]
    exact hrej
  cases lost with
  | false =>
    rw [if_neg (by decide)] at hexec
    obtain ⟨h1, h2, h3, h4⟩ := key u rfl rfl
    exact ⟨u, hexec, h1, h2, h3, hsts, h4⟩
  | true =>
    rw [if_pos rfl] at hexec
    obtain ⟨h1, h2, h3, h4⟩ := key _ (word_emit u (by decide)) ((sameBut_emit _ _ _ _ _ eventParts (List.Subset.refl _)) .sec (by decide)).symm
    exact ⟨_, hexec, h1, h2, h3, stsBit_emit _ hsts, h4⟩

/-- Settles O44: the update's states by the branch that each command takes in its state. -/
theorem updatesRunTheirStates : Obligations.UpdatesRunTheirStates := by
  refine ⟨fun w s hw hup => ⟨fun hst hsrc => ⟨_, exec_load hw hup, load_spec hst hsrc⟩, fun hst => (exec_load hw hup).trans (congrArg _ (if_pos (.inl hst))), fun h1 h4 => ?_,
      fun h => (exec_fwuAbort hw hup).trans (congrArg _ (fwuAbort_of_other h))⟩,
    fun s hup hst => ⟨?_, fun herr => ?_, verify_passes hup hst⟩,
    fun meas size ucode s p hup hst hp => ⟨⟨_, exec_applyDone_unread hup hst, ?_⟩, fun hnone => ?_, fun x hx hfull => ⟨fun hmeas => ?_, fun hmeas hstage => ?_⟩⟩,
    fun s => activation_spec, fun p u s hup hp hnext => ⟨fun hst hwait => ?_, fun h => (exec_microcodeLoad hup hp hnext).trans (congrArg _ (if_pos h))⟩,
    fun s hup => ⟨confirm_spec hup, fun hmay => ?_, confirmWindowExpiry_spec hup, fun lost => fallback_spec lost hup, ?_⟩⟩
  · exact ⟨_, (exec_fwuAbort hw hup).trans (congrArg _ (fwuAbort_of_running h1 h4)), fwuEmptyFail_spec s (by decide)⟩
  · obtain ⟨hidle, herr, -⟩ := fwuFail_spec s (err := errRead) (by decide)
    exact ⟨_, (exec_verifyDone true hup hst).trans (congrArg _ (if_pos rfl)), hidle, herr⟩
  · obtain ⟨hidle, herr', -⟩ := fwuFail_spec s (fwuVerifyErr_lt s (s.bytes (hostBase + s.sec.src) 256))
    exact ⟨_, (exec_verifyDone false hup hst).trans (congrArg _ ((if_neg (by decide)).trans (if_pos herr))), hidle, herr'⟩
  · obtain ⟨hidle, herr, hother, -⟩ := fwuEmptyFail_spec s (err := errRead) (by decide)
    exact ⟨hidle, herr, hother⟩
  · have hexec := exec_applyDone (meas := meas) (size := size) (ucode := ucode) hup hst hp
    rw [hnone] at hexec
    obtain ⟨hidle, herr, hother, -⟩ := fwuEmptyFail_spec (s.fwuEnter fwuCheck 0) (err := errTag) (by decide)
    exact ⟨_, hexec, hidle, herr, hother⟩
  · have hexec := exec_applyDone (meas := meas) (size := size) (ucode := ucode) hup hst hp
    rw [hx] at hexec
    obtain ⟨hidle, herr, hother, -⟩ := fwuEmptyFail_spec ((s.fwuEnter fwuCheck 0).imageWritten x.length) (err := errMeas) (by decide)
    exact ⟨_, hexec.trans (congrArg _ (applied_mismatch meas size ucode hfull hmeas)), hidle, herr, hother⟩
  · have hexec := exec_applyDone (meas := meas) (size := size) (ucode := ucode) hup hst hp
    rw [hx] at hexec
    have hglb := (fwuEnter_spec s (st := fwuCheck) (err := 0) (by decide) (by decide)).2.2.2 .GLB_STATE (by decide) (by decide)
    exact ⟨_, hexec, applied_staged meas size ucode hfull hmeas (fun h => hstage ((congrArg (Fld.of .GLB_STATE_STAGE) hglb).symm.trans h))⟩
  · refine ⟨_, (exec_microcodeLoad hup hp hnext).trans (congrArg _ (if_neg (not_or.2 ⟨not_not_intro hst, by rw [hwait]; decide⟩))), State.word_setWord_self _ _ _ _ _,
      tile_setTile_self s p _, sameBut_trans (sameBut_setTile _ _ _ (by decide)) (sameBut_setWord _ _ _ _ _ _ (by decide))⟩
  · change execConfirm s = _
    rw [execConfirm, whenUp_of_up _ hup, if_pos (by rw [hmay]; rfl)]
  · let spill := accrual * min 256 (s.fld .FWU_DRAWER_CFG_SPILL_SHARE) / 256
    let u : State := { s with drawer := { s.drawer with spill := min (720 * spill) (s.drawer.spill + spill),
                                                        model := min (720 * (accrual - spill)) (s.drawer.model + (accrual - spill)) } }
    obtain ⟨hshow, -⟩ := drawerShow_spec u
    refine ⟨u.drawerShow, ?_, sameBut_trans (fun p hp => ?_) (sameBut_mono hshow (by decide)), congrArg DrawerBudget.spill (hshow .drawer (by decide)).symm⟩
    · change execDrawerAccrual s = _
      rw [execDrawerAccrual, whenUp_of_up _ hup]
    · cases p with
      | drawer => exact absurd (by decide) hp
      | _ => rfl

end Sys2Proof.Machine

/-! SUPPORT. Trims, the frequency monitor, the reference, low power and gates (R423, R425-R428). -/

namespace Sys2Proof.Machine

theorem fld_of_word {s t : State} {f : Fld} {u sel : Nat} (h : t.word f.reg u sel = s.word f.reg u sel) : t.fld f u sel = s.fld f u sel := congrArg f.of h

theorem flag_of_fld {s t : State} {f g : Fld} {u sel : Nat} (h : t.fld f u sel = s.fld g u sel) : t.flag f u sel = s.flag g u sel := congrArg (fun x => x == 1) h

theorem whenClocked_open {s : State} (f : State → State) (hup : s.up = true) (hpll : s.boot.pllStable = true) : s.whenClocked f = .next (f s) :=
  congrArg _ (if_pos (by rw [State.running_, hup, hpll]; rfl))

/-! ### Trims (R426) -/

/-- The source that a trim takes: the tray reference, the chain, or none (R426). -/
def State.trimSrc (s : State) : Nat := if s.flag .CLK_STATE_REF_OK then 1 else if s.flag .CLK_CTRL_TRIM_STAVE && s.chainDelivers then 2 else 0

theorem trimSrc_lt (s : State) : s.trimSrc < 4 := by
  unfold State.trimSrc
  split
  · decide
  · split <;> decide

/-- The code that a trim in the range leads to. -/
def trimStep (dir c : Nat) : Nat := if dir = 1 then c + 1 else if dir = 2 then c - 1 else c

theorem trim_noSource {s : State} (dir : Nat) (ok : Bool) (h : s.trimSrc = 0) : s.trim dir ok = s.setSts .CLK_STS [4] := if_pos h

theorem trimCode_setSrc (s : State) : (s.setFld .CLK_TRIM_SRC s.trimSrc).fld .CLK_TRIM_CODE = s.fld .CLK_TRIM_CODE :=
  State.fld_setFld_of_disjoint _ _ _ _ (by rfl) (Fld.fits_of_le (by decide)) (by decide)

theorem trim_atEnd {s : State} {dir : Nat} (ok : Bool) (h : s.trimSrc ≠ 0) (hend : (dir = 1 ∧ s.fld .CLK_TRIM_CODE = 511) ∨ (dir = 2 ∧ s.fld .CLK_TRIM_CODE = 0)) :
    s.trim dir ok = ((s.setFld .CLK_TRIM_SRC s.trimSrc).setFld .CLK_STATE_RC_TRIMMED (b2n ok)).setSts .CLK_STS [4] := by
  refine (if_neg h).trans (if_pos ?_)
  change (dir = 1 ∧ (s.setFld .CLK_TRIM_SRC s.trimSrc).fld .CLK_TRIM_CODE = 511) ∨ (dir = 2 ∧ (s.setFld .CLK_TRIM_SRC s.trimSrc).fld .CLK_TRIM_CODE = 0)
  rw [trimCode_setSrc]
  exact hend

theorem trim_inRange {s : State} {dir : Nat} (ok : Bool) (h : s.trimSrc ≠ 0) (hend : ¬ ((dir = 1 ∧ s.fld .CLK_TRIM_CODE = 511) ∨ (dir = 2 ∧ s.fld .CLK_TRIM_CODE = 0))) :
    s.trim dir ok = ((s.setFld .CLK_TRIM_SRC s.trimSrc).setFld .CLK_TRIM_CODE (trimStep dir (s.fld .CLK_TRIM_CODE))).setFld .CLK_STATE_RC_TRIMMED (b2n ok) := by
  have hcode := trimCode_setSrc s
  unfold State.trim
  refine (if_neg h).trans ?_
  change (if (dir = 1 ∧ (s.setFld .CLK_TRIM_SRC s.trimSrc).fld .CLK_TRIM_CODE = 511) ∨ (dir = 2 ∧ (s.setFld .CLK_TRIM_SRC s.trimSrc).fld .CLK_TRIM_CODE = 0)
    then _ else ((s.setFld .CLK_TRIM_SRC s.trimSrc).setFld .CLK_TRIM_CODE (trimStep dir ((s.setFld .CLK_TRIM_SRC s.trimSrc).fld .CLK_TRIM_CODE))).setFld
      .CLK_STATE_RC_TRIMMED (b2n ok)) = _
  rw [hcode]
  exact if_neg hend

/-- A trim with no source, or at the end of the code's range, moves nothing and is reported. -/
theorem trim_stays {s : State} {dir : Nat} (ok : Bool) (h : s.trimSrc = 0 ∨ (dir = 1 ∧ s.fld .CLK_TRIM_CODE = 511) ∨ (dir = 2 ∧ s.fld .CLK_TRIM_CODE = 0)) :
    (s.trim dir ok).fld .CLK_TRIM_CODE = s.fld .CLK_TRIM_CODE ∧ (s.trim dir ok).stsBit .CLK_STS 4 = true ∧ s.sameBut (s.trim dir ok) eventParts := by
  by_cases hsrc : s.trimSrc = 0
  · rw [trim_noSource dir ok hsrc]
    exact ⟨fld_setSts _ (by decide), stsBit_setSts _ (by decide), sameBut_sts _ _ _ _ (List.Subset.refl _)⟩
  · rw [trim_atEnd ok hsrc (h.resolve_left hsrc)]
    exact ⟨(fld_setSts _ (by decide)).trans ((State.fld_setFld_of_ne _ _ _ _ (by decide)).trans (trimCode_setSrc s)), stsBit_setSts _ (by decide),
      sameBut_trans (sameBut_setFld _ _ _ _ _ _ (by decide)) (sameBut_trans (sameBut_setFld _ _ _ _ _ _ (by decide)) (sameBut_sts _ _ _ _ (List.Subset.refl _)))⟩

/-- A trim in the range moves the code by its step towards its source. -/
theorem trim_moves {s : State} {dir : Nat} (ok : Bool) (h : s.trimSrc ≠ 0) (hup : dir = 1 → s.fld .CLK_TRIM_CODE < 511) (hdown : dir = 2 → 0 < s.fld .CLK_TRIM_CODE) :
    (s.trim dir ok).fld .CLK_TRIM_SRC = s.trimSrc ∧ (s.trim dir ok).flag .CLK_STATE_RC_TRIMMED = ok ∧ s.sameBut (s.trim dir ok) [.regs]
      ∧ (s.trim dir ok).fld .CLK_TRIM_CODE = trimStep dir (s.fld .CLK_TRIM_CODE) := by
  have hcode : s.fld .CLK_TRIM_CODE < 512 := Fld.of_lt _ _
  have hstep : trimStep dir (s.fld .CLK_TRIM_CODE) < 2 ^ Fld.width .CLK_TRIM_CODE := by
    change trimStep dir (s.fld .CLK_TRIM_CODE) < 512
    unfold trimStep
    split
    · have := hup ‹_›
      omega
    · split <;> omega
  rw [trim_inRange ok h (by omega)]
  refine ⟨?_, flag_setFld_self _ ok _ _ (Fld.fits_of_le (by decide)) (by decide), sameBut_trans (sameBut_setFld _ _ _ _ _ _ (by decide))
    (sameBut_trans (sameBut_setFld _ _ _ _ _ _ (by decide)) (sameBut_setFld _ _ _ _ _ _ (by decide))), ?_⟩
  · exact (State.fld_setFld_of_ne _ _ _ _ (by decide)).trans ((State.fld_setFld_of_disjoint _ _ _ _ (by rfl) (Fld.fits_of_le (by decide)) (by decide)).trans
      (fld_setFld_lt _ _ _ _ _ (Fld.fits_of_le (by decide)) (trimSrc_lt s)))
  · exact (State.fld_setFld_of_ne _ _ _ _ (by decide)).trans (fld_setFld_lt _ _ _ _ _ (Fld.fits_of_le (by decide)) hstep)

/-- RETRIM and the trim of every 10 ms do the same. -/
theorem exec_trims {s : State} {dir : Nat} {ok : Bool} {c : Res} (hup : s.up = true) (hc : c ∈ [exec (.retrim .fw dir ok) s, exec (.rcTrim dir ok) s])
    (hopen : s.openTo 1 0 = true) (hauto : s.flag .CLK_CTRL_AUTO_TRIM = true) : c = .next (s.trim dir ok) := by
  simp only [List.mem_cons, List.not_mem_nil, or_false] at hc
  rcases hc with rfl | rfl
  · exact fw_open s .CLK_CMD 0 1 (fun s => s.trim dir ok) hopen
  · change execRcTrim dir ok s = _
    rw [execRcTrim, whenUp_of_up _ hup, if_pos hauto]

/-! ### The frequency monitor and the reference (R425) -/

/-- The domains of a window that count: all but the Gauge's. -/
def monitored (bad : List Nat) : List Nat := bad.filter (fun d => decide (d < 10) && d != gaugeDomain)

theorem exec_frequencyMonitorWindow {s : State} (bad : List Nat) (hup : s.up = true) (hpll : s.boot.pllStable = true) :
    let u := s.onClk (fun c => { c with lastBad := monitored bad })
    exec (.frequencyMonitorWindow bad) s = .next (if (monitored bad).any (fun d => s.clk.lastBad.contains d)
      then (u.setSts .CLK_STS [3]).report 5 0x0011 4 0 3 u.evRealms 0 else u) := by
  change execFrequencyMonitorWindow bad s = _
  rw [execFrequencyMonitorWindow, whenClocked_open _ hup hpll]
  rfl

theorem refLoss_spec {s : State} (hup : s.up = true) (href : s.flag .CLK_STATE_REF_OK = true) : ∃ t, exec .refLoss s = .next t ∧ t.flag .CLK_STATE_REF_OK = false
    ∧ t.flag .CLK_STATE_HOLDOVER = true ∧ t.stsBit .CLK_STS 0 = true ∧ s.sameBut t reportParts := by
  let u := (s.setFld .CLK_STATE_REF_OK (b2n false)).setFld .CLK_STATE_HOLDOVER (b2n true)
  let v := (u.setSts .CLK_STS [0]).timeEvent 1 1 0
  have hexec : exec .refLoss s = .next (v.report 4 0x0011 4 0 3 (u.setSts .CLK_STS [0]).evRealms 0) := by
    change execRefLoss s = _
    rw [execRefLoss, whenUp_of_up _ hup, if_neg (by rw [href]; decide)]
    rfl
  have hstep := reportStep_report v 4 0x0011 4 0 3 (u.setSts .CLK_STS [0]).evRealms 0 false false none
  have hregs := reportRegs_report v 4 0x0011 4 0 3 (u.setSts .CLK_STS [0]).evRealms 0 false false none
  have hword : v.word .CLK_STATE = u.word .CLK_STATE := (word_emit _ (by decide)).trans (word_setSts _ (by decide))
  have hall := (hregs.word .CLK_STATE 0 0 (by decide) (by decide) (by decide) (by decide)).trans hword
  refine ⟨_, hexec, (flag_of_fld (fld_of_word (f := .CLK_STATE_REF_OK) hall)).trans ?_, (flag_of_fld (fld_of_word (f := .CLK_STATE_HOLDOVER) hall)).trans ?_,
    hregs.sts _ _ _ (stsBit_emit _ (stsBit_setSts _ (by decide))), ?_⟩
  · exact (flag_of_fld (State.fld_setFld_of_disjoint _ _ _ _ (by rfl) (Fld.fits_of_le (by decide)) (by decide))).trans
      (flag_setFld_self _ false _ _ (Fld.fits_of_le (by decide)) (by decide))
  · exact flag_setFld_self _ true _ _ (Fld.fits_of_le (by decide)) (by decide)
  · exact sameBut_trans (sameBut_setFld _ _ _ _ _ _ (by decide)) (sameBut_trans (sameBut_setFld _ _ _ _ _ _ (by decide)) (sameBut_trans (sameBut_sts _ _ _ _ (by decide))
      (sameBut_trans (sameBut_emit _ _ _ _ _ _ (by decide)) hstep.1)))

theorem refBack_spec {s : State} (hup : s.up = true) (hpll : s.boot.pllStable = true) (href : s.flag .CLK_STATE_REF_OK = false) : ∃ t, exec .refBack s = .next t
    ∧ t.flag .CLK_STATE_REF_OK = true ∧ t.flag .CLK_STATE_HOLDOVER = false ∧ t.stsBit .CLK_STS 1 = true ∧ s.sameBut t eventParts := by
  let u := (s.setFld .CLK_STATE_REF_OK (b2n true)).setFld .CLK_STATE_HOLDOVER (b2n false)
  have hexec : exec .refBack s = .next ((u.setSts .CLK_STS [1]).timeEvent 1 1 1) := by
    change execRefBack s = _
    rw [execRefBack, whenClocked_open _ hup hpll, if_neg (by rw [href]; decide)]
    rfl
  have hword : ((u.setSts .CLK_STS [1]).timeEvent 1 1 1).word .CLK_STATE = u.word .CLK_STATE := (word_emit _ (by decide)).trans (word_setSts _ (by decide))
  refine ⟨_, hexec, (flag_of_fld (fld_of_word (f := .CLK_STATE_REF_OK) hword)).trans ?_, (flag_of_fld (fld_of_word (f := .CLK_STATE_HOLDOVER) hword)).trans ?_,
    stsBit_emit _ (stsBit_setSts _ (by decide)), ?_⟩
  · exact (flag_of_fld (State.fld_setFld_of_disjoint _ _ _ _ (by rfl) (Fld.fits_of_le (by decide)) (by decide))).trans
      (flag_setFld_self _ true _ _ (Fld.fits_of_le (by decide)) (by decide))
  · exact flag_setFld_self _ false _ _ (Fld.fits_of_le (by decide)) (by decide)
  · exact sameBut_trans (sameBut_setFld _ _ _ _ _ _ (by decide)) (sameBut_trans (sameBut_setFld _ _ _ _ _ _ (by decide))
      (sameBut_trans (sameBut_sts _ _ _ _ (List.Subset.refl _)) (sameBut_emit _ _ _ _ _ _ (List.Subset.refl _))))

/-- A loop's bit is gone once it is cleared. -/
theorem bit_clearBit {n loop : Nat} (hn : n < 16) (hl : loop < 4) : bit (clearBit n loop) loop = false ∧ clearBit n loop < 16 := by
  have h : ∀ n < 16, ∀ l < 4, bit (clearBit n l) l = false ∧ clearBit n l < 16 := by decide
  exact h n hn loop hl

theorem pllUnlock_spec {loop : Nat} {s : State} (hl : loop < 4) (hup : s.up = true) (hpll : s.boot.pllStable = true) : ∃ t, exec (.pllUnlock loop) s = .next t
    ∧ bit (t.fld .CLK_STATE_PLL_OK) loop = false ∧ t.stsBit .CLK_STS 2 = true ∧ s.sameBut t eventParts := by
  obtain ⟨hbit, hlt⟩ := bit_clearBit (n := s.fld .CLK_STATE_PLL_OK) (Fld.of_lt _ _) hl
  have hfld : ((s.setFld .CLK_STATE_PLL_OK (clearBit (s.fld .CLK_STATE_PLL_OK) loop)).setSts .CLK_STS [2]).fld .CLK_STATE_PLL_OK = clearBit (s.fld .CLK_STATE_PLL_OK) loop :=
    (fld_setSts _ (by decide)).trans (fld_setFld_lt _ _ _ _ _ (Fld.fits_of_le (by decide)) hlt)
  refine ⟨_, ?_, by rw [hfld]; exact hbit, stsBit_setSts _ (by decide), sameBut_trans (sameBut_setFld _ _ _ _ _ _ (by decide)) (sameBut_sts _ _ _ _ (List.Subset.refl _))⟩
  change execPllUnlock loop s = _
  rw [execPllUnlock, whenClocked_open _ hup hpll, if_neg (Nat.not_le.2 hl)]

/-! ### Low power and ramps (R427) -/

theorem lowPowerSet_spec (s : State) (on : Bool) : let t := s.lowPowerSet on
    t.flag .CLK_CTRL_LOW_POWER = on ∧ (on ≠ s.flag .CLK_STATE_LOW_POWER → t.flag .CLK_STATE_RAMP_BUSY = true) ∧ s.sameBut t [.clk, .regs] := by
  let u := (s.onClk (fun c => { c with forced := false })).setFld .CLK_CTRL_LOW_POWER (b2n on)
  have hon : u.flag .CLK_CTRL_LOW_POWER = on := flag_setFld_self _ on _ _ (Fld.fits_of_le (by decide)) (by decide)
  have hstate : u.flag .CLK_STATE_LOW_POWER = s.flag .CLK_STATE_LOW_POWER := flag_of_fld (State.fld_setFld_of_ne _ _ _ _ (by decide))
  have hsame : s.sameBut u [.clk, .regs] := sameBut_trans (sameBut_onClk _ _ (by decide)) (sameBut_setFld _ _ _ _ _ _ (by decide))
  have ht : s.lowPowerSet on = if on != s.flag .CLK_STATE_LOW_POWER then u.setFld .CLK_STATE_RAMP_BUSY (b2n true) else u := by
    change (if u.flag .CLK_CTRL_LOW_POWER != u.flag .CLK_STATE_LOW_POWER then u.setFld .CLK_STATE_RAMP_BUSY 1 else u) = _
    rw [hstate, hon]
    rfl
  intro t
  rw [show t = _ from ht]
  by_cases h : on = s.flag .CLK_STATE_LOW_POWER
  · rw [if_neg (by simp [h])]
    exact ⟨hon, fun h' => absurd h h', hsame⟩
  · rw [if_pos (by simp [h])]
    exact ⟨(flag_of_fld (State.fld_setFld_of_ne _ _ _ _ (by decide))).trans hon, fun _ => flag_setFld_self u true _ _ (Fld.fits_of_le (by decide)) (by decide),
      sameBut_trans hsame (sameBut_setFld _ _ _ _ _ _ (by decide))⟩

theorem clockRampDone_spec {s : State} (hup : s.up = true) (hbusy : s.flag .CLK_STATE_RAMP_BUSY = true) : ∃ t, exec .clockRampDone s = .next t
    ∧ t.flag .CLK_STATE_RAMP_BUSY = false ∧ t.fld .CLK_STATE_LOW_POWER = s.fld .CLK_CTRL_LOW_POWER ∧ t.stsBit .CLK_STS 5 = true ∧ s.sameBut t eventParts := by
  let u := s.setFld .CLK_STATE_RAMP_BUSY (b2n false)
  let v := u.setFld .CLK_STATE_LOW_POWER (s.fld .CLK_CTRL_LOW_POWER)
  refine ⟨v.setSts .CLK_STS [5], ?_, (flag_of_fld (fld_setSts _ (by decide))).trans ?_, (fld_setSts _ (by decide)).trans ?_, stsBit_setSts _ (by decide),
    sameBut_trans (sameBut_setFld _ _ _ _ _ _ (by decide)) (sameBut_trans (sameBut_setFld _ _ _ _ _ _ (by decide)) (sameBut_sts _ _ _ _ (List.Subset.refl _)))⟩
  · change execClockRampDone s = _
    rw [execClockRampDone, whenUp_of_up _ hup, if_neg (by rw [hbusy]; decide)]
    rfl
  · exact (flag_of_fld (State.fld_setFld_of_disjoint _ _ _ _ (by rfl) (Fld.fits_of_le (by decide)) (by decide))).trans
      (flag_setFld_self _ false _ _ (Fld.fits_of_le (by decide)) (by decide))
  · exact fld_setFld_lt _ _ _ _ _ (Fld.fits_of_le (by decide)) (Fld.of_lt _ _)

/-! ### Gates (R428) -/

/-- The gates that are asked for and that the lane does not hold. -/
def State.gatesAsked (s : State) : List Nat := s.gatesWanted.filter (fun k => !s.laneBlock k)

/-- Those of them that take effect: they did before, or their blocks hold no work. -/
def State.gatesTaken (s : State) : List Nat := s.gatesAsked.filter (fun k => s.boot.gates.contains k || !s.blockBusy k)

/-- Gates take effect, and GATE_PEND shows whether any waits. -/
theorem gateApply_spec (s : State) : let t := s.gateApply
    t.boot.gates = s.gatesTaken ∧ s.sameBut t [.regs, .boot] ∧ t.flag .CLK_STATE_GATE_PEND = (s.gatesAsked.length != s.gatesTaken.length) := by
  let u := (s.onBoot (fun b => { b with gates := s.gatesTaken })).setFld .CLK_STATE_GATE_PEND (b2n (s.gatesAsked.length != s.gatesTaken.length))
  have hpend : u.flag .CLK_STATE_GATE_PEND = (s.gatesAsked.length != s.gatesTaken.length) := flag_setFld_self _ _ _ _ (Fld.fits_of_le (by decide)) (by decide)
  have hsame : s.sameBut u [.regs, .boot] := sameBut_trans (sameBut_onBoot _ _ (by decide)) (sameBut_setFld _ _ _ _ _ _ (by decide))
  have ht : s.gateApply = if s.boot.gates.any (fun k => !s.gatesWanted.contains k) then u.setFld .CLK_STATE_RAMP_BUSY 1 else u := rfl
  intro t
  rw [show t = _ from ht]
  split
  · exact ⟨rfl, sameBut_trans hsame (sameBut_setFld _ _ _ _ _ _ (by decide)),
      (flag_of_fld (State.fld_setFld_of_disjoint _ _ _ _ (by rfl) (Fld.fits_of_le (by decide)) (by decide))).trans hpend⟩
  · exact ⟨rfl, hsame, hpend⟩

theorem exec_gateWrite {s : State} (tiles : Bool) (v : Nat) (hopen : s.openTo 1 0 = true) : exec (.gateWrite .fw tiles v) s = .next (s.gateWrite tiles v) := by
  cases tiles with
  | false => exact fw_open s .CLK_GATE 0 v (fun s => s.gateWrite false v) hopen
  | true => exact fw_open s .CLK_TILE_GATE 0 v (fun s => s.gateWrite true v) hopen

/-- Settles O45: a trim by its source and the code's range, and each other command by its branch. -/
theorem clocksAreTrimmedAndGated : Obligations.ClocksAreTrimmedAndGated := by
  intro s hup
  refine ⟨fun dir ok src hsrc c hc hopen hauto => ?_, fun bad hpll hagain => ?_, fun bad hpll hnew => ?_, refLoss_spec hup, fun hpll => refBack_spec hup hpll,
    fun loop hl hpll => pllUnlock_spec hl hup hpll, fun on hopen => ⟨_, fw_open s .CLK_CTRL 0 ((s.word .CLK_CTRL).toNat / 2 * 2 + b2n on) (fun s => s.lowPowerSet on) hopen, lowPowerSet_spec s on⟩,
    clockRampDone_spec hup, fun v hopen => ?_, fun v c hc hlt hopen => ?_, fun hpend => ?_⟩
  · have hexec := exec_trims hup hc hopen hauto
    have hsrc' : src = s.trimSrc := hsrc
    rw [hsrc']
    exact ⟨fun hend => ⟨_, hexec, trim_stays ok hend⟩, fun h hmax hmin => ⟨_, hexec, trim_moves ok h hmax hmin⟩⟩
  · have hexec := (exec_frequencyMonitorWindow bad hup hpll).trans (congrArg _ (if_pos hagain))
    generalize (s.onClk (fun c => { c with lastBad := monitored bad })).evRealms = rs at hexec
    let v := (s.onClk (fun c => { c with lastBad := monitored bad })).setSts .CLK_STS [3]
    exact ⟨_, hexec, (reportRegs_report v 5 0x0011 4 0 3 rs 0 false false none).sts _ _ _ (stsBit_setSts _ (by decide)),
      sameBut_trans (sameBut_onClk _ _ (by decide)) (sameBut_trans (sameBut_sts _ _ _ _ (by decide))
        (sameBut_mono (reportStep_report v 5 0x0011 4 0 3 rs 0 false false none).1 (by decide)))⟩
  · exact ⟨_, (exec_frequencyMonitorWindow bad hup hpll).trans (congrArg _ (if_neg (by rw [Bool.not_eq_true]; exact hnew))), rfl, sameBut_onClk _ _ (by decide)⟩
  · obtain ⟨hgates, hsame, -⟩ := gateApply_spec (s.setWord .CLK_GATE 0 0 (BitVec.ofNat 32 (v % 2 ^ 12)))
    exact ⟨_, _, exec_gateWrite false v hopen, rfl, sameBut_trans (sameBut_setWord _ _ _ _ _ _ (by decide)) hsame, hgates⟩
  · obtain ⟨hgates, hsame, -⟩ := gateApply_spec (s.setFld .CLK_TILE_GATE_TILE v 0 c)
    subst hc
    exact ⟨_, _, (exec_gateWrite true v hopen).trans (congrArg _ (if_pos hlt)), rfl, sameBut_trans (sameBut_setFld _ _ _ _ _ _ (by decide)) hsame, hgates⟩
  · obtain ⟨hgates, hsame, hpend'⟩ := gateApply_spec s
    refine ⟨s.gateApply, ?_, hsame, hgates, ?_⟩
    · change execGatePendApply s = _
      rw [execGatePendApply, whenUp_of_up _ hup, if_pos hpend]
    · rw [hpend', hgates]
      exact bne_iff_ne.trans ne_comm

end Sys2Proof.Machine

/-! SUPPORT. The Gauge and the Stave chain (R405, R429-R441). -/

namespace Sys2Proof.Machine

/-! ### Events to several realms -/

theorem sameBut_emitTo (s : State) (l : List Nat) (a b c e : Nat) {ps : List Part} (h : eventParts ⊆ ps) : s.sameBut (s.emitTo l a b c e) ps :=
  sameBut_foldl _ (fun _ _ => sameBut_emit _ _ _ _ _ _ h) _ _

theorem word_emitTo {s : State} {l : List Nat} {a b c e : Nat} {g : Reg} {u sel : Nat} (h : ∀ q < 4, g.key u sel ≠ Reg.RING_EQ_DROP.key q 0) :
    (s.emitTo l a b c e).word g u sel = s.word g u sel := word_emits h _ _ _ _ _ _

theorem stsBit_emitTo {s : State} {l : List Nat} {a b c e : Nat} {g : Reg} {i u : Nat} (h : s.stsBit g i u = true) : (s.emitTo l a b c e).stsBit g i u = true :=
  (reportRegs_emitTo s l a b c e).sts g u i h

theorem whenClocked_running {s : State} (f : State → State) (h : s.running_ = true) : s.whenClocked f = .next (f s) := congrArg _ (if_pos h)

/-! ### The Gauge (R405, R429, R430) -/

/-- The Gauge's state when it enters another one. -/
theorem gauEnter_spec (s : State) {st : Nat} (hst : st < 8) : let t := s.gauEnter st
    t.gau = st ∧ (st = gauHoldover → s.gau ≠ gauHoldover → t.stsBit .GAU_STS 2 = true) ∧ s.sameBut t (.stave :: eventParts) := by
  let u := s.onStave (fun v => { v with inBand := 0 })
  have hu : s.sameBut u (.stave :: eventParts) := sameBut_onStave _ _ (by decide)
  by_cases h : s.gau = st
  · have ht : s.gauEnter st = u := if_pos h
    rw [ht]
    exact ⟨h, fun hhold hne => absurd (h.trans hhold) hne, hu⟩
  · let bits := (if st = gauLocked then [0] else []) ++ (if s.gau = gauLocked then [1] else []) ++ (if st = gauHoldover then [2] else [])
    let v := (u.setFld .GAU_STATE_STATE st).setSts .GAU_STS bits
    have ht : s.gauEnter st = v.emitTo v.evRealms 17 0x60 2 (st + (v.word .GAU_OFFSET).toNat * 2 ^ 32) := if_neg h
    rw [ht]
    generalize st + (v.word .GAU_OFFSET).toNat * 2 ^ 32 = p
    refine ⟨?_, fun hhold _ => stsBit_emitTo (stsBit_setSts _ ?_), ?_⟩
    · exact (fld_of_word (f := .GAU_STATE_STATE) ((word_emitTo (by decide)).trans (word_setSts _ (by decide)))).trans
        (fld_setFld_lt _ _ _ _ _ (Fld.fits_of_le (by decide)) hst)
    · simp only [bits, if_pos hhold]
      exact List.mem_append_right _ (List.mem_singleton_self 2)
    · exact sameBut_trans hu (sameBut_trans (sameBut_setFld _ _ _ _ _ _ (by decide)) (sameBut_trans (sameBut_sts _ _ _ _ (by decide)) (sameBut_emitTo _ _ _ _ _ _ (by decide))))

/-- The count that a read of the Gauge through a window latches (R405, R429). -/
def State.gaugeSeen (s : State) (w : Win) : Nat :=
  match w with
  | .realm _ => s.gauge / 32 * 32
  | _ => s.gauge

theorem exec_gaugeRead {w : Win} {s : State} (hup : s.pageUp 2 = true) (hrealm : ∀ r, w = .realm r → s.windowOpen r = true) (hmgmt : w = .mgmt → s.boot.requests = []) :
    exec (.gaugeRead w) s = .next ((s.setWord .GAU_COUNT_LO 0 0 (BitVec.ofNat 32 (s.gaugeSeen w))).setWord .GAU_COUNT_HI 0 0 (BitVec.ofNat 32 (s.gaugeSeen w / 2 ^ 32))) := by
  change execGaugeRead w s = _
  unfold execGaugeRead
  rw [hup]
  refine congrArg _ ((if_neg ?_).trans ?_)
  · cases w with
    | fw => exact Bool.false_ne_true
    | mgmt => simp [hmgmt rfl]
    | realm r => simp [hrealm r rfl]
  · cases w <;> rfl

/-! ### Frames at a station (R433-R439) -/

/-- Filling the send queue touches the chain's and the swatch's state alone. -/
theorem sameBut_stvFill (n : Nat) (s : State) : s.sameBut (s.stvFill n) (.stave :: .det :: eventParts) := by
  induction n generalizing s with
  | zero => exact sameBut_refl _ _
  | succ n ih =>
    rw [State.stvFill]
    split
    · exact sameBut_refl _ _
    split
    · exact sameBut_trans (sameBut_onStave _ _ (by decide)) (ih _)
    split
    · split
      · split
        · exact sameBut_trans (sameBut_onDet _ _ (by decide)) (sameBut_trans (sameBut_stvSend _ _ _ _ _ (by decide) (by decide)) (ih _))
        · exact sameBut_refl _ _
      · exact sameBut_refl _ _
    · exact sameBut_refl _ _

theorem sameBut_stvTook (s : State) (a : SlotRun) {ps : List Part} (h : Part.stave ∈ ps) (hr : Part.regs ∈ ps) : s.sameBut (s.stvTook a) ps :=
  sameBut_trans (sameBut_onStave _ _ h) (sameBut_setFld _ _ _ _ _ _ hr)

theorem sameBut_gauEnter (s : State) {st : Nat} (hst : st < 8) : s.sameBut (s.gauEnter st) (.gauge :: .stave :: eventParts) :=
  sameBut_mono (gauEnter_spec s hst).2.2 (by decide)

theorem sameBut_gauByOffset (s : State) (off : Int) : s.sameBut (s.gauByOffset off) (.gauge :: .stave :: eventParts) := by
  unfold State.gauByOffset
  split
  · split
    · exact sameBut_refl _ _
    · exact sameBut_gauEnter _ (by decide)
  split
  · split
    · dsimp only
      split
      · exact sameBut_trans (sameBut_onStave _ _ (by decide)) (sameBut_gauEnter _ (by decide))
      · exact sameBut_onStave _ _ (by decide)
    · exact sameBut_onStave _ _ (by decide)
  · exact sameBut_gauEnter _ (by decide)

/-- The step of the Gauge that an offset above 64 gt asks for (R431). -/
def State.servoStep (s : State) (off : Int) : State :=
  if 64 * 256 < off ∧ s.mayStep then
    (({ s with gauge := s.gauge + (off / 256).toNat } : State).setSts .GAU_STS [3]).timeEvent 17 3 ((off / 256).toNat % 2 ^ 64)
  else s

theorem sameBut_servoStep (s : State) (off : Int) : s.sameBut (s.servoStep off) (.gauge :: .stave :: eventParts) := by
  unfold State.servoStep
  generalize (off / 256).toNat = n
  split
  · exact sameBut_trans (sameBut_gauge _ _ _ (by decide)) (sameBut_trans (sameBut_sts _ _ _ _ (by decide)) (sameBut_emit _ _ _ _ _ _ (by decide)))
  · exact sameBut_refl _ _

/-- A frame aligns the Gauge by its offset (R430, R431). -/
theorem servo_eq (s : State) (f : StvFrame) (arr : Nat) : let u := s.setWord .GAU_OFFSET 0 0 (BitVec.ofNat 32 (ofSigned 32 (s.stvOffset f arr)))
    s.servo f arr = if !s.flag .GAU_CTRL_SERVO_EN then s
      else if u.gau = gauFree ∧ u.nextUid = 1 then ({ u with gauge := ((s.stvOffset f arr + (arr : Nat)) / 256).toNat } : State).gauEnter gauAligning
      else (u.servoStep (s.stvOffset f arr)).gauByOffset (s.stvOffset f arr) := rfl

/-- Aligning to a frame touches the Gauge, its registers and the chain's state alone. -/
theorem sameBut_servo (s : State) (f : StvFrame) (arr : Nat) : s.sameBut (s.servo f arr) (.gauge :: .stave :: eventParts) := by
  rw [servo_eq]
  split
  · exact sameBut_refl _ _
  refine sameBut_trans (sameBut_setWord _ _ _ _ _ _ (by decide) : s.sameBut (s.setWord .GAU_OFFSET 0 0 (BitVec.ofNat 32 (ofSigned 32 (s.stvOffset f arr)))) _) ?_
  generalize s.setWord .GAU_OFFSET 0 0 (BitVec.ofNat 32 (ofSigned 32 (s.stvOffset f arr))) = u
  generalize s.stvOffset f arr = off
  split
  · exact sameBut_trans (sameBut_gauge _ _ _ (by decide)) (sameBut_gauEnter _ (by decide))
  · exact sameBut_trans (sameBut_servoStep u off) (sameBut_gauByOffset _ off)

/-- A round of enumeration changes the frame's ENUM alone. -/
theorem enumTake_spec (s : State) (f : StvFrame) : (∃ e, (s.enumTake f).1 = { f with enum := e }) ∧ s.sameBut (s.enumTake f).2 (.stave :: eventParts) := by
  unfold State.enumTake
  split
  · exact ⟨⟨f.enum, rfl⟩, sameBut_refl _ _⟩
  split
  · exact ⟨⟨f.enum, rfl⟩, sameBut_trans (sameBut_sts _ _ _ _ (by decide)) (sameBut_setFld _ _ _ _ _ _ (by decide))⟩
  · exact ⟨⟨f.enum + 1, rfl⟩, sameBut_trans (sameBut_onStave _ _ (by decide)) (sameBut_trans (sameBut_setFld _ _ _ _ _ _ (by decide)) (sameBut_setFld _ _ _ _ _ _ (by decide)))⟩

/-- A good frame goes on from an attached module (R433, R437). -/
theorem stationRx_spec (s : State) (odd : Bool) (f : StvFrame) (arr tr : Nat) : ∃ g, (s.stationRx odd f arr tr true).out = s.out ++ [.stave odd (frameBytes g)]
    ∧ g.mark = f.mark ∧ g.hops = f.hops + 1 ∧ g.res = (f.res + tr) % 2 ^ 32 ∧ g.flags = f.flags ∧ g.share = f.share
    ∧ s.sameBut (s.stationRx odd f arr tr true) (.gauge :: .stave :: .det :: .out :: eventParts) := by
  let u := ((s.setFld .STV_LOOP_SHARE f.share).setFld .STV_LOOP_HOPS (f.hops % 128)).servo f arr
  obtain ⟨⟨e, he⟩, henum⟩ := enumTake_spec u f
  let v := (u.enumTake f).2.stvFill 16
  let a := f.slots.foldl (stationSlot (if v.flag .STV_STATE_ADDR_VALID then some (v.fld .STV_STATE_ADDR) else none) v.txSlots) { tx := v.stave.tx }
  have ht : s.stationRx odd f arr tr true = (v.stvTook a).forward odd { (u.enumTake f).1 with slots := a.out } tr := rfl
  have hsame : s.sameBut (v.stvTook a) (.gauge :: .stave :: .det :: eventParts) :=
    sameBut_trans (sameBut_setFld _ _ _ _ _ _ (by decide)) (sameBut_trans (sameBut_setFld _ _ _ _ _ _ (by decide)) (sameBut_trans (sameBut_mono (sameBut_servo _ f arr) (by decide))
      (sameBut_trans (sameBut_mono henum (by decide)) (sameBut_trans (sameBut_mono (sameBut_stvFill 16 _) (by decide)) (sameBut_stvTook _ a (by decide) (by decide))))))
  rw [ht, he]
  generalize v.stvTook a = w at hsame ⊢
  refine ⟨{ f with enum := e, slots := a.out, hops := f.hops + 1, res := (f.res + tr) % 2 ^ 32,
                    delay := (f.delay + (if w.flag .STV_WIRE_VALID then w.fld .STV_WIRE_DELAY else f.share) + tr) % 2 ^ 32 }, ?_, rfl, rfl, rfl, rfl, rfl, sameBut_trans (sameBut_mono hsame (by decide)) (sameBut_send _ _ (by decide))⟩
  rw [show s.out = w.out from hsame .out (by decide)]
  rfl

/-- A frame that arrives at an attached module that is not the master (R433, R435). -/
theorem exec_staveFrameRx {odd : Bool} {body : List Nat} {arr tr : Nat} {s : State} (hrun : s.running_ = true) (hatt : s.fld .STV_STATE_ATTACH = 2)
    (hhead : s.flag .STV_STATE_HEAD = false) : let u : State := { s with gauge := max s.gauge (arr / 256) }
    exec (.staveFrameRx odd body arr tr) s = .next (if frameGood body
      then (u.onStave (fun v => { v with good := v.good + 1, lastGood := u.gauge, frames := v.frames + 1 })).stationRx odd (parseFrame body) arr tr true
      else ((u.bumpWrap .STV_PERF_CRC_COUNT 1).setSts .STV_STS [2]).send (.stave odd body)) := by
  change execStaveFrameRx odd body arr tr s = _
  rw [execStaveFrameRx, whenClocked_running _ hrun]
  dsimp only
  rw [hatt, hhead]
  cases frameGood body <;> rfl

/-! ### Frames at the master (R432) -/

/-- What the slots of a master's frame give it: those it forwards and those it fills itself (R439). -/
def State.markSlots (s : State) : SlotRun :=
  ((List.range 23).map (fun k => s.stave.carry.getD k none)).foldl (fun a x => match x with
    | none => stationSlot (some 0) s.txSlots a none
    | some m => { a with out := a.out ++ [some m] }) { tx := s.stave.tx }

/-- The frame of the next mark starts. -/
theorem frameMark_spec (lat : Nat) {s : State} (hrun : s.running_ = true) (hhead : s.flag .STV_STATE_HEAD = true) (hatt : s.fld .STV_STATE_ATTACH ≠ 0) :
    ∃ t f, exec (.frameMark lat) s = .next t ∧ t.gauge = (s.gauge / 40000 + 1) * 40000
      ∧ t.out = s.out ++ [.stave ((s.gauge / 40000 + 1) * 40000 / 40000 % 2 == 1) (frameBytes f)] ∧ f.mark = (s.gauge / 40000 + 1) * 40000 % 2 ^ 64 := by
  generalize hdue : (s.gauge / 40000 + 1) * 40000 = due
  let u := ({ s with gauge := due } : State).stvFill 16
  let a := u.markSlots
  let f := u.markFrame due lat (due / 40000 % 2 == 1) a.out
  let v := (u.stvTook a).onStave (fun v =>
    { v with carry := [], flights := v.flights ++ [⟨f.mark, f.delay, (a.out.filter (fun x => (x.map isAct).getD false)).length⟩], lost := v.lost + 1, frames := v.frames + 1 })
  have hexec : exec (.frameMark lat) s = .next (v.send (.stave (due / 40000 % 2 == 1) (frameBytes f))) := by
    subst hdue
    change execFrameMark lat s = _
    rw [execFrameMark, whenClocked_running _ hrun]
    exact congrArg _ (if_neg (by simp [hhead, hatt]))
  have hfill := sameBut_stvFill 16 ({ s with gauge := due } : State)
  have hsame : ({ s with gauge := due } : State).sameBut v (.stave :: .det :: eventParts) :=
    sameBut_trans hfill (sameBut_trans (sameBut_stvTook _ a (by decide) (by decide)) (sameBut_onStave _ _ (by decide)))
  refine ⟨_, f, hexec, (hsame .gauge (by decide)).symm, ?_, rfl⟩
  rw [show s.out = v.out from hsame .out (by decide)]
  rfl

/-! ### Commands of the chain -/

theorem exec_realign {s : State} (hopen : s.openTo 2 0 = true) : exec (.realign .fw) s = .next s.realign := fw_open s .GAU_CMD 0 1 State.realign hopen

theorem exec_gaugeHoldover {s : State} (hrun : s.running_ = true) (h : s.gau = gauLocked ∨ s.gau = gauAligning) :
    exec .gaugeHoldover s = .next (({ s with gauge := max s.gauge (s.stave.lastGood + 320000) } : State).gauEnter gauHoldover) := by
  change execGaugeHoldover s = _
  rw [execGaugeHoldover, whenClocked_running _ hrun, if_pos h]

theorem pageUp_of_openTo {s : State} {b u : Nat} (h : s.openTo b u = true) : s.pageUp b = true := (openTo_iff.1 h).1

theorem fw_not_realm (r : Nat) : Win.fw ≠ .realm r := fun h => Win.noConfusion h

/-! ### The chain's state over a report -/

section
variable (s : State)

theorem stave_modAlert : s.modAlert.stave = s.stave := by
  unfold State.modAlert
  dsimp only
  split <;> rfl

theorem stave_setSts (g : Reg) (m : List Nat) (u : Nat) : (s.setSts g m u).stave = s.stave := (sameBut_setSts s g m u .stave (by decide)).symm

theorem stave_emitTo (l : List Nat) (a b c e : Nat) : (s.emitTo l a b c e).stave = s.stave := (sameBut_emitTo s l a b c e (List.Subset.refl _) .stave (by decide)).symm

theorem stave_fltShow : s.fltShow.stave = s.stave := by
  unfold State.fltShow
  rfl

/-- The module's state is evaluated and reported without the chain. -/
theorem stave_evalState : s.evalState.stave = s.stave := by
  have key (a : State) (n c : Nat) (l : List Nat) : (if n = a.flt.state then a.fltShow.modAlert else
      (l.foldl (fun s r => s.emit 1 c 0x0012 r (faultPayload 4 0 3 false false 0xFF 0 0)) (a.onFlt (fun f => { f with state := n })).fltShow.modAlert).setSts .FLT_STS [7]).stave
      = a.stave := by
    split
    · exact (stave_modAlert _).trans (stave_fltShow _)
    · refine (stave_setSts _ _ _ _).trans ((sameBut_foldl _ (fun _ _ => sameBut_emit _ _ _ _ _ eventParts (List.Subset.refl _)) l _ .stave (by decide)).symm.trans ?_)
      exact (stave_modAlert _).trans (stave_fltShow _)
  exact key s.latchNow _ _ _

/-- A SERVICE report leaves the chain's state. -/
theorem stave_report4 (cause kind index scope : Nat) (realms : List Nat) (detail : Nat) (esc ret : Bool) (from_ : Option Nat) :
    (s.report 4 cause kind index scope realms detail esc ret from_).stave = s.stave := by
  unfold State.report
  extract_lets src s1 s2 s3 own k x1 x2 x3 x4 x5 x6 x7 x8 x9 s4
  refine (stave_evalState s4).trans ?_
  have h2 : s2.stave = s.stave := (stave_setSts _ _ _ _).trans (stave_emitTo _ _ _ _ _ _)
  have h7 : x7.stave = s3.stave := by
    simp only [x7]
    split <;> rfl
  have h4 : s4 = x9 := if_neg (by decide)
  rw [h4]
  exact h7.trans h2

end

/-- The list of an activation is or is not over; nothing else of the chain's state changes. -/
theorem actCheck_spec (s : State) : s.actCheck.stave = { s.stave with acting := s.actCheck.stave.acting } ∧ (∀ g i u, s.stsBit g i u = true → s.actCheck.stsBit g i u = true) := by
  unfold State.actCheck
  dsimp only
  split
  · rw [stave_setSts]
    exact ⟨rfl, fun _ _ _ h => stsBit_setSts_keep h⟩
  · exact ⟨rfl, fun _ _ _ h => h⟩

/-- A SERVICE report of the chain keeps the chain's state and every status bit. -/
theorem stvService_spec (s : State) : s.stvService.stave = s.stave ∧ (∀ g i u, s.stsBit g i u = true → s.stvService.stsBit g i u = true) :=
  ⟨stave_report4 s.draw.2 _ _ _ _ _ _ _ _ _, fun g i u h => (reportRegs_report s.draw.2 _ _ _ _ _ _ _ _ _ _).sts g u i h⟩

/-- Three of its own frames missing open the ring (R434). -/
theorem ringOpen_spec {s : State} (hrun : s.running_ = true) (hhead : s.flag .STV_STATE_HEAD = true) (hlost : 3 ≤ s.stave.lost) (hopen : s.stave.ringOpen = false) :
    ∃ t, exec .ringOpen s = .next t ∧ t.stave.ringOpen = true ∧ t.stave.flights = [] ∧ t.stsBit .STV_STS 3 = true := by
  let u := (s.onStave (fun v => { v with ringOpen := true, flights := [] })).setFld .STV_STATE_RING_CLOSED 0
  let v := (u.setSts .STV_STS [3]).timeEvent 17 6 0
  have hexec : exec .ringOpen s = .next v.stvService.actCheck := by
    change execRingOpen s = _
    rw [execRingOpen, whenClocked_running _ hrun]
    exact congrArg _ (if_neg (by simp [hhead, hopen]; omega))
  have hv : v.stave = u.stave := (sameBut_trans (sameBut_sts (s := u) .STV_STS [3] 0 eventParts (List.Subset.refl _))
    (sameBut_emit 17 0x60 6 mgmtRealm 0 eventParts (List.Subset.refl _)) .stave (by decide)).symm
  obtain ⟨hserv, hsts⟩ := stvService_spec v
  obtain ⟨hact, hsts'⟩ := actCheck_spec v.stvService
  refine ⟨_, hexec, ?_, ?_, hsts' _ _ _ (hsts _ _ _ (stsBit_emit _ (stsBit_setSts _ (by decide))))⟩
  · rw [hact, hserv, hv]
    rfl
  · rw [hact, hserv, hv]
    rfl

/-- ATTACH of a detached module (R435). -/
theorem attach_spec {s : State} (hrun : s.running_ = true) (hatt : s.fld .STV_STATE_ATTACH = 0) (hen : s.flag .STV_CTRL_ATTACH_EN = true) :
    ∃ t, exec .attach s = .next t ∧ t.fld .STV_STATE_ATTACH = 1 ∧ t.stave.good = 0 ∧ s.sameBut t [.regs, .stave] := by
  refine ⟨(s.setFld .STV_STATE_ATTACH 1).onStave (fun v => { v with good := 0 }), ?_, fld_setFld_lt s .STV_STATE_ATTACH 1 0 0 (Fld.fits_of_le (by decide)) (by decide), rfl,
    sameBut_trans (sameBut_setFld _ _ _ _ _ _ (by decide)) (sameBut_onStave _ _ (by decide))⟩
  change execAttach s = _
  rw [execAttach, whenClocked_running _ hrun, if_pos ⟨hatt, hen⟩]

/-! ### Messages (R439-R441) -/

/-- The one message that a module takes of a kind. -/
theorem takeMsg_find {s : State} {k : Nat} {m : StvMsg} (h : s.stave.rx.find? (fun m => m.kind == k) = some m) :
    s.takeMsg k = some (m, s.onStave (fun v => { v with rx := v.rx.erase m })) := by
  unfold State.takeMsg
  rw [h]
  rfl

/-- The end of a round of enumeration, with no swatch (R436). -/
theorem enumRoundEnd_spec {s : State} {x : Nat} (hrun : s.running_ = true) (hround : s.stave.round = some x) (hsw : s.det.swatch = none) :
    ∃ t, exec .enumRoundEnd s = .next t ∧ t.stave.round = none ∧ t.stsBit .STV_STS 0 = true
      ∧ (s.flag .STV_STATE_HEAD = true → t.fld .STV_STATE_MODULES = (s.stave.enumSeen + 1) % 128) := by
  let w := if s.flag .STV_STATE_HEAD then ({ s with gauge := max s.gauge x } : State).setFld .STV_STATE_MODULES (s.stave.enumSeen + 1) else s
  let u := w.onStave (fun v => { v with round := none, changed := false })
  let t := (u.setSts .STV_STS ([0] ++ (if s.stave.changed then [1] else []))).chainEvent
  have hut : u.sameBut t eventParts := sameBut_trans (sameBut_sts _ _ _ _ (List.Subset.refl _)) (sameBut_emit _ _ _ _ _ _ (List.Subset.refl _))
  have hdet : t.det.swatch = none := by
    rw [← show u.det = t.det from hut .det (by decide), ← hsw]
    change w.det.swatch = _
    simp only [w]
    split <;> rfl
  have hexec : exec .enumRoundEnd s = .next t := by
    change execEnumRoundEnd s = _
    rw [execEnumRoundEnd, whenClocked_running _ hrun]
    simp only [hround]
    change Host.Outcome.next (match t.det.swatch with
      | some w => if s.stave.changed then t.peerSilent w else t
      | none => t) = _
    rw [hdet]
  refine ⟨t, hexec, congrArg Stave.round (hut .stave (by decide)).symm, stsBit_emit _ (stsBit_setSts _ (by simp)), fun hhead => ?_⟩
  have hword : t.word .STV_STATE = u.word .STV_STATE := (word_emit _ (by decide)).trans (word_setSts _ (by decide))
  have hw : w = ({ s with gauge := max s.gauge x } : State).setFld .STV_STATE_MODULES (s.stave.enumSeen + 1) := if_pos hhead
  refine (fld_of_word (f := .STV_STATE_MODULES) hword).trans ?_
  change w.fld .STV_STATE_MODULES = _
  rw [hw]
  exact State.fld_setFld_self _ _ _ _ _ (Fld.fits_of_le (by decide))

/-- A LAUNCH that arrives is stored (R440). -/
theorem launch_spec {s : State} {m : StvMsg} (hrun : s.running_ = true) (hm : s.stave.rx.find? (fun m => m.kind == 3) = some m) : ∃ t, exec .launch s = .next t
    ∧ t.word .GAU_LAUNCH_ID = BitVec.ofNat 32 (fieldOf m.payload 0 4) ∧ t.word .GAU_LAUNCH_LO = BitVec.ofNat 32 (fieldOf m.payload 4 8)
    ∧ t.stsBit .GAU_STS 4 = true ∧ t.stave.rx = s.stave.rx.erase m := by
  let a := s.onStave (fun v => { v with rx := v.rx.erase m })
  let u := ((a.setWord .GAU_LAUNCH_ID 0 0 (BitVec.ofNat 32 (fieldOf m.payload 0 4))).setWord .GAU_LAUNCH_LO 0 0 (BitVec.ofNat 32 (fieldOf m.payload 4 8))).setWord
    .GAU_LAUNCH_HI 0 0 (BitVec.ofNat 32 (fieldOf m.payload 4 8 / 2 ^ 32))
  let v := u.setSts .GAU_STS [4]
  have hexec : exec .launch s = .next (if v.flag .STV_CTRL_LAUNCH_EVT then v.emitTo v.evRealms 17 0x60 4 (fieldOf m.payload 0 4 + fieldOf m.payload 4 8 * 2 ^ 64) else v) := by
    change execLaunch s = _
    rw [execLaunch, whenClocked_running _ hrun]
    simp only [takeMsg_find hm]
    rfl
  have hid : v.word .GAU_LAUNCH_ID = BitVec.ofNat 32 (fieldOf m.payload 0 4) := (word_setSts _ (by decide)).trans ((State.word_setWord_of_ne _ _ (by decide)).trans
    ((State.word_setWord_of_ne _ _ (by decide)).trans (State.word_setWord_self _ _ _ _ _)))
  have hlo : v.word .GAU_LAUNCH_LO = BitVec.ofNat 32 (fieldOf m.payload 4 8) :=
    (word_setSts _ (by decide)).trans ((State.word_setWord_of_ne _ _ (by decide)).trans (State.word_setWord_self _ _ _ _ _))
  have hrx : v.stave.rx = s.stave.rx.erase m := congrArg Stave.rx (stave_setSts u _ _ _)
  have hsts : v.stsBit .GAU_STS 4 = true := stsBit_setSts _ (by decide)
  refine ⟨_, hexec, ?_⟩
  generalize fieldOf m.payload 0 4 + fieldOf m.payload 4 8 * 2 ^ 64 = p
  split
  · exact ⟨(word_emitTo (by decide)).trans hid, (word_emitTo (by decide)).trans hlo, stsBit_emitTo hsts, (congrArg Stave.rx (stave_emitTo _ _ _ _ _ _)).trans hrx⟩
  · exact ⟨hid, hlo, hsts, hrx⟩

/-- A segment of an ACTIVATE that is not the last is kept (R441). -/
theorem activate_keeps {s : State} {m : StvMsg} (hrun : s.running_ = true) (hm : s.stave.rx.find? (fun m => m.kind == 4) = some m) (hlast : bit m.mflags 3 = false) :
    ∃ t, exec .activate s = .next t ∧ s.sameBut t [.stave] ∧ t.stave.rx = s.stave.rx.erase m
      ∧ Tab.find m.src t.stave.segs = some ((if bits m.mflags 1 2 = 0 then [] else (Tab.find m.src s.stave.segs).getD []) ++ m.payload.take 60) := by
  let b := (if bits m.mflags 1 2 = 0 then [] else (Tab.find m.src s.stave.segs).getD []) ++ m.payload.take 60
  let t := (s.onStave (fun v => { v with rx := v.rx.erase m })).onStave (fun v => { v with segs := Tab.put m.src b v.segs })
  refine ⟨t, ?_, sameBut_trans (sameBut_onStave _ _ (by decide)) (sameBut_onStave _ _ (by decide)), rfl, Tab.find_put_self _ _ _⟩
  change execActivate s = _
  rw [execActivate, whenClocked_running _ hrun]
  simp only [takeMsg_find hm, hlast, Bool.false_eq_true, ↓reduceIte]
  rfl

/-- A STATE that arrives goes to the chain map (R440). -/
theorem state_spec {s : State} {m : StvMsg} (hrun : s.running_ = true) (hm : s.stave.rx.find? (fun m => m.kind == 1) = some m) : ∃ t, exec .state s = .next t
    ∧ t.stave.rx = s.stave.rx.erase m
    ∧ Tab.find m.src t.stave.map = some { state := fieldOf m.payload 0 1, gauge := fieldOf m.payload 1 1, serial := fieldOf m.payload 2 3, since := s.gauge }
    ∧ s.sameBut t (.stave :: eventParts) := by
  let e : MapEnt := { state := fieldOf m.payload 0 1, gauge := fieldOf m.payload 1 1, serial := fieldOf m.payload 2 3, since := s.gauge }
  let u := (s.onStave (fun v => { v with rx := v.rx.erase m })).onStave (fun v => { v with map := Tab.put m.src e v.map })
  have hexec : exec .state s = .next (if (Tab.find m.src s.stave.map).map MapEnt.state = some e.state then u
      else (u.setSts .STV_STS [6]).timeEvent 17 8 (m.src % 64 + e.state % 8 * 2 ^ 6)) := by
    change execState s = _
    rw [execState, whenClocked_running _ hrun]
    simp only [takeMsg_find hm]
    rfl
  have hu : s.sameBut u (.stave :: eventParts) := sameBut_trans (sameBut_onStave _ _ (by decide)) (sameBut_onStave _ _ (by decide))
  refine ⟨_, hexec, ?_⟩
  generalize m.src % 64 + e.state % 8 * 2 ^ 6 = p
  split
  · exact ⟨rfl, Tab.find_put_self _ _ _, hu⟩
  · have hev : u.sameBut ((u.setSts .STV_STS [6]).timeEvent 17 8 p) eventParts := sameBut_trans (sameBut_sts _ _ _ _ (List.Subset.refl _)) (sameBut_emit _ _ _ _ _ _ (List.Subset.refl _))
    have hstave := hev .stave (by decide)
    refine ⟨congrArg Stave.rx hstave.symm, ?_, sameBut_trans hu (sameBut_mono hev (by decide))⟩
    rw [← hstave]
    exact Tab.find_put_self _ _ _

theorem frames_stvSend (s : State) (dest kind mflags : Nat) (p : List Nat) : (s.stvSend dest kind mflags p).stave.frames = s.stave.frames := by
  unfold State.stvSend
  split
  · exact congrArg Stave.frames (stave_setSts s _ _ _)
  · rfl

/-- Every 1,024 frames a module sends its STATE (R440). -/
theorem stateSend_spec {s : State} (hrun : s.running_ = true) (h : 1024 ≤ s.stave.frames) : ∃ t, exec .stateSend s = .next t
    ∧ t.stave.frames = s.stave.frames - 1024 ∧ s.sameBut t (.stave :: eventParts) := by
  refine ⟨(s.onStave (fun v => { v with frames := v.frames - 1024 })).stvState, ?_, frames_stvSend _ _ _ _ _,
    sameBut_trans (sameBut_onStave _ _ (by decide)) (sameBut_stvSend _ _ _ _ _ (by decide) (by decide))⟩
  change execStateSend s = _
  rw [execStateSend, whenClocked_running _ hrun, if_neg (Nat.not_lt.2 h)]

/-- The master's list of activations is cut into segments, and the list is under way (R441). -/
theorem actSend_spec {s : State} {a n : Nat} (ha : a = hostBase + ((s.word .STV_ACT_LO).toNat + (s.word .STV_ACT_HI).toNat * 2 ^ 32) / 64 * 64) (hn : n = s.num a 1)
    (hhead : s.flag .STV_STATE_HEAD = true) (h1 : 1 ≤ n) (h64 : n ≤ 64) (haddr : ∀ i < n, s.num (a + 8 + 144 * i) 1 ≠ 0) :
    s.actSend = s.onStave (fun v => { v with acting := true, acts := v.acts
      ++ ((List.range n).map (fun i => actSegments (s.num (a + 8 + 144 * i) 1) (s.bytes (a + 16 + 144 * i) 136))).flatten }) := by
  let es := (List.range n).map (fun i => (s.num (a + 8 + 144 * i) 1, s.bytes (a + 16 + 144 * i) 136))
  have hne : ∀ e ∈ es, e.1 ≠ 0 := fun e he => by
    obtain ⟨i, hi, rfl⟩ := List.mem_map.1 he
    exact haddr i (List.mem_range.1 hi)
  have hown : es.filter (fun e => e.1 == 0) = [] := List.filter_eq_nil_iff.2 fun e he => by simpa using hne e he
  have hall : es.filter (fun e => e.1 != 0) = es := List.filter_eq_self.2 fun e he => by simpa using hne e he
  have hseg : (es.map (fun e => actSegments e.1 e.2)).flatten
      = ((List.range n).map (fun i => actSegments (s.num (a + 8 + 144 * i) 1) (s.bytes (a + 16 + 144 * i) 136))).flatten := congrArg List.flatten List.map_map
  have hsome : (es.map (fun e => actSegments e.1 e.2)).flatten ≠ [] := by
    rw [hseg, ← Nat.succ_pred_eq_of_pos h1, List.range_succ, List.map_append, List.flatten_append]
    simp [actSegments]
  have heq : s.actSend = ((es.filter (fun e => e.1 == 0)).foldl (fun s e => if s.flag .SEC_STATE_CMD_BUSY then s else s.secRun e.2) s |>.onStave (fun v =>
      { v with acting := true, acts := v.acts ++ ((es.filter (fun e => e.1 != 0)).map (fun e => actSegments e.1 e.2)).flatten })).actCheck := by
    subst ha hn
    refine if_neg ?_
    simp only [hhead, Bool.not_true, Bool.false_eq_true, false_or, Bool.or_eq_true, decide_eq_true_eq]
    omega
  rw [heq, hown, hall, ← hseg]
  unfold State.actCheck
  refine if_neg fun h => ?_
  simp only [Bool.and_eq_true, List.isEmpty_iff] at h
  obtain ⟨⟨⟨⟨-, hempty⟩, -⟩, -⟩, -⟩ := h
  exact hsome (List.append_eq_nil_iff.1 hempty).2

/-- Settles O46: each command of the Gauge and of the chain by the branch that it takes. -/
theorem theChainCarriesFramesAndMessages : Obligations.TheChainCarriesFramesAndMessages := by
  intro s hrun
  refine ⟨fun odd body arr tr hatt hhead => ⟨fun hgood => ?_, fun hgood => ?_⟩, fun lat hhead hatt => frameMark_spec lat hrun hhead hatt, fun w hup hrealm hmgmt => ?_,
    fun hopen => ⟨fun hhead => (exec_realign hopen).trans (congrArg _ (if_pos (by rw [hhead]; rfl))), fun hhead hservo => ?_⟩, fun hgau => ?_, ringOpen_spec hrun, attach_spec hrun,
    fun hopen => ⟨fun hhead => ?_, fun hhead hlate => ?_, fun hhead hahead hroom => ?_, fun a n ha hn hhead h1 h64 haddr => ?_⟩, fun x => enumRoundEnd_spec hrun,
    fun m => launch_spec hrun, fun m => activate_keeps hrun, fun m => state_spec hrun, stateSend_spec hrun⟩
  · let u : State := ({ s with gauge := max s.gauge (arr / 256) } : State).bumpWrap .STV_PERF_CRC_COUNT 1
    have hu : s.sameBut (u.setSts .STV_STS [2]) (.gauge :: eventParts) :=
      sameBut_trans (sameBut_gauge _ _ _ (by decide)) (sameBut_trans (sameBut_setFld _ _ _ _ _ _ (by decide)) (sameBut_sts _ _ _ _ (by decide)))
    refine ⟨(u.setSts .STV_STS [2]).send (.stave odd body), (exec_staveFrameRx hrun hatt hhead).trans (congrArg _ (if_neg (by rw [hgood]; decide))), ?_,
      stsBit_setSts u (by decide), sameBut_trans (sameBut_mono hu (by decide)) (sameBut_send _ _ (by decide))⟩
    rw [show s.out = (u.setSts .STV_STS [2]).out from hu .out (by decide)]
    rfl
  · let u : State := { s with gauge := max s.gauge (arr / 256) }
    let v := u.onStave (fun v => { v with good := v.good + 1, lastGood := u.gauge, frames := v.frames + 1 })
    obtain ⟨f, hout, hmark, hhops, hres, hflags, hshare, hsame⟩ := stationRx_spec v odd (parseFrame body) arr tr
    exact ⟨_, f, (exec_staveFrameRx hrun hatt hhead).trans (congrArg _ (if_pos hgood)), hout, hmark, hhops, hres, hflags, hshare,
      sameBut_trans (sameBut_gauge _ _ _ (by decide)) (sameBut_trans (sameBut_onStave _ _ (by decide)) hsame)⟩
  · refine ⟨_, s.gaugeSeen w, exec_gaugeRead hup hrealm hmgmt, by cases w <;> rfl, ?_, State.word_setWord_self _ _ _ _ _,
      sameBut_trans (sameBut_setWord _ _ _ _ _ _ (by decide)) (sameBut_setWord _ _ _ _ _ _ (by decide))⟩
    exact (State.word_setWord_of_ne _ _ (by decide)).trans (State.word_setWord_self _ _ _ _ _)
  · obtain ⟨hgau, -, hsame⟩ := gauEnter_spec s (st := gauAligning) (by decide)
    exact ⟨_, (exec_realign hopen).trans (congrArg _ (if_neg (by rw [hhead, hservo]; decide))), hgau, hsame⟩
  · let u : State := { s with gauge := max s.gauge (s.stave.lastGood + 320000) }
    obtain ⟨hhold, hsts, hsame⟩ := gauEnter_spec u (st := gauHoldover) (by decide)
    refine ⟨_, exec_gaugeHoldover hrun hgau, hhold, hsts rfl ?_, (hsame .gauge (by decide)).symm⟩
    change s.gau ≠ gauHoldover
    rcases hgau with h | h <;> rw [h] <;> decide
  · exact ⟨_, (congrArg Host.Outcome.next (direct_open _ fw_not_realm (pageUp_of_openTo hopen))).trans (congrArg _ (if_pos hhead)), rfl, sameBut_onStave _ _ (by decide)⟩
  · exact ⟨_, (congrArg Host.Outcome.next (direct_open _ fw_not_realm (pageUp_of_openTo hopen))).trans (congrArg _ ((if_neg (by rw [hhead]; decide)).trans (if_pos hlate))),
      stsBit_setSts _ (by decide), sameBut_sts _ _ _ _ (List.Subset.refl _)⟩
  · exact ⟨_, (congrArg Host.Outcome.next (direct_open _ fw_not_realm (pageUp_of_openTo hopen))).trans (congrArg _ ((if_neg (by rw [hhead]; decide)).trans
      ((if_neg (Nat.not_lt.2 hahead)).trans (if_neg (Nat.not_le.2 hroom))))), sameBut_onStave _ _ (by decide), rfl⟩
  · exact ⟨_, (congrArg Host.Outcome.next (direct_open State.actSend fw_not_realm (pageUp_of_openTo hopen))).trans
      (congrArg _ (actSend_spec ha hn hhead h1 h64 haddr)), rfl, rfl, sameBut_onStave _ _ (by decide)⟩

end Sys2Proof.Machine

/-! SUPPORT. How firmware takes and handles errors; health and the module's states (R359-R374). -/

namespace Sys2Proof.Machine

/-! ### The error that is taken next (R363) -/

/-- Of two errors the later one is taken only when it is more severe. -/
def worseErr (m : Option ErrRec) (e : ErrRec) : Option ErrRec :=
  match m with
  | none => some e
  | some x => if x.sev < e.sev then some e else some x

theorem foldl_worseErr_some (l : List ErrRec) (x e : ErrRec) (h : l.foldl worseErr (some x) = some e) :
    (e = x ∧ ∀ y ∈ l, y.sev ≤ x.sev) ∨ (x.sev < e.sev ∧ ∃ a b, l = a ++ e :: b ∧ (∀ y ∈ a, y.sev < e.sev) ∧ ∀ y ∈ b, y.sev ≤ e.sev) := by
  induction l generalizing x with
  | nil => exact .inl ⟨(Option.some.inj h).symm, fun y hy => absurd hy List.not_mem_nil⟩
  | cons z l ih =>
    by_cases hlt : x.sev < z.sev
    · have hz : worseErr (some x) z = some z := if_pos hlt
      rw [List.foldl_cons, hz] at h
      rcases ih z h with ⟨rfl, hall⟩ | ⟨hze, a, b, rfl, ha, hb⟩
      · exact .inr ⟨hlt, [], l, rfl, fun y hy => absurd hy List.not_mem_nil, hall⟩
      · exact .inr ⟨Nat.lt_trans hlt hze, z :: a, b, rfl, List.forall_mem_cons.2 ⟨hze, ha⟩, hb⟩
    · have hz : worseErr (some x) z = some x := if_neg hlt
      rw [List.foldl_cons, hz] at h
      rcases ih x h with ⟨rfl, hall⟩ | ⟨hxe, a, b, rfl, ha, hb⟩
      · exact .inl ⟨rfl, List.forall_mem_cons.2 ⟨Nat.not_lt.1 hlt, hall⟩⟩
      · exact .inr ⟨hxe, z :: a, b, rfl, List.forall_mem_cons.2 ⟨by omega, ha⟩, hb⟩

/-- The error that is taken next is the first of the most severe. -/
theorem nextErr_first {l : List ErrRec} {e : ErrRec} (h : nextErr l = some e) : ∃ a b, l = a ++ e :: b ∧ (∀ x ∈ a, x.sev < e.sev) ∧ ∀ x ∈ b, x.sev ≤ e.sev := by
  have hfold : l.foldl worseErr none = some e := h
  cases l with
  | nil => exact absurd hfold (by simp)
  | cons x l =>
    rcases foldl_worseErr_some l x e hfold with ⟨rfl, hall⟩ | ⟨hlt, a, b, rfl, ha, hb⟩
    · exact ⟨[], l, rfl, fun y hy => absurd hy List.not_mem_nil, hall⟩
    · exact ⟨x :: a, b, rfl, List.forall_mem_cons.2 ⟨hlt, ha⟩, hb⟩

/-! ### Handling an error (R361, R363, R364) -/

theorem frozen_of_up {s : State} (h : s.up = true) : s.flt.frozen = false := by
  simp only [State.up, Bool.and_eq_true, Bool.not_eq_true'] at h
  exact h.2

theorem errorHandling_none {s : State} (ok : Bool) (row chan : Nat) (hup : s.up = true) (hq : nextErr s.flt.queue = none) :
    exec (.errorHandling none ok row chan) s = .next s.evalState := by
  change execErrorHandling none ok row chan s = _
  rw [execErrorHandling, whenUp_of_up _ hup]
  simp only [hq, ite_self]

/-- What becomes of the error that is taken next (R363). -/
theorem errorHandling_some {s : State} {e : ErrRec} (ok : Bool) (row chan : Nat) (hup : s.up = true) (hmp : s.flt.mpDown = false) (hq : nextErr s.flt.queue = some e) :
    let u := s.onFlt (fun f => { f with queue := f.queue.erase e })
    exec (.errorHandling none ok row chan) s = .next (if (s.flt.cur.head?.map (fun x => decide (e.sev ≤ x.sev))).getD false then s.evalState
      else if u.errClosed e then (u.bumpWrap .FLT_PERF_CONTAINED_COUNT 1).evalState
      else (((u.onFlt (fun f => { f with cur := e :: f.cur })).lastErr e).handle e ok row chan).evalState) := by
  change execErrorHandling none ok row chan s = _
  rw [execErrorHandling, whenUp_of_up _ hup]
  simp only [hmp, frozen_of_up hup, hq, Bool.or_self, Bool.false_eq_true, ↓reduceIte]

theorem errorHandling_waits {s : State} {e x : ErrRec} (ok : Bool) (row chan : Nat) (hup : s.up = true) (hmp : s.flt.mpDown = false) (hq : nextErr s.flt.queue = some e)
    (hx : s.flt.cur.head? = some x) (hle : e.sev ≤ x.sev) : exec (.errorHandling none ok row chan) s = .next s.evalState := by
  refine (errorHandling_some ok row chan hup hmp hq).trans (congrArg _ (if_pos ?_))
  rw [hx]
  exact decide_eq_true hle

/-- The error has left the queue and is handled. -/
def State.taken (s : State) (e : ErrRec) : State := (s.onFlt (fun f => { f with queue := f.queue.erase e })).onFlt (fun f => { f with cur := e :: f.cur })

/-- An error that is taken: it is handled on top of those that it is more severe than. -/
theorem errorHandling_taken {s : State} {e : ErrRec} (ok : Bool) (row chan : Nat) (hup : s.up = true) (hmp : s.flt.mpDown = false) (hq : nextErr s.flt.queue = some e)
    (hcur : ∀ x, s.flt.cur.head? = some x → x.sev < e.sev) (hclosed : s.errClosed e = false) :
    exec (.errorHandling none ok row chan) s = .next (((s.taken e).lastErr e).handle e ok row chan).evalState := by
  refine (errorHandling_some ok row chan hup hmp hq).trans (congrArg _ ((if_neg ?_).trans (if_neg ?_)))
  · cases hh : s.flt.cur.head? with
    | none => exact Bool.false_ne_true
    | some x =>
      have := hcur x hh
      simp
      omega
  · rw [Bool.not_eq_true]
    exact hclosed

/-- FLT_LAST names the error, and nothing but FLT_LAST and FLT_LAST_UNIT changes. -/
theorem lastErr_spec (s : State) (e : ErrRec) : let t := s.lastErr e
    t.fld .FLT_LAST_CAUSE = e.cause % 2 ^ 16 ∧ t.fld .FLT_LAST_SEVERITY = e.sev % 8 ∧ s.sameBut t [.regs]
      ∧ ∀ g : Reg, (∀ k ∈ [Reg.FLT_LAST, .FLT_LAST_UNIT], g.key 0 0 ≠ k.key 0 0) → t.word g = s.word g := by
  let u := ((s.setFld .FLT_LAST_CAUSE e.cause).setFld .FLT_LAST_SEVERITY e.sev).setFld .FLT_LAST_SCOPE e.scope
  have hunit : ∀ g : Reg, g.key 0 0 ≠ Reg.FLT_LAST_UNIT.key 0 0 → (s.lastErr e).word g = u.word g := fun g hg =>
    (word_setFld_ne (f := .FLT_LAST_UNIT_EPOCH) hg).trans ((word_setFld_ne (f := .FLT_LAST_UNIT_KIND) hg).trans (word_setFld_ne (f := .FLT_LAST_UNIT_INDEX) hg))
  have hlast := hunit .FLT_LAST (by decide)
  refine ⟨(fld_of_word (f := .FLT_LAST_CAUSE) hlast).trans ?_, (fld_of_word (f := .FLT_LAST_SEVERITY) hlast).trans ?_,
    sameBut_trans (sameBut_setFld _ _ _ _ _ _ (by decide)) (sameBut_trans (sameBut_setFld _ _ _ _ _ _ (by decide)) (sameBut_trans (sameBut_setFld _ _ _ _ _ _ (by decide))
      (sameBut_trans (sameBut_setFld _ _ _ _ _ _ (by decide)) (sameBut_trans (sameBut_setFld _ _ _ _ _ _ (by decide)) (sameBut_setFld _ _ _ _ _ _ (by decide)))))), fun g hg => ?_⟩
  · exact (State.fld_setFld_of_disjoint _ _ _ _ (by rfl) (Fld.fits_of_le (by decide)) (by decide)).trans
      ((State.fld_setFld_of_disjoint _ _ _ _ (by rfl) (Fld.fits_of_le (by decide)) (by decide)).trans (State.fld_setFld_self _ _ _ _ _ (Fld.fits_of_le (by decide))))
  · exact (State.fld_setFld_of_disjoint _ _ _ _ (by rfl) (Fld.fits_of_le (by decide)) (by decide)).trans (State.fld_setFld_self _ _ _ _ _ (Fld.fits_of_le (by decide)))
  · exact (hunit g (hg _ (by decide))).trans ((word_setFld_ne (f := .FLT_LAST_SCOPE) (hg _ (by decide))).trans
      ((word_setFld_ne (f := .FLT_LAST_SEVERITY) (hg _ (by decide))).trans (word_setFld_ne (f := .FLT_LAST_CAUSE) (hg _ (by decide)))))

/-- A handling that ends: its error is no longer handled, FLT_LAST names it. -/
theorem endHandling_spec (s : State) (e : ErrRec) : let t := s.endHandling e
    t.flt.queue = s.flt.queue ∧ t.flt.cur = s.flt.cur.erase e ∧ t.fld .FLT_LAST_CAUSE = e.cause % 2 ^ 16 ∧ t.fld .FLT_LAST_SEVERITY = e.sev % 8
      ∧ s.sameBut t reportParts := by
  unfold State.endHandling
  dsimp only
  generalize hu : s.onFlt _ = u
  have hq : u.flt.queue = s.flt.queue := by rw [← hu]; rfl
  have hc : u.flt.cur = s.flt.cur.erase e := by rw [← hu]; rfl
  have hsame : s.sameBut u reportParts := hu ▸ sameBut_onFlt s _ (by decide)
  generalize hv : u.setUnit _ _ = v
  have hv' : v.flt.queue = u.flt.queue ∧ v.flt.cur = u.flt.cur := by rw [← hv]; exact ⟨rfl, rfl⟩
  have hsv : u.sameBut v reportParts := hv ▸ sameBut_onFlt u _ (by decide)
  obtain ⟨hcause, hsev, hlast, -⟩ := lastErr_spec v e
  have hkept := fltKept_evalState (v.lastErr e)
  have hflt : (v.lastErr e).flt = v.flt := (hlast .flt (by decide)).symm
  have hword : (v.lastErr e).evalState.word .FLT_LAST = (v.lastErr e).word .FLT_LAST := word_evalState (by decide) (by decide) (by decide)
  exact ⟨hkept.queue.trans ((congrArg Flt.queue hflt).trans (hv'.1.trans hq)), hkept.cur.trans ((congrArg Flt.cur hflt).trans (hv'.2.trans hc)),
    (fld_of_word (f := .FLT_LAST_CAUSE) hword).trans hcause, (fld_of_word (f := .FLT_LAST_SEVERITY) hword).trans hsev,
    sameBut_trans hsame (sameBut_trans hsv (sameBut_trans (sameBut_mono hlast (by decide)) (reportStep_evalState _).1))⟩

/-- An error of the memory or of the module ends at once (R361). -/
theorem handle_module {s : State} {e : ErrRec} (ok : Bool) (row chan : Nat) (hkind : e.kind = 2 ∨ 4 ≤ e.kind) (hcause : e.cause ≠ 7) : s.handle e ok row chan = s.endHandling e := by
  have hhalf : s.halfOf e = none := by
    unfold State.halfOf
    rw [if_neg (by omega), if_neg (by omega)]
  unfold State.handle
  rw [if_neg hcause]
  simp only [hhalf]
  rw [if_neg (by omega), if_pos (.inl (by omega))]

/-- A tile-scope error of a tile that no half stands on leaves the tile in FAULT (R361). -/
theorem handle_tile {s : State} {e : ErrRec} (ok : Bool) (row chan : Nat) (hkind : e.kind = 0) (hscope : e.scope = 0) (hex : e.exhaust = false) (hcause : e.cause ≠ 7)
    (hhalf : s.halfOn e.index = none) : s.handle e ok row chan = (s.endTile e.index).setTile e.index { (s.endTile e.index).tile e.index with st := .fault } := by
  have hof : s.halfOf e = none := (if_pos hkind).trans hhalf
  unfold State.handle
  rw [if_neg hcause]
  simp only [hof]
  rw [if_neg (by omega), if_neg (by omega), if_pos hscope]
  simp only [hex, Bool.false_and, Bool.false_eq_true, ↓reduceIte]

/-- The half on a tile depends on the maps and on the lane's registers alone. -/
theorem halfOn_congr {s t : State} (hen : t.word .CTL_CTRL = s.word .CTL_CTRL) (hst : t.word .CTL_STATE = s.word .CTL_STATE) (hclu : s.cluMap = t.cluMap)
    (htile : s.tileMap = t.tileMap) (p : Nat) : t.halfOn p = s.halfOn p := by
  have hphys : ∀ l, t.physTile l = s.physTile l := fun l => by
    unfold State.physTile State.physCluster
    rw [hclu, htile]
  have hplace : ∀ h, t.fld (placeFld h) = s.fld (placeFld h) := fun h => by
    unfold placeFld
    split
    · exact fld_of_word (f := .CTL_STATE_PLACE_A) hst
    · exact fld_of_word (f := .CTL_STATE_PLACE_B) hst
  have htiles : ∀ h, t.halfTiles h = s.halfTiles h := fun h => by
    unfold State.halfTiles State.placePhys
    rw [hplace]
    simp only [hphys]
  unfold State.halfOn
  rw [flag_of_fld (fld_of_word (f := .CTL_CTRL_LANE_EN) hen)]
  simp only [htiles]

/-- A module-scope error is read and is over. -/
theorem errorHandling_module {s : State} {e : ErrRec} (ok : Bool) (row chan : Nat) (hup : s.up = true) (hmp : s.flt.mpDown = false) (hq : nextErr s.flt.queue = some e)
    (hcur : ∀ x, s.flt.cur.head? = some x → x.sev < e.sev) (hclosed : s.errClosed e = false) (hcause : e.cause ≠ 7) (hkind : e.kind = 2 ∨ 4 ≤ e.kind) :
    ∃ t, exec (.errorHandling none ok row chan) s = .next t ∧ t.flt.queue = s.flt.queue.erase e ∧ t.flt.cur = s.flt.cur
      ∧ t.fld .FLT_LAST_CAUSE = e.cause % 2 ^ 16 ∧ t.fld .FLT_LAST_SEVERITY = e.sev % 8 := by
  have hexec := errorHandling_taken ok row chan hup hmp hq hcur hclosed
  rw [handle_module ok row chan hkind hcause] at hexec
  let u := s.taken e
  have hflt : (u.lastErr e).flt = u.flt := ((lastErr_spec u e).2.2.1 .flt (by decide)).symm
  obtain ⟨hqueue, hcur', hlast, hsev, -⟩ := endHandling_spec (u.lastErr e) e
  change exec _ s = .next ((u.lastErr e).endHandling e).evalState at hexec
  generalize (u.lastErr e).endHandling e = v at hexec hqueue hcur' hlast hsev
  have hkept := fltKept_evalState v
  have hword : v.evalState.word .FLT_LAST = v.word .FLT_LAST := word_evalState (by decide) (by decide) (by decide)
  refine ⟨_, hexec, hkept.queue.trans (hqueue.trans (congrArg Flt.queue hflt)), ?_, (fld_of_word (f := .FLT_LAST_CAUSE) hword).trans hlast,
    (fld_of_word (f := .FLT_LAST_SEVERITY) hword).trans hsev⟩
  exact hkept.cur.trans (hcur'.trans ((congrArg (fun f : Flt => f.cur.erase e) hflt).trans (List.erase_cons_head _ _)))

theorem tile_of_tiles {s t : State} (h : s.tiles = t.tiles) (p : Nat) : t.tile p = s.tile p := by
  unfold State.tile
  rw [h]

/-- A tile-scope error is handled until the tile's recovery. -/
theorem errorHandling_tile {s : State} {e : ErrRec} (ok : Bool) (row chan : Nat) (hup : s.up = true) (hmp : s.flt.mpDown = false) (hq : nextErr s.flt.queue = some e)
    (hcur : ∀ x, s.flt.cur.head? = some x → x.sev < e.sev) (hclosed : s.errClosed e = false) (hcause : e.cause ≠ 7) (hkind : e.kind = 0) (hscope : e.scope = 0)
    (hex : e.exhaust = false) (hhalf : s.halfOn e.index = none) :
    ∃ t, exec (.errorHandling none ok row chan) s = .next t ∧ t.flt.queue = s.flt.queue.erase e ∧ t.flt.cur = e :: s.flt.cur ∧ (t.tile e.index).st = .fault := by
  have hexec := errorHandling_taken ok row chan hup hmp hq hcur hclosed
  let u := s.taken e
  obtain ⟨-, -, hlast, hword⟩ := lastErr_spec u e
  have hhalf' : (u.lastErr e).halfOn e.index = none :=
    (halfOn_congr (hword .CTL_CTRL (by decide)) (hword .CTL_STATE (by decide)) (hlast .cluMap (by decide)) (hlast .tileMap (by decide)) _).trans hhalf
  rw [handle_tile ok row chan hkind hscope hex hcause hhalf'] at hexec
  change exec _ s = .next (((u.lastErr e).endTile e.index).setTile e.index { ((u.lastErr e).endTile e.index).tile e.index with st := .fault }).evalState at hexec
  have hflt : ((u.lastErr e).endTile e.index).flt = u.flt := (sameBut_endTile (u.lastErr e) e.index .flt (by decide)).symm.trans (hlast .flt (by decide)).symm
  generalize (u.lastErr e).endTile e.index = v at hexec hflt
  have hkept := fltKept_evalState (v.setTile e.index { v.tile e.index with st := .fault })
  refine ⟨_, hexec, hkept.queue.trans (congrArg Flt.queue hflt), hkept.cur.trans (congrArg Flt.cur hflt), ?_⟩
  rw [tile_of_tiles ((reportStep_evalState _).1 .tiles (by decide)), tile_setTile_self]

/-! ### Recovery, a channel's copy, and retirement (R361, R366, R370, R372) -/

theorem unit_setUnit_self (s : State) (k : Nat) (u : UnitRec) : (s.setUnit k u).unit k = u := Tab.get_set_self _ _ _ _

/-- A change of a unit's score is a change of the fault block alone. -/
theorem addScore_spec (s : State) (k down up : Nat) : let t := s.addScore k down up
    (t.unit k).score = min 1000 ((s.unit k).score - down + up) ∧ s.sameBut t [.flt] :=
  ⟨congrArg UnitRec.score (unit_setUnit_self s k _), sameBut_onFlt _ _ (by decide)⟩

theorem flag_addScore (s : State) (k down up : Nat) (f : Fld) : (s.addScore k down up).flag f = s.flag f := rfl

/-- The end of a tile's recovery, of an error that is handled. -/
theorem exec_tileRecoveryDone {s : State} {p : Nat} {e : ErrRec} (pass : Bool) (hup : s.up = true) (hmp : s.flt.mpDown = false)
    (he : s.flt.cur.find? (fun e => e.kind == 0 && e.index == p) = some e) : exec (.tileRecoveryDone p pass) s = .next (if pass
      then ((s.setTile p { s.tile p with st := if s.flag .TIL_CTRL_HALT p then .halted else .idle }).endHandling e).repairOn p
      else (if s.flag .FLT_CTRL_AUTO_RETIRE then (s.addScore (unitKey 0 p) 400 0).retireTile p e.esc else s.addScore (unitKey 0 p) 400 0).endHandling e) := by
  change execTileRecoveryDone p pass s = _
  rw [execTileRecoveryDone, whenUp_of_up _ hup]
  simp only [he, hmp, Bool.false_eq_true, ↓reduceIte]
  rw [flag_addScore]

theorem tileRecovery_passes {s : State} {p : Nat} {e : ErrRec} (hup : s.up = true) (hmp : s.flt.mpDown = false)
    (he : s.flt.cur.find? (fun e => e.kind == 0 && e.index == p) = some e) : ∃ u : State, exec (.tileRecoveryDone p true) s = .next (u.repairOn p)
      ∧ u.flt.cur = s.flt.cur.erase e ∧ (u.tile p).st = (if s.flag .TIL_CTRL_HALT p then .halted else .idle) ∧ u.fld .FLT_LAST_CAUSE = e.cause % 2 ^ 16 := by
  obtain ⟨-, hcur, hlast, -, hsame⟩ := endHandling_spec (s.setTile p { s.tile p with st := if s.flag .TIL_CTRL_HALT p then .halted else .idle }) e
  refine ⟨_, (exec_tileRecoveryDone true hup hmp he).trans (congrArg _ (if_pos rfl)), hcur, ?_, hlast⟩
  rw [tile_of_tiles (hsame .tiles (by decide)), tile_setTile_self]

theorem tileRecovery_fails {s : State} {p : Nat} {e : ErrRec} (hup : s.up = true) (hmp : s.flt.mpDown = false)
    (he : s.flt.cur.find? (fun e => e.kind == 0 && e.index == p) = some e) : ∃ u, exec (.tileRecoveryDone p false) s
        = .next ((if s.flag .FLT_CTRL_AUTO_RETIRE then u.retireTile p e.esc else u).endHandling e)
      ∧ (u.unit (unitKey 0 p)).score = min 1000 ((s.unit (unitKey 0 p)).score - 400) ∧ s.sameBut u [.flt] := by
  obtain ⟨hscore, hsame⟩ := addScore_spec s (unitKey 0 p) 400 0
  rw [Nat.add_zero] at hscore
  exact ⟨_, (exec_tileRecoveryDone false hup hmp he).trans (congrArg _ (if_neg (by decide))), hscore, hsame⟩

/-- A channel's copy ends (R370). -/
theorem channelCopyDone_spec {s : State} {ch : Nat} (hup : s.up = true) (hch : ch < 64) (hcopy : s.flt.copying = some ch) : ∃ t, exec .channelCopyDone s = .next t
    ∧ t.flt.copying = none ∧ t.fld .FLT_SPARES_CHAN_USED = 1 ∧ t.fld .FLT_SPARES_CHAN = ch ∧ t.stsBit .FLT_STS 6 = true := by
  let u := s.onFlt (fun f => { f with copying := none })
  let v := (u.setFld .FLT_SPARES_CHAN_USED 1).setFld .FLT_SPARES_CHAN ch
  have hexec : exec .channelCopyDone s = .next (v.report 1 0x0012 2 ch 3 [] 0 false true) := by
    change execChannelCopyDone s = _
    rw [execChannelCopyDone, whenUp_of_up _ hup]
    simp only [hcopy]
    rfl
  have hkept := fltKept_report v 1 0x0012 2 ch 3 [] 0 false true none (by decide)
  obtain ⟨w, hw, hword, -, hsts⟩ := reg_report (s := v) 1 0x0012 2 ch 3 [] 0 false true none (by decide)
  rw [hw] at hexec hkept
  have hspares : w.word .FLT_SPARES = v.word .FLT_SPARES := hword _ 0 0 (by decide) (by decide) (by decide)
  refine ⟨_, hexec, hkept.copying, ?_, ?_, (reportRegs_evalState w).sts _ _ _ (hsts rfl)⟩
  · exact (fld_evalState rfl (Fld.fits_of_le (by decide)) (by decide)).trans ((fld_of_word (f := .FLT_SPARES_CHAN_USED) hspares).trans
      ((State.fld_setFld_of_disjoint _ _ _ _ (by rfl) (Fld.fits_of_le (by decide)) (by decide)).trans (fld_setFld_lt _ _ _ _ _ (Fld.fits_of_le (by decide)) (by decide))))
  · exact (fld_evalState rfl (Fld.fits_of_le (by decide)) (by decide)).trans ((fld_of_word (f := .FLT_SPARES_CHAN) hspares).trans
      (fld_setFld_lt _ _ _ _ _ (Fld.fits_of_le (by decide)) hch))

/-- A tile whose work has ended retires (R366). -/
theorem retireHalted_spec {s : State} {i : Nat} (hup : s.up = true) (hmp : s.flt.mpDown = false) (hmem : unitKey 0 i ∈ s.flt.retiring) (hidle : s.tileBusy i = false) :
    ∃ u, exec (.retireHalted 0 i) s = .next (u.retireTile i false) ∧ unitKey 0 i ∉ u.flt.retiring ∧ (u.tile i).retiring = false ∧ s.sameBut u [.flt, .tiles] := by
  let u := (s.onFlt (fun f => { f with retiring := f.retiring.filter (· != unitKey 0 i) })).setTile i { s.tile i with retiring := false }
  refine ⟨u, ?_, ?_, congrArg Tile.retiring (tile_setTile_self _ _ _), sameBut_trans (sameBut_onFlt _ _ (by decide)) (sameBut_setTile _ _ _ (by decide))⟩
  · change execRetireHalted 0 i s = _
    rw [execRetireHalted, whenUp_of_up _ hup]
    refine congrArg _ ((if_neg ?_).trans ((if_pos rfl).trans (if_neg ?_)))
    · simp [hmp, hmem]
    · rw [Bool.not_eq_true]
      exact hidle
  · change unitKey 0 i ∉ s.flt.retiring.filter (· != unitKey 0 i)
    simp

/-- A tile that holds no place retires with a report (R366). -/
theorem retireTile_unplaced {s : State} {p : Nat} (esc : Bool) (hp : p < 153) (hret : s.tileRetired p = false) (hhalf : s.halfOn p = none) (hplace : s.tilePlace p = none) :
    ((s.retireTile p esc).tile p).retired = true ∧ (s.retireTile p esc).stsBit .FLT_STS 6 = true := by
  have ht : s.retireTile p esc = (s.markRetired p).report 1 0x0012 0 p (b2n esc) ((s.unitRole 0 p).bind s.tileRealm).toList 0 esc true := by
    unfold State.retireTile
    rw [if_neg (by simp [hret, hp])]
    simp only [hhalf, hplace]
  obtain ⟨w, hw, -, -, hsts⟩ := reg_report (s := s.markRetired p) 1 0x0012 0 p (b2n esc) ((s.unitRole 0 p).bind s.tileRealm).toList 0 esc true none (by decide)
  have htiles := (reportStep_report (s.markRetired p) 1 0x0012 0 p (b2n esc) ((s.unitRole 0 p).bind s.tileRealm).toList 0 esc true none).1 .tiles (by decide)
  rw [ht, tile_of_tiles htiles, hw]
  exact ⟨congrArg Tile.retired (tile_setTile_self s p _), (reportRegs_evalState w).sts _ _ _ (hsts rfl)⟩

/-! ### Known answers and the hour (R359, R372) -/

/-- A tile's known-answer pass: unless it fails, the tile has passed on the microcode it holds. -/
def State.answered (fails : List Nat) (s : State) (p : Nat) : State :=
  if fails.contains p then s else s.setTile p { s.tile p with passed := (s.tile p).nextUcode.isNone }

theorem answered_spec (fails : List Nat) (s : State) (p : Nat) : let t := s.answered fails p
    s.sameBut t [.tiles] ∧ (∀ q, (t.tile q).nextUcode = (s.tile q).nextUcode)
      ∧ (∀ q, (s.tile q).passed = (s.tile q).nextUcode.isNone → (t.tile q).passed = (t.tile q).nextUcode.isNone)
      ∧ (p ∉ fails → (t.tile p).passed = (t.tile p).nextUcode.isNone) := by
  by_cases h : p ∈ fails
  · have ht : s.answered fails p = s := if_pos (List.contains_iff_mem.2 h)
    rw [ht]
    exact ⟨sameBut_refl _ _, fun _ => rfl, fun _ => id, fun hn => absurd h hn⟩
  · have ht : s.answered fails p = s.setTile p { s.tile p with passed := (s.tile p).nextUcode.isNone } := if_neg (fun hc => h (List.contains_iff_mem.1 hc))
    rw [ht]
    have hself := tile_setTile_self s p { s.tile p with passed := (s.tile p).nextUcode.isNone }
    refine ⟨sameBut_setTile _ _ _ (by decide), fun q => ?_, fun q hq => ?_, fun _ => by rw [hself]⟩
    · by_cases hqp : q = p
      · rw [hqp, hself]
      · rw [tile_setTile_of_ne s _ hqp]
    · by_cases hqp : q = p
      · rw [hqp, hself]
      · rw [tile_setTile_of_ne s _ hqp]
        exact hq

theorem foldl_answered (fails : List Nat) (l : List Nat) (s : State) : let t := l.foldl (State.answered fails) s
    s.sameBut t [.tiles] ∧ (∀ q, (t.tile q).nextUcode = (s.tile q).nextUcode)
      ∧ ∀ q, (q ∈ l ∧ q ∉ fails) ∨ (s.tile q).passed = (s.tile q).nextUcode.isNone → (t.tile q).passed = (t.tile q).nextUcode.isNone := by
  induction l generalizing s with
  | nil => exact ⟨sameBut_refl _ _, fun _ => rfl, fun q hq => hq.resolve_left fun h => absurd h.1 List.not_mem_nil⟩
  | cons p l ih =>
    obtain ⟨hsame, hnext, hkeep, hself⟩ := answered_spec fails s p
    obtain ⟨hsame', hnext', hpass⟩ := ih (s.answered fails p)
    refine ⟨sameBut_trans hsame hsame', fun q => (hnext' q).trans (hnext q), fun q hq => hpass q ?_⟩
    rcases hq with ⟨hmem, hok⟩ | hq
    · rcases List.mem_cons.1 hmem with rfl | hl
      · exact .inr (hself hok)
      · exact .inl ⟨hl, hok⟩
    · exact .inr (hkeep q hq)

/-- The idle tiles that run their known-answer pass. -/
def State.answering (s : State) : List Nat := (List.range 153).filter (fun p => (s.tile p).st == .idle && !s.tileBusy p && !s.tileGated p)

theorem knownAnswerPass_spec {s : State} (fails : List Nat) (hup : s.up = true) (hready : s.flag .GLB_STATE_READY = true) :
    ∃ u, exec (.knownAnswerPass fails) s = .next ((s.answering.filter fails.contains).foldl (fun s p => s.contain 0x0002 0 p 0 0) u) ∧ s.sameBut u [.tiles]
      ∧ ∀ p < 153, (s.tile p).st = .idle → s.tileBusy p = false → s.tileGated p = false → p ∉ fails → (u.tile p).passed = (s.tile p).nextUcode.isNone := by
  obtain ⟨hsame, hnext, hpass⟩ := foldl_answered fails s.answering s
  refine ⟨_, (whenReady_of_ready _ (by rw [State.ready, hup, hready]; rfl) : execKnownAnswerPass fails s = _), hsame, fun p hp hst hbusy hgate hok => ?_⟩
  rw [← hnext p]
  exact hpass p (.inl ⟨List.mem_filter.2 ⟨List.mem_range.2 hp, by simp [hst, hbusy, hgate]⟩, hok⟩)

/-- Entries of distinct keys that are written one after another each read as written. -/
theorem get_foldl_set {α β : Type} [DecidableEq β] (d : Nat → β) (g : α → β) (l : List (Nat × α)) (hl : (l.map Prod.fst).Nodup) (t : Tab β) :
    (∀ e ∈ l, Tab.get d (l.foldl (fun t e => Tab.set d e.1 (g e.2) t) t) e.1 = g e.2)
      ∧ ∀ k, k ∉ l.map Prod.fst → Tab.get d (l.foldl (fun t e => Tab.set d e.1 (g e.2) t) t) k = Tab.get d t k := by
  induction l generalizing t with
  | nil => exact ⟨fun e he => absurd he List.not_mem_nil, fun _ _ => rfl⟩
  | cons x l ih =>
    obtain ⟨hx, hl⟩ := List.nodup_cons.1 hl
    obtain ⟨hin, hout⟩ := ih hl (Tab.set d x.1 (g x.2) t)
    refine ⟨fun e he => ?_, fun k hk => ?_⟩
    · rcases List.mem_cons.1 he with rfl | he
      · exact (hout e.1 hx).trans (Tab.get_set_self _ _ _ _)
      · exact hin e he
    · obtain ⟨hkx, hkl⟩ := not_or.1 (mt List.mem_cons.2 hk)
      exact (hout k hkl).trans (Tab.get_set_of_ne _ _ _ hkx)

/-- An hour of every unit (R372). -/
theorem healthHour_spec {s : State} (hup : s.up = true) (hnodup : (s.flt.units.map Prod.fst).Nodup) : ∃ t, exec .healthHour s = .next t
    ∧ ∀ e ∈ s.flt.units, t.unit e.1 = e.2.hour s.gauge := by
  refine ⟨_, (whenUp_of_up _ hup : execHealthHour s = _), fun e he => ?_⟩
  unfold State.unit
  rw [units_evalState]
  exact (get_foldl_set _ (fun u : UnitRec => u.hour s.gauge) s.flt.units hnodup s.flt.units).1 e he

/-! ### The module's state (R374) -/

/-- No condition of R374 is met and each may be left. -/
structure State.Calm (s : State) : Prop where
  score : 650 ≤ s.modScore
  loss : s.lossNow = false
  lane : s.laneLost = false
  mp : s.flt.mpError = none

/-- A change of the conditions, the reported state and the Gauge leaves what the conditions depend on. -/
structure State.SameMeans (s t : State) : Prop where
  regs : s.regs = t.regs
  tiles : s.tiles = t.tiles
  clusters : s.clusters = t.clusters
  cluMap : s.cluMap = t.cluMap
  tileMap : s.tileMap = t.tileMap
  units : s.flt.units = t.flt.units
  secondChan : s.flt.secondChan = t.flt.secondChan
  mpError : s.flt.mpError = t.flt.mpError

theorem modScore_of_sameMeans {s t : State} (h : s.SameMeans t) : t.modScore = s.modScore := by
  obtain ⟨hregs, htiles, hclusters, hclu, htile, hunits, -, -⟩ := h
  unfold State.modScore State.cluScore State.tileScore State.physCluster State.cluRetired State.tileRetired State.mappedTiles State.spareTile State.laneSpare
    State.spareCluUsed State.cluRetired State.tileRetired State.mappedTiles State.unit State.cluster State.tile State.flag State.fld State.word
  rw [hregs, htiles, hclusters, hclu, htile, hunits]

theorem dwell_of_sameMeans {s t : State} (h : s.SameMeans t) : t.dwell = s.dwell := by
  simp only [State.dwell, State.fld, State.word, h.regs]

theorem calm_of_sameMeans {s t : State} (h : s.SameMeans t) (hcalm : s.Calm) : t.Calm where
  score := (modScore_of_sameMeans h).symm ▸ hcalm.score
  loss := by
    have hloss := hcalm.loss
    simp only [State.lossNow, State.laneSimplex, State.flag, State.fld, State.word, h.regs, h.secondChan, h.cluMap] at hloss ⊢
    exact hloss
  lane := by
    have hlane := hcalm.lane
    simp only [State.laneLost, State.flag, State.fld, State.word, h.regs] at hlane ⊢
    exact hlane
  mp := h.mpError ▸ hcalm.mp

theorem sameMeans_latchNow (s : State) : s.SameMeans s.latchNow := by
  unfold State.latchNow
  exact ⟨rfl, rfl, rfl, rfl, rfl, rfl, rfl, rfl⟩

theorem sameMeans_leaveDue (s : State) (g : Nat) : s.SameMeans ({ s with gauge := g } : State).leaveDue := ⟨rfl, rfl, rfl, rfl, rfl, rfl, rfl, rfl⟩

theorem mpRecent_of_calm {s : State} (h : s.Calm) : s.mpRecent = false := by
  unfold State.mpRecent
  rw [h.mp]

/-- The conditions of a calm module stand only as far as they are latched. -/
theorem latchNow_of_calm {s : State} (h : s.Calm) : s.latchNow.flt.worn = s.flt.worn.step false true s.gauge
    ∧ s.latchNow.flt.degraded = s.flt.degraded.step false true s.gauge ∧ s.latchNow.flt.service = s.flt.service.step false true s.gauge := by
  have hscore := h.score
  have hnow : s.serviceNow = false := by rw [State.serviceNow, h.lane, mpRecent_of_calm h, Bool.or_self]
  refine ⟨?_, ?_, ?_⟩
  · change s.flt.worn.step (decide (s.modScore < 600)) (decide (650 ≤ s.modScore)) s.gauge = _
    rw [decide_eq_false (by omega), decide_eq_true hscore]
  · change s.flt.degraded.step s.lossNow (!s.lossNow) s.gauge = _
    rw [h.loss, Bool.not_false]
  · change s.flt.service.step (decide (s.modScore < 200) || s.serviceNow) (decide (300 ≤ s.modScore) && !s.serviceNow) s.gauge = _
    rw [decide_eq_false (by omega), decide_eq_true (show 300 ≤ s.modScore by omega), hnow, Bool.or_self, Bool.not_false, Bool.and_self]

/-- A latch of a condition that may be left stays as it is. -/
theorem latch_step_on (l : Latch) (now : Nat) : (l.step false true now).on = l.on := by
  unfold Latch.step
  rw [if_neg Bool.false_ne_true]
  split <;> rfl

theorem latch_leave_off {l : Latch} (now dwell : Nat) (h : l.on = false) : (l.leave now dwell).on = false := by
  unfold Latch.leave
  cases l.okSince with
  | none => exact h
  | some t => simp [h]

/-- The conditions of a state of which none is latched, after its evaluation. -/
theorem evalState_of_calm {s : State} (h : s.Calm) (hworn : s.flt.worn.on = false) (hdeg : s.flt.degraded.on = false) (hserv : s.flt.service.on = false)
    (hfail : s.flt.failed = false) : s.evalState.flt.worn.on = false ∧ s.evalState.flt.state = 0 := by
  obtain ⟨hw, hd, hs⟩ := latchNow_of_calm h
  have hwon : s.latchNow.flt.worn.on = false := by rw [hw, latch_step_on, hworn]
  have hdon : s.latchNow.flt.degraded.on = false := by rw [hd, latch_step_on, hdeg]
  have hson : s.latchNow.flt.service.on = false := by rw [hs, latch_step_on, hserv]
  have hf : s.latchNow.flt.failed = false := hfail
  rw [flt_evalState]
  refine ⟨hwon, ?_⟩
  change s.latchNow.flt.report = 0
  simp only [Flt.report, hf, hson, hdon, hwon, Bool.false_eq_true, ↓reduceIte]

/-- WORN, the one condition that stands, is left at a count at which its DWELL has passed. -/
theorem leaveDue_worn {u : State} {d g : Nat} (hworn : u.flt.worn = { on := true, okSince := some d }) (hdeg : u.flt.degraded.on = false)
    (hserv : u.flt.service.on = false) (hfail : u.flt.failed = false) (hcalm : u.Calm) (hd : d + u.dwell ≤ g) :
    let t := ({ u with gauge := g } : State).leaveDue.evalState
    t.gauge = g ∧ t.flt.worn.on = false ∧ t.flt.state = 0 := by
  have hlatch (x : State) : x.leaveDue.flt.worn = x.flt.worn.leave x.gauge x.dwell ∧ x.leaveDue.flt.degraded = x.flt.degraded.leave x.gauge x.dwell
      ∧ x.leaveDue.flt.service = x.flt.service.leave x.gauge x.dwell ∧ x.leaveDue.gauge = x.gauge := ⟨rfl, rfl, rfl, rfl⟩
  obtain ⟨hlw, hld, hls, hlg⟩ := hlatch { u with gauge := g }
  have hdwell : ({ u with gauge := g } : State).dwell = u.dwell := dwell_of_sameMeans (s := u) ⟨rfl, rfl, rfl, rfl, rfl, rfl, rfl, rfl⟩
  have hvworn : ({ u with gauge := g } : State).leaveDue.flt.worn.on = false := by
    rw [hlw, hdwell]
    change (u.flt.worn.leave g u.dwell).on = false
    rw [hworn]
    simp [Latch.leave, hd]
  obtain ⟨hoff, hstate⟩ := evalState_of_calm (calm_of_sameMeans (sameMeans_leaveDue u g) hcalm) hvworn (by rw [hld]; exact latch_leave_off _ _ hdeg)
    (by rw [hls]; exact latch_leave_off _ _ hserv) hfail
  exact ⟨((reportStep_evalState _).1 .gauge (by decide)).symm.trans hlg, hoff, hstate⟩

/-- The conditions of a calm module as they are latched now: one, WORN, stands. -/
theorem dwellEnds_latchNow {s : State} {d : Nat} (hworn : s.flt.worn = { on := true, okSince := some d }) (hdeg : s.flt.degraded.on = false)
    (hserv : s.flt.service.on = false) (hcalm : s.Calm) : s.latchNow.flt.worn = { on := true, okSince := some d } ∧ s.latchNow.flt.degraded.on = false
      ∧ s.latchNow.flt.service.on = false ∧ s.latchNow.dwellEnds = [d + s.dwell] := by
  obtain ⟨hw, hd, hs⟩ := latchNow_of_calm hcalm
  have hworn' : s.latchNow.flt.worn = { on := true, okSince := some d } := by
    rw [hw, hworn]
    rfl
  have hdeg' : s.latchNow.flt.degraded.on = false := by rw [hd, latch_step_on, hdeg]
  have hserv' : s.latchNow.flt.service.on = false := by rw [hs, latch_step_on, hserv]
  have hdwell := dwell_of_sameMeans (sameMeans_latchNow s)
  have hrecent := mpRecent_of_calm (calm_of_sameMeans (sameMeans_latchNow s) hcalm)
  refine ⟨hworn', hdeg', hserv', ?_⟩
  unfold State.dwellEnds
  simp only [hworn', hdeg', hserv', hrecent, hdwell, List.filterMap_cons, List.filterMap_nil, Option.map_some, Bool.false_eq_true, ↓reduceIte, List.append_nil]

theorem latchNow_keeps (s : State) : s.latchNow.gauge = s.gauge ∧ s.latchNow.flt.failed = s.flt.failed := by
  unfold State.latchNow
  exact ⟨rfl, rfl⟩

theorem exec_stateDwellExpiry {s : State} {x : Nat} (hup : s.up = true) (hends : s.latchNow.dwellEnds = [x]) :
    exec .stateDwellExpiry s = .next (({ s.latchNow with gauge := max s.latchNow.gauge x } : State).leaveDue).evalState := by
  change execStateDwellExpiry s = _
  rw [execStateDwellExpiry, whenUp_of_up _ hup]
  dsimp only
  rw [hends]
  rfl

/-- The one condition that stands, WORN, leaves once its DWELL has passed. -/
theorem stateDwellExpiry_spec {s : State} {d : Nat} (hup : s.up = true) (hworn : s.flt.worn = { on := true, okSince := some d }) (hdeg : s.flt.degraded.on = false)
    (hserv : s.flt.service.on = false) (hfail : s.flt.failed = false) (hcalm : s.Calm) :
    ∃ t, exec .stateDwellExpiry s = .next t ∧ t.gauge = max s.gauge (d + s.dwell) ∧ t.flt.worn.on = false ∧ t.flt.state = 0 := by
  obtain ⟨hworn', hdeg', hserv', hends⟩ := dwellEnds_latchNow hworn hdeg hserv hcalm
  obtain ⟨hgauge, hfailed⟩ := latchNow_keeps s
  have hexec := exec_stateDwellExpiry hup hends
  rw [hgauge] at hexec
  have hdwell := dwell_of_sameMeans (sameMeans_latchNow s)
  exact ⟨_, hexec, leaveDue_worn hworn' hdeg' hserv' (hfailed.trans hfail) (calm_of_sameMeans (sameMeans_latchNow s) hcalm)
    (by rw [hdwell]; exact Nat.le_max_right _ _)⟩

/-- Settles O47: the choice of the next error, its handling by its kind and scope, and the ends of recoveries, copies, retirements and conditions. -/
theorem errorsAreTakenAndHandled : Obligations.ErrorsAreTakenAndHandled := by
  refine ⟨fun l e => nextErr_first, fun s hup => ⟨fun hmp ok row chan => ⟨errorHandling_none ok row chan hup, fun e hq => ⟨fun x => errorHandling_waits ok row chan hup hmp hq,
      fun hcur hclosed hcause => ⟨errorHandling_module ok row chan hup hmp hq hcur hclosed hcause, errorHandling_tile ok row chan hup hmp hq hcur hclosed hcause⟩⟩⟩,
    fun p e hmp he => ⟨tileRecovery_passes hup hmp he, tileRecovery_fails hup hmp he⟩, fun ch => channelCopyDone_spec hup, fun i hmp => retireHalted_spec hup hmp,
    fun p esc => retireTile_unplaced esc, fun fails => knownAnswerPass_spec fails hup, fun hnodup => ?_,
    fun d hworn hdeg hserv hfail hscore hloss hlane hmp => stateDwellExpiry_spec hup hworn hdeg hserv hfail ⟨hscore, hloss, hlane, hmp⟩⟩⟩
  obtain ⟨t, hexec, hunits⟩ := healthHour_spec hup hnodup
  refine ⟨t, hexec, fun e he => ?_⟩
  rw [hunits e he]
  exact ⟨rfl, rfl, rfl⟩

end Sys2Proof.Machine

/-! SUPPORT. Rejects, warm restarts, retirement, repair and freeze (R359, R366, R367, R371, R378, R381). -/

namespace Sys2Proof.Machine

/-! ### Rejected messages (R378) -/

/-- A reject is counted and its status bit is set. -/
def State.rejected (s : State) : State := (s.bumpWrap .FLT_PERF_REJECT_COUNT 1).setSts .FLT_STS [8]

theorem rejected_spec (s : State) : s.rejected.fld .FLT_PERF_REJECT_COUNT = (s.fld .FLT_PERF_REJECT_COUNT + 1) % 2 ^ 32 ∧ s.rejected.stsBit .FLT_STS 8 = true
    ∧ s.sameBut s.rejected eventParts :=
  ⟨(fld_setSts _ (by decide)).trans (fld_setFld_lt _ _ _ _ _ (Fld.fits_of_le (by decide)) (Nat.mod_lt _ (Nat.two_pow_pos _))), stsBit_setSts _ (by decide),
    sameBut_trans (sameBut_setFld _ _ _ _ _ _ (by decide)) (sameBut_sts _ _ _ _ (List.Subset.refl _))⟩

/-- A contained error waits for firmware behind those before it. -/
theorem queue_contain (s : State) (cause kind index base detail : Nat) (ex : Bool) : ∃ e : ErrRec, (s.contain cause kind index base detail ex).flt.queue = s.flt.queue ++ [e]
    ∧ e.cause = cause ∧ e.kind = kind ∧ e.index = index := by
  unfold State.contain
  extract_lets c scope realms logical x t u
  have ht : t.flt = s.flt := by
    simp only [t]
    split <;> rfl
  have hu := (fltKept_report t 2 cause kind index scope realms detail (decide (base < scope)) false none (by decide)).queue
  exact ⟨_, congrArg (· ++ [_]) (hu.trans (congrArg Flt.queue ht)), rfl, rfl, rfl⟩

theorem flt_faultEnd (s : State) (k : OpKey) (g : Bool) : (s.faultEnd k g).flt = s.flt := by
  unfold State.faultEnd
  split
  · exact ((sameBut_foldl (fun (t : State) c => t.setSts .CLU_STS [1] c) (fun _ _ => sameBut_sts _ _ _ eventParts (List.Subset.refl _)) _ _) .flt (by decide)).symm.trans
      (sameBut_opEnd s _ _ _ .flt (by decide)).symm
  · exact (sameBut_opEnd s _ _ _ .flt (by decide)).symm

/-- A second reject is a contained error of its tile. -/
theorem messageReject_second {s : State} {p : Nat} (hup : s.up = true) (hp : p < 153) : ∃ t e, exec (.messageReject true p none) s = .next t
    ∧ t.flt.queue = s.flt.queue ++ [e] ∧ e.cause = 0x000E ∧ e.kind = 0 ∧ e.index = p := by
  let v := s.rejected.contain 0x000E 0 p 0 0
  have hexec : exec (.messageReject true p none) s = .next (match (v.tile p).cur with
      | some k => v.faultEnd k ((List.range 9).any (fun c => (v.cluster c).groups.contains k))
      | none => v) := by
    change execMessageReject true p none s = _
    rw [execMessageReject, whenUp_of_up _ hup]
    exact congrArg _ (if_neg (by simp [hp]))
  have hflt : s.rejected.flt = s.flt := ((rejected_spec s).2.2 .flt (by decide)).symm
  obtain ⟨e, hqueue, he⟩ := queue_contain s.rejected 0x000E 0 p 0 0 false
  rw [hflt] at hqueue
  refine ⟨_, e, hexec, ?_, he⟩
  split
  · rw [flt_faultEnd]
    exact hqueue
  · exact hqueue

/-! ### Warm restarts (R359, R411, R413) -/

/-- A planned restart ends. -/
theorem warmRestart_planned {s : State} (v : Nat) (hup : s.up = true) (hplan : s.sec.planned = true) : ∃ t, exec (.mgmtWarmRestart v) s = .next t
    ∧ t.flt = { s.flt with mpDown := false } ∧ t.sec.planned = false
    ∧ (s.sec.migrating = true → t.fld .FWU_SETTINGS_VERSION = v % 2 ^ 16 ∧ t.sec.migrating = false) := by
  let u := (s.onFlt (fun f => { f with mpDown := false })).onSec (fun x => { x with planned := false })
  have hexec : exec (.mgmtWarmRestart v) s = .next (if s.sec.migrating then (u.setFld .FWU_SETTINGS_VERSION v).onSec (fun x => { x with migrating := false }) else u) := by
    change execMgmtWarmRestart v s = _
    rw [execMgmtWarmRestart, whenUp_of_up _ hup, if_pos hplan]
    rfl
  refine ⟨_, hexec, ?_⟩
  cases hmig : s.sec.migrating with
  | false =>
    rw [if_neg Bool.false_ne_true]
    exact ⟨rfl, rfl, fun h => Bool.noConfusion h⟩
  | true =>
    rw [if_pos rfl]
    exact ⟨rfl, rfl, fun _ => ⟨State.fld_setFld_self u _ _ _ _ (Fld.fits_of_le (by decide)), rfl⟩⟩

/-- An unplanned restart is an error of the module, and counts against a trial that it does not end. -/
theorem warmRestart_unplanned {s : State} (v : Nat) (hup : s.up = true) (hplan : s.sec.planned = false) (htrial : s.fwuSt = fwuTrial → s.sec.restarts < 2) :
    ∃ t, exec (.mgmtWarmRestart v) s = .next t ∧ t.flt.mpDown = false ∧ t.flt.mpError = some s.gauge ∧ t.stsBit .FLT_STS 3 = true
      ∧ t.sec.restarts = (if s.fwuSt = fwuTrial then s.sec.restarts + 1 else s.sec.restarts) := by
  let u := s.onFlt (fun f => { f with mpDown := false, mpError := some s.gauge })
  let w := u.report 4 0x000F 4 0 3 u.evRealms 0
  have hexec : exec (.mgmtWarmRestart v) s = .next (if w.fwuSt = fwuTrial then
      (if 3 ≤ w.sec.restarts + 1 then ((w.onSec (fun x => { x with restarts := x.restarts + 1 })).setFld .FWU_STATE_LEFT 0).fwuEnter fwuFallback 0
       else w.onSec (fun x => { x with restarts := x.restarts + 1 })) else w) := by
    change execMgmtWarmRestart v s = _
    rw [execMgmtWarmRestart, whenUp_of_up _ hup, if_neg (by rw [hplan]; exact Bool.false_ne_true)]
    rfl
  have hkept := fltKept_report u 4 0x000F 4 0 3 u.evRealms 0 false false none (by decide)
  have hsec := sec_report4 u 0x000F 4 0 3 u.evRealms 0 false false none
  have hregs := reportRegs_report u 4 0x000F 4 0 3 u.evRealms 0 false false none
  obtain ⟨x, hx, -, hsts, -⟩ := reg_report (s := u) 4 0x000F 4 0 3 u.evRealms 0 false false none (by decide)
  have hst : w.fwuSt = s.fwuSt := hregs.fld .FWU_STATE_STATE 0 0 (by decide) (by decide) (by decide) (by decide)
  have hrestarts : w.sec.restarts = s.sec.restarts := by
    rw [show w.sec = _ from hsec]
    rfl
  have hbit : w.stsBit .FLT_STS 3 = true := by
    rw [show w = x.evalState from hx]
    exact (reportRegs_evalState x).sts _ _ _ hsts
  rw [hst, hrestarts] at hexec
  refine ⟨_, hexec, ?_⟩
  by_cases ht : s.fwuSt = fwuTrial
  · have hlt := htrial ht
    rw [if_pos ht, if_pos ht, if_neg (by omega)]
    exact ⟨hkept.mpDown, hkept.mpError, hbit, congrArg (· + 1) hrestarts⟩
  · rw [if_neg ht, if_neg ht]
    exact ⟨hkept.mpDown, hkept.mpError, hbit, hrestarts⟩

/-! ### Retirement by command (R366, R367) -/

theorem exec_retire {s : State} (hopen : s.openTo 12 0 = true) : exec (.retire .fw) s = .next s.retireCmd := fw_open s .FLT_CMD 0 2 State.retireCmd hopen

/-- RETIRE of a cluster. -/
def State.retireClusterCmd (s : State) (c : Nat) : State :=
  if s.cluRetired c || decide (9 ≤ c) then s
  else if s.blockBusy (256 + c) then
    ((List.range 17).foldl (fun s t => s.setTile (17 * c + t) { s.tile (17 * c + t) with retiring := true }) s).onFlt (fun f =>
      { f with retiring := insertKey (unitKey 1 c) f.retiring })
  else s.retireCluster c false

/-- RETIRE of a tile. -/
def State.retireTileCmd (s : State) (i : Nat) : State :=
  if s.tileRetired i || decide (153 ≤ i) then s
  else if !s.tileBusy i || s.flt.cur.any (fun e => e.kind == 0 && e.index == i) then (s.endTile i).retireTile i false
  else match s.tilePlace i, s.spareTile (i / 17) with
    | some _, none => s.retireClusterCmd (i / 17)
    | _, q =>
      let u := match q with
        | some q => s.mapTile i q
        | none => s
      (u.setTile i { u.tile i with retiring := true }).onFlt (fun f => { f with retiring := insertKey (unitKey 0 i) f.retiring })

theorem retireCmd_tile {s : State} (h : s.fld .FLT_UNIT_SEL_KIND = 0) : s.retireCmd = s.retireTileCmd (s.fld .FLT_UNIT_SEL_INDEX) := by
  unfold State.retireCmd
  simp only [h]
  rfl

theorem retireCmd_cluster {s : State} (h : s.fld .FLT_UNIT_SEL_KIND = 1) : s.retireCmd = s.retireClusterCmd (s.fld .FLT_UNIT_SEL_INDEX) := by
  unfold State.retireCmd
  simp only [h]
  rfl

theorem sameBut_bumpEpoch (s : State) (k : Nat) {ps : List Part} (h : Part.flt ∈ ps) : s.sameBut (s.bumpEpoch k) ps := sameBut_onFlt s _ h

/-- A place of a cluster that moves to another tile. -/
theorem mapTile_spec {s : State} {i q a : Nat} (hplace : s.tilePlace i = some a) : let t := s.mapTile i q
    Tab.get (fun k => k % 16) t.tileMap (16 * (i / 17) + a) = q % 17 ∧ (t.tile i).cur = (s.tile i).cur ∧ s.sameBut t [.flt, .tiles, .tileMap] := by
  let u := s.setTile i { s.tile i with was := s.logTile i }
  let v : State := { u with tileMap := Tab.set (fun k => k % 16) (16 * (i / 17) + a) (q % 17) u.tileMap }
  have hv : s.mapTile i q = match v.logTile q with
      | some lt => v.bumpEpoch lt
      | none => v := by
    unfold State.mapTile
    rw [hplace] <;> rfl
  have huv : u.sameBut v [.flt, .tiles, .tileMap] := fun p hp => by
    cases p with
    | tileMap => exact absurd (by decide) hp
    | _ => rfl
  have hsame : s.sameBut v [.flt, .tiles, .tileMap] := sameBut_trans (sameBut_setTile _ _ _ (by decide)) huv
  have hmap : Tab.get (fun k => k % 16) v.tileMap (16 * (i / 17) + a) = q % 17 := Tab.get_set_self _ _ _ _
  have hcur : (v.tile i).cur = (s.tile i).cur := by
    rw [show v.tile i = u.tile i from rfl, tile_setTile_self]
  intro t
  rw [show t = _ from hv]
  split
  · exact ⟨hmap, hcur, sameBut_trans hsame (sameBut_bumpEpoch _ _ (by decide))⟩
  · exact ⟨hmap, hcur, hsame⟩

/-- A busy tile keeps its work while its stand-in takes its place (R366). -/
theorem retireTileCmd_busy {s : State} {i a q : Nat} (hi : i < 153) (hret : s.tileRetired i = false) (hbusy : s.tileBusy i = true)
    (hcur : s.flt.cur.any (fun e => e.kind == 0 && e.index == i) = false) (hplace : s.tilePlace i = some a) (hspare : s.spareTile (i / 17) = some q) :
    let t := s.retireTileCmd i
    Tab.get (fun k => k % 16) t.tileMap (16 * (i / 17) + a) = q % 17 ∧ (t.tile i).retiring = true ∧ (t.tile i).cur = (s.tile i).cur
      ∧ s.sameBut t [.flt, .tiles, .tileMap] := by
  obtain ⟨hmap, hcur', hsame⟩ := mapTile_spec (q := q) hplace
  have ht : s.retireTileCmd i = ((s.mapTile i q).setTile i { (s.mapTile i q).tile i with retiring := true }).onFlt (fun f =>
      { f with retiring := insertKey (unitKey 0 i) f.retiring }) := by
    unfold State.retireTileCmd
    rw [if_neg (by simp [hret, hi]), if_neg (by simp [hbusy, hcur])]
    simp only [hplace, hspare]
  intro t
  rw [show t = _ from ht]
  generalize s.mapTile i q = u at hmap hcur' hsame ⊢
  have hself := tile_setTile_self u i { u.tile i with retiring := true }
  exact ⟨hmap, congrArg Tile.retiring hself, (congrArg Tile.cur hself).trans hcur',
    sameBut_trans hsame (sameBut_trans (sameBut_setTile _ _ _ (by decide)) (sameBut_onFlt _ _ (by decide)))⟩

/-- A busy cluster retires once its work has ended (R367). -/
theorem retireClusterCmd_busy {s : State} {c : Nat} (hc : c < 9) (hret : s.cluRetired c = false) (hbusy : s.blockBusy (256 + c) = true) :
    s.sameBut (s.retireClusterCmd c) [.flt, .tiles] := by
  unfold State.retireClusterCmd
  rw [if_neg (by simp [hret, hc]), if_pos hbusy]
  exact sameBut_trans (sameBut_foldl _ (fun _ _ => sameBut_setTile _ _ _ (by decide)) _ _) (sameBut_onFlt _ _ (by decide))

/-! ### A cluster's retirement (R287, R367) -/

theorem sameBut_roleMove (s : State) (l : Nat) : s.sameBut (s.roleMove l) [.flt] :=
  sameBut_trans (sameBut_bumpEpoch _ _ (by decide)) (sameBut_foldl _ (fun _ _ => sameBut_bumpEpoch _ _ (by decide)) _ _)

/-- A spare cluster that takes a logical number. -/
theorem standIn_spec (s : State) (l q : Nat) : (s.standIn l q).cluMap = s.cluMap.set l q ∧ (s.standIn l q).clusters = s.clusters := by
  unfold State.standIn
  dsimp only
  have hmove := sameBut_roleMove ({ s with cluMap := s.cluMap.set l q } : State) l
  have hmap : (({ s with cluMap := s.cluMap.set l q } : State).roleMove l).cluMap = s.cluMap.set l q := (hmove .cluMap (by decide)).symm
  have hclu : (({ s with cluMap := s.cluMap.set l q } : State).roleMove l).clusters = s.clusters := (hmove .clusters (by decide)).symm
  clear hmove
  generalize ({ s with cluMap := s.cluMap.set l q } : State).roleMove l = u at hmap hclu ⊢
  split
  · split <;> exact ⟨hmap, hclu⟩
  · exact ⟨hmap, hclu⟩

/-- The state of a cluster that is about to be reported as retired. -/
def State.cluMarked (s : State) (c : Nat) (l : Option Nat) : State :=
  (List.range 17).foldl (fun s t => s.setTile (17 * c + t) { s.tile (17 * c + t) with retiring := false, cur := none })
    (s.setCluster c { s.cluster c with retired := true, was := l })

theorem cluMarked_spec (s : State) (c : Nat) (l : Option Nat) : ((s.cluMarked c l).cluster c).retired = true ∧ s.sameBut (s.cluMarked c l) [.tiles, .clusters]
    ∧ (s.cluMarked c l).spareCluster = (s.setCluster c { s.cluster c with retired := true, was := l }).spareCluster := by
  have hfold : (s.setCluster c { s.cluster c with retired := true, was := l }).sameBut (s.cluMarked c l) [.tiles] :=
    sameBut_foldl _ (fun _ _ => sameBut_setTile _ _ _ (by decide)) _ _
  have hself := cluster_setCluster_self s c { s.cluster c with retired := true, was := l }
  have hall : s.sameBut (s.cluMarked c l) [.tiles, .clusters] := sameBut_trans (sameBut_setCluster _ _ _ (by decide)) (sameBut_mono hfold (by decide))
  generalize s.setCluster c { s.cluster c with retired := true, was := l } = u at hfold hself ⊢
  have hclu : ∀ k, (s.cluMarked c l).cluster k = u.cluster k := fun k => by
    unfold State.cluster
    rw [← (hfold .clusters (by decide) : u.clusters = _)]
  have hmap : u.cluMap = (s.cluMarked c l).cluMap := hfold .cluMap (by decide)
  refine ⟨by rw [hclu, hself], hall, ?_⟩
  unfold State.spareCluster State.logCluster State.physCluster State.cluRetired
  simp only [hclu, hmap]

/-- What takes the place of a logical cluster whose cluster retires, and the severity of its report. -/
def State.cluReplaced (s : State) (c l : Nat) : Nat × State :=
  match s.spareCluster with
  | some q => (1, if q = 8 then (s.standIn l q).setFld .FLT_SPARES_CLU_FOR c else s.standIn l q)
  | none =>
    let u := ({ s with cluMap := s.cluMap.set l 9 } : State).roleMove l
    (3, u.setFld .FLT_SPARES_UNAVAIL (Nat.lor (u.fld .FLT_SPARES_UNAVAIL) (2 ^ l)))

/-- A cluster that retires outside the lane. -/
theorem retireCluster_eq {s : State} {c l : Nat} (esc : Bool) (hc : c < 9) (hret : s.cluRetired c = false) (hen : s.flag .CTL_CTRL_LANE_EN = false) (hlog : s.logCluster c = some l) :
    s.retireCluster c esc = ((s.cluMarked c (some l)).cluReplaced c l).2.report ((s.cluMarked c (some l)).cluReplaced c l).1 0x0012 1 c 2 (s.cluRealms c) 0 esc true := by
  have hen' : (s.cluMarked c (some l)).flag .CTL_CTRL_LANE_EN = false := by
    rw [← hen]
    unfold State.flag State.fld State.word
    rw [(cluMarked_spec s c (some l)).2.1 .regs (by decide)]
  unfold State.retireCluster
  rw [if_neg (by simp [hret, hc])]
  extract_lets realms hs s1 s2 l' c' s3 s4 x s5
  have hhs : hs = [] := if_neg (by rw [hen]; exact Bool.false_ne_true)
  clear_value hs
  subst hhs
  have hs2 : s2 = s := rfl
  clear_value s2
  subst hs2
  have hl : l' = some l := hlog
  clear_value l'
  subst hl
  have hm : s4 = s2.cluMarked c (some l) := by
    unfold State.cluMarked
    rfl
  clear_value s4
  subst hm
  have hx : x = (s2.cluMarked c (some l)).cluReplaced c l := by
    simp only [x]
    unfold State.cluReplaced
    cases (s2.cluMarked c (some l)).spareCluster with
    | none => rfl
    | some q =>
      dsimp only
      rw [hen', if_neg Bool.false_ne_true]
  change x.2.report x.1 0x0012 1 c 2 realms 0 esc true = _
  rw [hx]

theorem cluReplaced_spec (s : State) (c l : Nat) : (s.cluReplaced c l).2.clusters = s.clusters
    ∧ (∀ q, s.spareCluster = some q → (s.cluReplaced c l).2.cluMap = s.cluMap.set l q)
    ∧ (s.spareCluster = none → (s.cluReplaced c l).1 = 3 ∧ (s.cluReplaced c l).2.cluMap = s.cluMap.set l 9)
    ∧ (s.cluReplaced c l).1 ≠ 5 := by
  unfold State.cluReplaced
  cases s.spareCluster with
  | none =>
    dsimp only
    have hmove := sameBut_roleMove ({ s with cluMap := s.cluMap.set l 9 } : State) l
    have hmap : (({ s with cluMap := s.cluMap.set l 9 } : State).roleMove l).cluMap = s.cluMap.set l 9 := (hmove .cluMap (by decide)).symm
    have hclu : (({ s with cluMap := s.cluMap.set l 9 } : State).roleMove l).clusters = s.clusters := (hmove .clusters (by decide)).symm
    clear hmove
    generalize ({ s with cluMap := s.cluMap.set l 9 } : State).roleMove l = u at hmap hclu ⊢
    exact ⟨hclu, fun _ h => (nomatch h), fun _ => ⟨rfl, hmap⟩, by omega⟩
  | some q =>
    obtain ⟨hmap, hclu⟩ := standIn_spec s l q
    dsimp only
    generalize s.standIn l q = u at hmap hclu ⊢
    refine ⟨?_, fun q' h => ?_, fun h => (nomatch h), by omega⟩
    · split <;> exact hclu
    · obtain rfl := Option.some.inj h
      split <;> exact hmap

/-- A cluster that retires outside the lane gives its number to the spare, or becomes unavailable. -/
theorem retireCluster_spec {s : State} {c l : Nat} (esc : Bool) (hc : c < 9) (hret : s.cluRetired c = false) (hen : s.flag .CTL_CTRL_LANE_EN = false) (hlog : s.logCluster c = some l) :
    let t := s.retireCluster c esc
    let u := s.setCluster c { s.cluster c with retired := true, was := some l }
    (t.cluster c).retired = true ∧ t.stsBit .FLT_STS 6 = true ∧ (∀ q, u.spareCluster = some q → t.cluMap = s.cluMap.set l q)
      ∧ (u.spareCluster = none → t.cluMap = s.cluMap.set l 9 ∧ t.stsBit .FLT_STS 2 = true) := by
  obtain ⟨hretired, hsame, hspare⟩ := cluMarked_spec s c (some l)
  obtain ⟨hclusters, hsome, hnone, hsev5⟩ := cluReplaced_spec (s.cluMarked c (some l)) c l
  have hmarkedMap : (s.cluMarked c (some l)).cluMap = s.cluMap := (hsame .cluMap (by decide)).symm
  rw [hspare, hmarkedMap] at hsome hnone
  intro t u
  have ht : t = _ := retireCluster_eq esc hc hret hen hlog
  clear_value t
  generalize (s.cluMarked c (some l)).cluReplaced c l = x at ht hclusters hsome hnone hsev5
  have hstep := (reportStep_report (s := x.2) x.1 0x0012 1 c 2 (s.cluRealms c) 0 esc true none).1
  obtain ⟨w, hw, -, hsev, hbit⟩ := reg_report (s := x.2) x.1 0x0012 1 c 2 (s.cluRealms c) 0 esc true none hsev5
  rw [← ht] at hstep hw
  have hclu : t.clusters = (s.cluMarked c (some l)).clusters := (hstep .clusters (by decide)).symm.trans hclusters
  have hmap : t.cluMap = x.2.cluMap := (hstep .cluMap (by decide)).symm
  have hsts : ∀ b, w.stsBit .FLT_STS b = true → t.stsBit .FLT_STS b = true := fun b h => by
    rw [hw]
    exact (reportRegs_evalState w).sts _ _ _ h
  refine ⟨?_, hsts 6 (hbit rfl), fun q h => hmap.trans (hsome q h), fun h => ⟨hmap.trans (hnone h).2, hsts 2 ?_⟩⟩
  · rw [show t.cluster c = (s.cluMarked c (some l)).cluster c from congrArg (fun m => Tab.get _ m c) hclu, hretired]
  · rw [(hnone h).1] at hsev
    exact hsev

/-! ### Repair (R371) -/

theorem exec_fltRepair {s : State} (pass : Bool) (hopen : s.openTo 12 0 = true) : exec (.fltRepair .fw pass) s = .next (s.repairCmd pass) :=
  fw_open s .FLT_CMD 0 4 (fun s => s.repairCmd pass) hopen

/-- A unit's record outlasts the evaluation of the module's state. -/
theorem setUnit_evalState (s : State) (k : Nat) (x : UnitRec) : (s.setUnit k x).evalState.unit k = x ∧ s.sameBut (s.setUnit k x).evalState reportParts := by
  refine ⟨?_, sameBut_trans (sameBut_onFlt _ _ (by decide)) (reportStep_evalState _).1⟩
  unfold State.unit
  rw [units_evalState]
  exact unit_setUnit_self s k x

/-- What a REPAIR that passes does, by the kind of the unit. -/
theorem repairCmd_passed (s : State) : s.repairCmd true = (let i := s.fld .FLT_UNIT_SEL_INDEX
    match s.fld .FLT_UNIT_SEL_KIND with
    | 0 =>
      if !s.tileRetired i then s
      else ((s.setTile i { s.tile i with retired := false, st := .idle, was := none }).setUnit (unitKey 0 i) { s.unit (unitKey 0 i) with score := 500 }).evalState
    | 1 =>
      if !s.cluRetired i then s
      else ((s.setCluster i { s.cluster i with retired := false, was := none }).setUnit (unitKey 1 i) { s.unit (unitKey 1 i) with score := 500 }).evalState
    | 3 =>
      if 4 ≤ i ∨ !bit (s.fld .FLT_SPARES_VID_RETIRED) i then s
      else
        let s := s.setFld .FLT_SPARES_VID_RETIRED (clearBit (s.fld .FLT_SPARES_VID_RETIRED) i)
        ((s.setFld .VID_CTRL_CORE_EN (Nat.lor (s.fld .VID_CTRL_CORE_EN) (2 ^ i))).bumpEpoch (roleCore i)).vidShow.evalState
    | _ => s) := rfl

theorem repairCmd_tile {s : State} (hkind : s.fld .FLT_UNIT_SEL_KIND = 0) (hret : s.tileRetired (s.fld .FLT_UNIT_SEL_INDEX) = true) :
    let i := s.fld .FLT_UNIT_SEL_INDEX
    let t := s.repairCmd true
    (t.tile i).retired = false ∧ (t.tile i).st = .idle ∧ (t.unit (unitKey 0 i)).score = 500 ∧ t.tileMap = s.tileMap := by
  intro i t
  have ht : t = ((s.setTile i { s.tile i with retired := false, st := .idle, was := none }).setUnit (unitKey 0 i) { s.unit (unitKey 0 i) with score := 500 }).evalState := by
    rw [show t = _ from repairCmd_passed s, hkind]
    exact if_neg (by rw [hret]; exact Bool.false_ne_true)
  clear_value t
  have hself := tile_setTile_self s i { s.tile i with retired := false, st := .idle, was := none }
  have hmap : (s.setTile i { s.tile i with retired := false, st := .idle, was := none }).tileMap = s.tileMap := rfl
  generalize s.setTile i { s.tile i with retired := false, st := .idle, was := none } = u at ht hself hmap
  obtain ⟨hunit, hsame⟩ := setUnit_evalState u (unitKey 0 i) { s.unit (unitKey 0 i) with score := 500 }
  rw [← ht] at hunit hsame
  rw [tile_of_tiles (hsame .tiles (by decide)), hself, hunit]
  exact ⟨rfl, rfl, rfl, (hsame .tileMap (by decide)).symm.trans hmap⟩

theorem repairCmd_cluster {s : State} (hkind : s.fld .FLT_UNIT_SEL_KIND = 1) (hret : s.cluRetired (s.fld .FLT_UNIT_SEL_INDEX) = true) :
    let i := s.fld .FLT_UNIT_SEL_INDEX
    let t := s.repairCmd true
    (t.cluster i).retired = false ∧ (t.unit (unitKey 1 i)).score = 500 ∧ t.cluMap = s.cluMap := by
  intro i t
  have ht : t = ((s.setCluster i { s.cluster i with retired := false, was := none }).setUnit (unitKey 1 i) { s.unit (unitKey 1 i) with score := 500 }).evalState := by
    rw [show t = _ from repairCmd_passed s, hkind]
    exact if_neg (by rw [hret]; exact Bool.false_ne_true)
  clear_value t
  have hself := cluster_setCluster_self s i { s.cluster i with retired := false, was := none }
  have hmap : (s.setCluster i { s.cluster i with retired := false, was := none }).cluMap = s.cluMap := rfl
  generalize s.setCluster i { s.cluster i with retired := false, was := none } = u at ht hself hmap
  obtain ⟨hunit, hsame⟩ := setUnit_evalState u (unitKey 1 i) { s.unit (unitKey 1 i) with score := 500 }
  rw [← ht] at hunit hsame
  have hclu : t.cluster i = u.cluster i := congrArg (fun m => Tab.get _ m i) (hsame .clusters (by decide)).symm
  rw [hclu, hself, hunit]
  exact ⟨rfl, rfl, (hsame .cluMap (by decide)).symm.trans hmap⟩

theorem foldl_capUsed (l : List Nat) (hl : ∀ r ∈ l, r < 4) (t : State) :
    (l.foldl (fun s r => s.setFld .VID_RLM_CAP_USED (upM (s.reserved (some r))) 0 r) t).word .FLT_SPARES = t.word .FLT_SPARES := by
  induction l generalizing t with
  | nil => rfl
  | cons r l ih =>
    have hr : r < 4 := hl r (by simp)
    have hne := Reg.key_ne (r := Reg.VID_RLM_CAP) (r' := Reg.FLT_SPARES) (u := 0) (u' := 0) (sel := r) (sel' := 0) (by omega) (by omega) (by omega) (by omega) (.inl (by decide))
    exact (ih (fun x hx => hl x (List.mem_cons_of_mem _ hx)) _).trans (word_setFld_ne hne)

/-- What the VID_ registers show leaves FLT_SPARES. -/
theorem word_vidShow_spares (s : State) : s.vidShow.word .FLT_SPARES = s.word .FLT_SPARES := by
  have hne : ∀ f : Fld, f.reg.key 0 0 ≠ Reg.FLT_SPARES.key 0 0 → ∀ (t : State) (v : Nat), (t.setFld f v).word .FLT_SPARES = t.word .FLT_SPARES :=
    fun f hf t v => word_setFld_ne hf.symm
  unfold State.vidShow
  extract_lets a b
  rw [hne .VID_STATE_CORE_BUSY (by decide), hne .VID_STATE_OPEN (by decide)]
  rw [show b = _ from rfl, foldl_capUsed _ (fun r hr => List.mem_range.1 hr)]
  rw [show a = _ from rfl, hne .VID_CAPACITY_RESERVED (by decide), hne .VID_CAPACITY_CAP (by decide)]

/-- A core's place that changes its hands. -/
theorem spares_coreBack (s : State) (n k : Nat) : ((s.setFld .VID_CTRL_CORE_EN n).bumpEpoch k).vidShow.evalState.fld .FLT_SPARES_VID_RETIRED = s.fld .FLT_SPARES_VID_RETIRED := by
  have hset : (s.setFld .VID_CTRL_CORE_EN n).word .FLT_SPARES = s.word .FLT_SPARES := word_setFld_ne (by decide)
  generalize s.setFld .VID_CTRL_CORE_EN n = u at hset
  have hbump : (u.bumpEpoch k).word .FLT_SPARES = u.word .FLT_SPARES := State.word_onFlt _ _ _ _ _
  generalize u.bumpEpoch k = v at hbump
  have hshow := word_vidShow_spares v
  generalize v.vidShow = w at hshow
  rw [fld_evalState rfl (Fld.fits_of_le (by decide)) (by decide)]
  exact fld_of_word (f := .FLT_SPARES_VID_RETIRED) (hshow.trans (hbump.trans hset))

theorem repairCmd_core {s : State} (hkind : s.fld .FLT_UNIT_SEL_KIND = 3) (hlt : s.fld .FLT_UNIT_SEL_INDEX < 4)
    (hret : bit (s.fld .FLT_SPARES_VID_RETIRED) (s.fld .FLT_UNIT_SEL_INDEX) = true) :
    (s.repairCmd true).fld .FLT_SPARES_VID_RETIRED = clearBit (s.fld .FLT_SPARES_VID_RETIRED) (s.fld .FLT_UNIT_SEL_INDEX) := by
  have hcond : ¬ (4 ≤ s.fld .FLT_UNIT_SEL_INDEX ∨ (!bit (s.fld .FLT_SPARES_VID_RETIRED) (s.fld .FLT_UNIT_SEL_INDEX)) = true) := by
    simp [hret]
    omega
  rw [repairCmd_passed s, hkind]
  refine (congrArg (fun t : State => t.fld .FLT_SPARES_VID_RETIRED) (if_neg hcond)).trans ?_
  refine (spares_coreBack _ _ _).trans ?_
  exact fld_setFld_lt _ _ _ _ _ (Fld.fits_of_le (by decide)) (bit_clearBit (Fld.of_lt _ _) hlt).2

/-! ### Freeze (R381) -/

theorem exec_freeze {s : State} (hopen : s.openTo 12 0 = true) : exec (.freeze .fw) s = .next (s.freeze 1) :=
  fw_open s .FLT_CMD 0 8 (fun s => s.freeze 1) hopen

theorem freeze_armed {s : State} (n : Nat) (harmed : s.freezeArmed = true) : let t := s.freeze n
    t.flt.frozen = true ∧ t.fld .STV_STATE_ATTACH = 0 ∧ s.sameBut t [.flt, .regs] := by
  intro t
  rw [show t = _ from if_pos harmed]
  exact ⟨rfl, State.fld_setFld_self _ _ _ _ _ (Fld.fits_of_le (by decide)), sameBut_trans (sameBut_onFlt _ _ (by decide)) (sameBut_setFld _ _ _ _ _ _ (by decide))⟩

theorem freeze_unarmed {s : State} (n : Nat) (harmed : s.freezeArmed = false) : let t := s.freeze n
    t.flt.frozen = s.flt.frozen ∧ t.stsBit .SEC_STS 3 = true ∧ s.sameBut t eventParts := by
  intro t
  have hsame : s.sameBut ((s.setSts .SEC_STS [3]).emit 0 0x70 5 mgmtRealm n) eventParts :=
    sameBut_trans (sameBut_sts _ _ _ _ (List.Subset.refl _)) (sameBut_emit _ _ _ _ _ _ (List.Subset.refl _))
  rw [show t = _ from if_neg (by rw [harmed]; exact Bool.false_ne_true)]
  exact ⟨congrArg Flt.frozen (hsame .flt (by decide)).symm, stsBit_emit _ (stsBit_setSts _ (by decide)), hsame⟩

/-- Settles O48, part by part: rejects and warm restarts, the command RETIRE, a cluster's retirement, REPAIR and FREEZE. -/
theorem unitsRetireAreRepairedAndFreeze : Obligations.UnitsRetireAreRepairedAndFreeze := by
  unfold Obligations.UnitsRetireAreRepairedAndFreeze
  refine ⟨fun s hup => ⟨fun p => ?_, fun v hplan => warmRestart_planned v hup hplan, fun v hplan htrial => warmRestart_unplanned v hup hplan htrial⟩,
    fun s hopen => ⟨?_, ?_⟩, fun s c l esc hc hret hen hlog => retireCluster_spec esc hc hret hen hlog, ?_, ?_⟩
  · refine ⟨s.rejected, ?_, (rejected_spec s).1, (rejected_spec s).2.1, (rejected_spec s).2.2, fun b h hh => ?_, fun hp => messageReject_second hup hp⟩
    · exact (whenUp_of_up _ hup : execMessageReject false p none s = _).trans (congrArg _ (if_pos rfl))
    · exact (whenUp_of_up _ hup : execMessageReject b p (some h) s = _).trans (congrArg _ (if_pos hh))
  · rintro i rfl hkind hi
    refine ⟨fun hret => ?_, fun hret hidle => ?_, fun a q hret hbusy hcur hplace hspare => ⟨_, exec_retire hopen, ?_⟩⟩
    · rw [exec_retire hopen, retireCmd_tile hkind]
      exact congrArg _ (if_pos (by simp [hret]))
    · rw [exec_retire hopen, retireCmd_tile hkind]
      exact congrArg _ ((if_neg (by simp [hret, hi])).trans (if_pos (by simp [hidle])))
    · rw [retireCmd_tile hkind]
      exact retireTileCmd_busy hi hret hbusy hcur hplace hspare
  · rintro c rfl hkind hc hret
    refine ⟨fun hidle => ?_, fun hbusy => ⟨_, exec_retire hopen, ?_⟩⟩
    · rw [exec_retire hopen, retireCmd_cluster hkind]
      exact congrArg _ ((if_neg (by simp [hret, hc])).trans (if_neg (by rw [hidle]; exact Bool.false_ne_true)))
    · rw [retireCmd_cluster hkind]
      have hsame := retireClusterCmd_busy hc hret hbusy
      refine ⟨?_, hsame⟩
      unfold State.cluster
      rw [← (hsame .clusters (by decide) : s.clusters = _)]
      exact hret
  · rintro s i hopen rfl
    exact ⟨exec_fltRepair false hopen, fun hkind hret => ⟨_, exec_fltRepair true hopen, repairCmd_tile hkind hret⟩,
      fun hkind hret => ⟨_, exec_fltRepair true hopen, repairCmd_cluster hkind hret⟩, fun hkind hi hret => ⟨_, exec_fltRepair true hopen, repairCmd_core hkind hi hret⟩⟩
  · exact fun s hopen => ⟨fun harmed => ⟨_, exec_freeze hopen, freeze_armed 1 harmed⟩, fun harmed => ⟨_, exec_freeze hopen, freeze_unarmed 1 harmed⟩⟩

end Sys2Proof.Machine

/-! SUPPORT. The configuration CRC (R462-R465). -/

namespace Sys2Proof.Machine

/-! ### A computation starts -/

theorem crcStart_idle {s : State} (commit : Bool) (h : s.boot.crc = none) : let t := s.crcStart commit
    t.boot.crc = some { start := s.gauge, commit := commit, held := s.crcHeld } ∧ t.fld .GLB_STATE_CRC_BUSY = 1 ∧ s.sameBut t [.boot, .regs] := by
  intro t
  have ht : t = (s.onBoot (fun b => { b with crc := some { start := s.gauge, commit := commit, held := s.crcHeld } })).setFld .GLB_STATE_CRC_BUSY 1 := by
    simp only [t, State.crcStart, h]
  rw [ht]
  exact ⟨rfl, State.fld_setFld_self _ _ _ _ _ (Fld.fits_of_le (by decide)),
    sameBut_trans (sameBut_onBoot _ _ (by decide)) (sameBut_setFld _ _ _ _ _ _ (by decide))⟩

theorem crcStart_busy {s : State} {c : CrcRun} (commit : Bool) (h : s.boot.crc = some c) : let t := s.crcStart commit
    t.boot.crc = some { c with next := some (commit || c.next.getD false) } ∧ s.sameBut t [.boot] := by
  intro t
  have ht : t = s.onBoot (fun b => { b with crc := some { c with next := some (commit || c.next.getD false) } }) := by
    simp only [t, State.crcStart, h]
  rw [ht]
  exact ⟨rfl, sameBut_onBoot _ _ (by decide)⟩

theorem exec_crcNow {w : Win} {s : State} (hw : ∀ r, w ≠ .realm r) (hup : s.pageUp 0 = true) : exec (.crcNow w) s = .next (s.crcStart false) :=
  congrArg Host.Outcome.next (direct_open (fun s => s.crcStart false) hw hup)

theorem exec_crcCommit {w : Win} {s : State} (hw : ∀ r, w ≠ .realm r) (hup : s.pageUp 0 = true) : exec (.crcCommit w) s = .next (s.crcStart true) :=
  congrArg Host.Outcome.next (direct_open (fun s => s.crcStart true) hw hup)

theorem exec_crcRefWrite {w : Win} {s : State} (v : Nat) (hw : ∀ r, w ≠ .realm r) (hup : s.pageUp 0 = true) :
    exec (.crcRefWrite w v) s = .next (s.crcRefWrite v) :=
  congrArg Host.Outcome.next (direct_open (fun s => s.crcRefWrite v) hw hup)

/-- A periodic computation starts at the next multiple of 65,536 gt. -/
theorem crcPeriodic_spec {s : State} (hready : s.ready = true) : ∃ t, exec .crcPeriodic s = .next t ∧ t.gauge % 65536 = 0 ∧ s.gauge ≤ t.gauge ∧ t.gauge < s.gauge + 65536
    ∧ t.boot.crc.isSome = true ∧ s.sameBut t [.gauge, .boot, .regs] := by
  let u : State := { s with gauge := ceilDiv s.gauge 65536 * 65536 }
  have hexec : exec .crcPeriodic s = .next (if u.boot.crc.isSome then u else u.crcStart false) :=
    (whenReady_of_ready _ hready : execCrcPeriodic s = _)
  have hmod : u.gauge % 65536 = 0 := Nat.mul_mod_left _ _
  have hbounds : s.gauge ≤ u.gauge ∧ u.gauge < s.gauge + 65536 := by
    simp only [u, ceilDiv]
    omega
  have hsame : s.sameBut u [.gauge, .boot, .regs] := fun p hp => by
    cases p with
    | gauge => exact absurd (by decide) hp
    | _ => rfl
  clear_value u
  refine ⟨_, hexec, ?_⟩
  cases hcrc : u.boot.crc with
  | some c =>
    rw [Option.isSome_some, if_pos rfl]
    exact ⟨hmod, hbounds.1, hbounds.2, by rw [hcrc]; rfl, hsame⟩
  | none =>
    rw [Option.isSome_none, if_neg Bool.false_ne_true]
    obtain ⟨hrun, -, hstart⟩ := crcStart_idle false hcrc
    rw [← (hstart .gauge (by decide) : u.gauge = _)]
    exact ⟨hmod, hbounds.1, hbounds.2, by rw [hrun]; rfl, sameBut_trans hsame (sameBut_mono hstart (by decide))⟩

/-! ### The reference and firmware's copy (R464) -/

theorem Tab.get_filter {α : Type} (d : Nat → α) (p : Nat → Bool) {k : Nat} (h : p k = true) (t : Tab α) : Tab.get d (t.filter (fun e => p e.1)) k = Tab.get d t k := by
  induction t with
  | nil => rfl
  | cons e t ih =>
    obtain ⟨k', v⟩ := e
    have hkept : p k' = true → ((k', v) :: t).filter (fun e => p e.1) = (k', v) :: t.filter (fun e => p e.1) := fun hp => List.filter_cons_of_pos hp
    have hdropped : ¬ p k' = true → ((k', v) :: t).filter (fun e => p e.1) = t.filter (fun e => p e.1) := fun hp => List.filter_cons_of_neg hp
    by_cases hk : k' = k
    · subst hk
      rw [hkept h]
      exact (if_pos rfl).trans (if_pos rfl).symm
    · rw [show Tab.get d ((k', v) :: t) k = Tab.get d t k from if_neg hk, ← ih]
      by_cases hp : p k' = true
      · rw [hkept hp]
        exact if_neg hk
      · rw [hdropped hp]

theorem crcRefWrite_spec (s : State) (v : Nat) : let t := s.crcRefWrite v
    t.word .GLB_CFG_CRC_REF = BitVec.ofNat 32 v ∧ t.word .GLB_CFG_CRC_VAL = s.word .GLB_CFG_CRC_VAL ∧ t.boot.crc = s.boot.crc ∧ t.boot.hasCommit = true
      ∧ s.sameBut t [.boot, .regs] ∧ ∀ k, persisted k = true → Tab.get regDefault t.boot.committed k = Tab.get regDefault t.regs k := by
  intro t
  have ht : t = (s.setWord .GLB_CFG_CRC_REF 0 0 (BitVec.ofNat 32 v)).commitCopy := rfl
  have hself : (s.setWord .GLB_CFG_CRC_REF 0 0 (BitVec.ofNat 32 v)).word .GLB_CFG_CRC_REF = BitVec.ofNat 32 v := State.word_setWord_self _ _ _ _ _
  have hval : (s.setWord .GLB_CFG_CRC_REF 0 0 (BitVec.ofNat 32 v)).word .GLB_CFG_CRC_VAL = s.word .GLB_CFG_CRC_VAL := State.word_setWord_of_ne _ _ (by decide)
  have hcrc : (s.setWord .GLB_CFG_CRC_REF 0 0 (BitVec.ofNat 32 v)).boot = s.boot := rfl
  have hsame : s.sameBut (s.setWord .GLB_CFG_CRC_REF 0 0 (BitVec.ofNat 32 v)) [.boot, .regs] := sameBut_setWord _ _ _ _ _ _ (by decide)
  clear_value t
  subst ht
  generalize s.setWord .GLB_CFG_CRC_REF 0 0 (BitVec.ofNat 32 v) = u at hself hval hcrc hsame ⊢
  exact ⟨hself, hval, (congrArg Boot.crc hcrc :), rfl, sameBut_trans hsame (sameBut_onBoot _ _ (by decide)), fun _ h => Tab.get_filter _ persisted h _⟩

/-! ### A computation ends (R463) -/

/-- The state that shows the value of a computation. -/
def State.crcShown (s : State) (v : Nat) : State :=
  ((s.onBoot (fun b => { b with crc := none })).setFld .GLB_STATE_CRC_BUSY 0).setWord .GLB_CFG_CRC_VAL 0 0 (BitVec.ofNat 32 v)

theorem crcShown_spec (s : State) (v : Nat) : let t := s.crcShown v
    t.boot = { s.boot with crc := none } ∧ t.fld .GLB_STATE_CRC_BUSY = 0 ∧ t.word .GLB_CFG_CRC_VAL = BitVec.ofNat 32 v ∧ s.sameBut t [.boot, .regs]
      ∧ s.regsBut t [Reg.GLB_STATE.key 0 0, Reg.GLB_CFG_CRC_VAL.key 0 0] := by
  let u := s.onBoot (fun b => { b with crc := none })
  have hset := regsBut_setFld u .GLB_STATE_CRC_BUSY 0 0 0 [Reg.GLB_STATE.key 0 0, Reg.GLB_CFG_CRC_VAL.key 0 0] (by decide)
  have hbusy : (u.setFld .GLB_STATE_CRC_BUSY 0).fld .GLB_STATE_CRC_BUSY = 0 := State.fld_setFld_self _ _ _ _ _ (Fld.fits_of_le (by decide))
  have hboot : (u.setFld .GLB_STATE_CRC_BUSY 0).boot = u.boot := rfl
  have hsame : s.sameBut (u.setFld .GLB_STATE_CRC_BUSY 0) [.boot, .regs] := sameBut_trans (sameBut_onBoot _ _ (by decide)) (sameBut_setFld _ _ _ _ _ _ (by decide))
  intro t
  have ht : t = (u.setFld .GLB_STATE_CRC_BUSY 0).setWord .GLB_CFG_CRC_VAL 0 0 (BitVec.ofNat 32 v) := rfl
  clear_value t
  subst ht
  generalize u.setFld .GLB_STATE_CRC_BUSY 0 = x at hset hbusy hboot hsame ⊢
  exact ⟨hboot, (fld_of_word (f := .GLB_STATE_CRC_BUSY) (State.word_setWord_of_ne _ _ (by decide))).trans hbusy, State.word_setWord_self _ _ _ _ _,
    sameBut_trans hsame (sameBut_setWord _ _ _ _ _ _ (by decide)), regsBut_trans hset (regsBut_setWord _ _ _ _ _ _ (by decide))⟩

/-- CRC_DONE, with no computation to follow. -/
theorem exec_crcDone {s : State} {c : CrcRun} (hup : s.up = true) (hcrc : s.boot.crc = some c) (hnext : c.next = none) :
    exec .crcDone s = .next (let u := s.crcShown (configCrc s.regs)
      if c.commit then u.crcRefWrite (configCrc s.regs)
      else if u.flag .GLB_CRC_CTRL_CHECK_EN && !c.held && !u.crcHeld && u.boot.hasCommit && configCrc s.regs != (u.word .GLB_CFG_CRC_REF).toNat then u.crcDiffers else u) := by
  change execCrcDone s = _
  rw [execCrcDone, whenUp_of_up _ hup]
  simp only [hcrc, hnext]
  rfl

/-- What is compared is not what a computation shows. -/
theorem crcShown_keeps (s : State) (v : Nat) : (∀ f : Fld, f.reg = .GLB_CRC_CTRL → (s.crcShown v).flag f = s.flag f) ∧ (s.crcShown v).crcHeld = s.crcHeld
    ∧ (s.crcShown v).word .GLB_CFG_CRC_REF = s.word .GLB_CFG_CRC_REF := by
  obtain ⟨-, -, -, -, hregs⟩ := crcShown_spec s v
  have hctrl : ∀ f : Fld, f.reg = .GLB_CRC_CTRL → (s.crcShown v).flag f = s.flag f := fun f hf => by
    refine flag_of_fld (fld_of_word ?_)
    rw [hf]
    exact hregs _ (by decide)
  refine ⟨hctrl, ?_, hregs _ (by decide)⟩
  unfold State.crcHeld
  rw [hctrl _ rfl, hctrl _ rfl]

/-- The capture of a differing register. -/
theorem crcCapture_spec (s : State) (k : Nat) : (s.crcCapture k).fld .GLB_CRC_DIFF_VALID = 1 ∧ s.regsBut (s.crcCapture k) [Reg.GLB_CRC_DIFF.key 0 0] := by
  unfold State.crcCapture
  split
  · next h => exact ⟨by simpa [State.flag] using h, regsBut_refl _ _⟩
  · have hset : ∀ (t : State) (f : Fld) (v : Nat), f.reg = .GLB_CRC_DIFF → t.regsBut (t.setFld f v) [Reg.GLB_CRC_DIFF.key 0 0] := fun t f v hf =>
      regsBut_setFld _ _ _ _ _ _ (by rw [hf]; exact List.mem_singleton.2 rfl)
    exact ⟨State.fld_setFld_self _ _ _ _ _ (Fld.fits_of_le (by decide)), regsBut_trans (regsBut_trans (hset _ _ _ rfl) (hset _ _ _ rfl))
      (regsBut_trans (regsBut_trans (hset _ _ _ rfl) (hset _ _ _ rfl)) (hset _ _ _ rfl))⟩

/-- The first differing register is captured, if there is one. -/
def State.crcCaptured (s : State) : State :=
  match coveredKeys.filter (fun k => coveredWord s.regs k != coveredWord s.boot.committed k) with
  | [] => s
  | k :: _ => s.crcCapture k

theorem crcCaptured_spec (s : State) : s.regsBut s.crcCaptured [Reg.GLB_CRC_DIFF.key 0 0]
    ∧ (coveredKeys.any (fun k => coveredWord s.regs k != coveredWord s.boot.committed k) = true → s.crcCaptured.fld .GLB_CRC_DIFF_VALID = 1) := by
  unfold State.crcCaptured
  generalize coveredKeys = ks
  generalize (fun k => coveredWord s.regs k != coveredWord s.boot.committed k) = p
  cases hks : ks.filter p with
  | nil =>
    refine ⟨regsBut_refl _ _, fun h => ?_⟩
    obtain ⟨k, hk, hp⟩ := List.any_eq_true.1 h
    exact absurd hp (List.filter_eq_nil_iff.1 hks k hk)
  | cons k l => exact ⟨(crcCapture_spec s k).2, fun _ => (crcCapture_spec s k).1⟩

/-- Without RESTORE a difference sets CRC_MISMATCH, and is captured when a register differs. -/
theorem crcDiffers_noRestore {s : State} (h : s.flag .GLB_CRC_CTRL_RESTORE = false) : s.crcDiffers = s.crcCaptured.setSts .GLB_STS [0] := by
  have hflag : (s.crcCaptured.setSts .GLB_STS [0]).flag .GLB_CRC_CTRL_RESTORE = false := by
    rw [← h]
    exact flag_of_fld (fld_of_word ((word_setSts _ (by decide)).trans ((crcCaptured_spec s).1 _ (by decide))))
  exact if_pos (Bool.or_eq_true_iff.2 (.inl (congrArg not hflag)))

theorem crcDone_commits {s : State} {c : CrcRun} (hup : s.up = true) (hcrc : s.boot.crc = some c) (hnext : c.next = none) (hcommit : c.commit = true) :
    ∃ t, exec .crcDone s = .next t ∧ t.boot.crc = none ∧ t.word .GLB_CFG_CRC_REF = BitVec.ofNat 32 (configCrc s.regs) ∧ t.word .GLB_CFG_CRC_VAL = BitVec.ofNat 32 (configCrc s.regs)
      ∧ t.boot.hasCommit = true ∧ s.sameBut t [.boot, .regs] := by
  have hexec := exec_crcDone hup hcrc hnext
  obtain ⟨hboot, -, hval, hsame, -⟩ := crcShown_spec s (configCrc s.regs)
  dsimp only at hexec
  rw [if_pos hcommit] at hexec
  generalize s.crcShown (configCrc s.regs) = u at hexec hboot hval hsame
  generalize configCrc s.regs = v at hexec hval ⊢
  obtain ⟨hword, hval', hcrc', hhas, hsame', -⟩ := crcRefWrite_spec u v
  exact ⟨_, hexec, hcrc'.trans (congrArg Boot.crc hboot), hword, hval'.trans hval, hhas, sameBut_trans hsame hsame'⟩

/-- The end of a computation that does not commit: what it shows, and what it compares. -/
theorem crcDone_compares {s : State} {c : CrcRun} (hup : s.up = true) (hcrc : s.boot.crc = some c) (hnext : c.next = none) (hcommit : c.commit = false) :
    exec .crcDone s = .next (if s.flag .GLB_CRC_CTRL_CHECK_EN && !c.held && !s.crcHeld && s.boot.hasCommit && configCrc s.regs != (s.word .GLB_CFG_CRC_REF).toNat
      then (s.crcShown (configCrc s.regs)).crcDiffers else s.crcShown (configCrc s.regs)) := by
  have hexec := exec_crcDone hup hcrc hnext
  obtain ⟨hboot, -⟩ := crcShown_spec s (configCrc s.regs)
  obtain ⟨hctrl, hheld, href⟩ := crcShown_keeps s (configCrc s.regs)
  dsimp only at hexec
  rw [hctrl _ rfl, hheld, href, hboot, if_neg (by rw [hcommit]; exact Bool.false_ne_true)] at hexec
  exact hexec

theorem crcDone_silent {s : State} {c : CrcRun} (hup : s.up = true) (hcrc : s.boot.crc = some c) (hnext : c.next = none) (hcommit : c.commit = false)
    (hsilent : s.flag .GLB_CRC_CTRL_CHECK_EN = false ∨ c.held = true ∨ s.crcHeld = true ∨ s.boot.hasCommit = false ∨ configCrc s.regs = (s.word .GLB_CFG_CRC_REF).toNat) :
    ∃ t, exec .crcDone s = .next t ∧ t.boot.crc = none ∧ t.fld .GLB_STATE_CRC_BUSY = 0 ∧ t.word .GLB_CFG_CRC_VAL = BitVec.ofNat 32 (configCrc s.regs) ∧ s.sameBut t [.boot, .regs] := by
  have hexec := crcDone_compares hup hcrc hnext hcommit
  obtain ⟨hboot, hbusy, hval, hsame, -⟩ := crcShown_spec s (configCrc s.regs)
  rw [if_neg (by rcases hsilent with h | h | h | h | h <;> simp [h])] at hexec
  exact ⟨_, hexec, congrArg Boot.crc hboot, hbusy, hval, hsame⟩

theorem crcDone_differs {s : State} {c : CrcRun} (hup : s.up = true) (hcrc : s.boot.crc = some c) (hnext : c.next = none) (hcommit : c.commit = false)
    (hcheck : s.flag .GLB_CRC_CTRL_CHECK_EN = true) (hrun : c.held = false) (hfree : s.crcHeld = false) (hhas : s.boot.hasCommit = true)
    (hne : configCrc s.regs ≠ (s.word .GLB_CFG_CRC_REF).toNat) :
    ∃ u : State, exec .crcDone s = .next u.crcDiffers ∧ u.boot.crc = none ∧ s.sameBut u [.boot, .regs] ∧ u.regsBut s [Reg.GLB_STATE.key 0 0, Reg.GLB_CFG_CRC_VAL.key 0 0]
      ∧ (s.flag .GLB_CRC_CTRL_RESTORE = false → u.crcDiffers.stsBit .GLB_STS 0 = true
        ∧ (coveredKeys.any (fun k => coveredWord u.regs k != coveredWord u.boot.committed k) = true → u.crcDiffers.fld .GLB_CRC_DIFF_VALID = 1)) := by
  have hexec := crcDone_compares hup hcrc hnext hcommit
  obtain ⟨hboot, -, -, hsame, hregs⟩ := crcShown_spec s (configCrc s.regs)
  obtain ⟨hctrl, -, -⟩ := crcShown_keeps s (configCrc s.regs)
  rw [if_pos (by simp [hcheck, hrun, hfree, hhas, hne])] at hexec
  generalize s.crcShown (configCrc s.regs) = u at hexec hboot hsame hregs hctrl
  refine ⟨u, hexec, congrArg Boot.crc hboot, hsame, fun k hk => (hregs k hk).symm, fun hrestore => ?_⟩
  rw [crcDiffers_noRestore ((hctrl _ rfl).trans hrestore)]
  exact ⟨stsBit_setSts _ (by decide), fun hany => (fld_setSts _ (by decide)).trans ((crcCaptured_spec u).2 hany)⟩

/-! ### Holds (R465) -/

/-- The Gauge at a later count. -/
def State.toGauge (s : State) (g : Nat) : State := { s with gauge := g }

theorem sameBut_toGauge (s : State) (g : Nat) : s.sameBut (s.toGauge g) [.gauge, .boot] := fun p hp => by
  cases p with
  | gauge => exact absurd (by decide) hp
  | _ => rfl

/-- A hold that stands for 10 s. -/
theorem holdStuck_sets {s u : State} (hsame : s.sameBut u [.gauge, .boot]) : (u.setSts .GLB_STS [2]).stsBit .GLB_STS 2 = true ∧ (u.setSts .GLB_STS [2]).gauge = u.gauge
    ∧ (u.setSts .GLB_STS [2]).boot = u.boot ∧ s.sameBut (u.setSts .GLB_STS [2]) (.gauge :: .boot :: eventParts) := by
  have hsts := sameBut_sts (s := u) .GLB_STS [2] 0 eventParts (List.Subset.refl _)
  exact ⟨stsBit_setSts _ (by decide), (hsts .gauge (by decide)).symm, (hsts .boot (by decide)).symm, sameBut_trans (sameBut_mono hsame (by decide)) (sameBut_mono hsts (by decide))⟩

theorem holdStuck_fw {s : State} {t0 : Nat} (hup : s.up = true) (hsince : s.boot.fwHoldSince = some t0) (hset : s.boot.fwStuckSet = false) :
    ∃ t, exec (.holdStuck true) s = .next t ∧ t.gauge = max s.gauge (t0 + 3200000000) ∧ t.boot.fwStuckSet = true ∧ t.stsBit .GLB_STS 2 = true
      ∧ s.sameBut t (.gauge :: .boot :: eventParts) := by
  let u := (s.toGauge (max s.gauge (t0 + 3200000000))).onBoot (fun b => { b with fwStuckSet := true })
  have hexec : exec (.holdStuck true) s = .next (u.setSts .GLB_STS [2]) := by
    change execHoldStuck true s = _
    rw [execHoldStuck, whenUp_of_up _ hup]
    simp only [↓reduceIte, hsince, hset, Bool.false_eq_true]
    rfl
  obtain ⟨hsts, hgauge, hboot, hsame⟩ := holdStuck_sets (s := s) (u := u) (sameBut_trans (sameBut_toGauge _ _) (sameBut_onBoot _ _ (by decide)))
  exact ⟨_, hexec, hgauge, congrArg Boot.fwStuckSet hboot, hsts, hsame⟩

theorem holdStuck_mgmt {s : State} {t0 : Nat} (hup : s.up = true) (hsince : s.boot.holdSince = some t0) (hset : s.boot.stuckSet = false) :
    ∃ t, exec (.holdStuck false) s = .next t ∧ t.gauge = max s.gauge (t0 + 3200000000) ∧ t.boot.stuckSet = true ∧ t.stsBit .GLB_STS 2 = true
      ∧ s.sameBut t (.gauge :: .boot :: eventParts) := by
  let u := (s.toGauge (max s.gauge (t0 + 3200000000))).onBoot (fun b => { b with stuckSet := true })
  have hexec : exec (.holdStuck false) s = .next (u.setSts .GLB_STS [2]) := by
    change execHoldStuck false s = _
    rw [execHoldStuck, whenUp_of_up _ hup]
    simp only [↓reduceIte, hsince, hset, Bool.false_eq_true]
    rfl
  obtain ⟨hsts, hgauge, hboot, hsame⟩ := holdStuck_sets (s := s) (u := u) (sameBut_trans (sameBut_toGauge _ _) (sameBut_onBoot _ _ (by decide)))
  exact ⟨_, hexec, hgauge, congrArg Boot.stuckSet hboot, hsts, hsame⟩

theorem holdStuck_known {s : State} {t0 : Nat} (hup : s.up = true) (hsince : s.boot.holdSince = some t0) (hset : s.boot.stuckSet = true) : exec (.holdStuck false) s = .next s := by
  change execHoldStuck false s = _
  rw [execHoldStuck, whenUp_of_up _ hup]
  simp only [↓reduceIte, hsince, hset, Bool.false_eq_true]

/-- Settles O49, part by part: how a computation starts, the periodic one, its end and the stuck holds. -/
theorem theConfigurationCrcIsComputed : Obligations.TheConfigurationCrcIsComputed := by
  unfold Obligations.TheConfigurationCrcIsComputed
  refine ⟨fun w s hw hup => ⟨fun hidle => ⟨⟨_, exec_crcNow hw hup, crcStart_idle false hidle⟩, _, exec_crcCommit hw hup, crcStart_idle true hidle⟩,
    fun c hbusy => ⟨⟨_, exec_crcNow hw hup, crcStart_busy false hbusy⟩, _, exec_crcCommit hw hup, crcStart_busy true hbusy⟩, fun v => ?_⟩,
    fun s hready => crcPeriodic_spec hready, fun s c hup hcrc hnext => ?_, fun s t0 hup => ?_⟩
  · obtain ⟨hword, -, -, hhas, hsame, hcopy⟩ := crcRefWrite_spec s v
    exact ⟨_, exec_crcRefWrite v hw hup, hword, hhas, hsame, hcopy⟩
  · exact ⟨crcDone_commits hup hcrc hnext, crcDone_silent hup hcrc hnext, crcDone_differs hup hcrc hnext⟩
  · exact ⟨fun hsince hset => holdStuck_fw hup hsince hset, fun hsince hset => holdStuck_mgmt hup hsince hset, fun hsince hset => holdStuck_known hup hsince hset⟩

end Sys2Proof.Machine

/-! SUPPORT. The power states: the caps, survival power and the supervisor's inputs, and what they leave unchanged (R481-R492, R497-R500). -/

namespace Sys2Proof.Machine

/-! ### A change of the caps (R481, R486) -/

/-- The parts that a change of the caps touches. -/
def capParts : List Part := .clk :: .pwr :: .out :: eventParts

/-- The registers that a change of the caps writes. -/
def capKeys : List Nat := [Reg.PWR_STATE.key 0 0, Reg.CLK_CTRL.key 0 0, Reg.CLK_STATE.key 0 0]

/-- A change of the caps: of the supply's state the envelope and MOD_ALERT_N follow, and besides the registers listed and RING_EQ_DROP no word changes. -/
structure CapStep (ks : List Nat) (s t : State) : Prop where
  same : s.sameBut t capParts
  pwr : t.pwr = { s.pwr with env := t.pwr.env, alert := t.pwr.alert }
  word : ∀ (g : Reg) (u sel : Nat), g.key u sel ∉ ks → (∀ q < 4, g.key u sel ≠ Reg.RING_EQ_DROP.key q 0) → t.word g u sel = s.word g u sel
  sts : ∀ g b u, s.stsBit g b u = true → t.stsBit g b u = true

section
variable {ks : List Nat} {s t u : State}

theorem CapStep.refl (ks : List Nat) (s : State) : CapStep ks s s := ⟨sameBut_refl _ _, rfl, fun _ _ _ _ _ => rfl, fun _ _ _ h => h⟩

theorem CapStep.trans (h : CapStep ks s t) (g : CapStep ks t u) : CapStep ks s u where
  same := sameBut_trans h.same g.same
  pwr := by rw [g.pwr, h.pwr]
  word r a b hk hd := (g.word r a b hk hd).trans (h.word r a b hk hd)
  sts r b a hs := g.sts r b a (h.sts r b a hs)

theorem CapStep.mono {ks' : List Nat} (h : CapStep ks s t) (hsub : ks ⊆ ks') : CapStep ks' s t :=
  ⟨h.same, h.pwr, fun r a b hk hd => h.word r a b (fun hm => hk (hsub hm)) hd, h.sts⟩

theorem capStep_setFld (s : State) (f : Fld) (v : Nat) (h : f.reg.key 0 0 ∈ ks) : CapStep ks s (s.setFld f v) where
  same := sameBut_setFld _ _ _ _ _ _ (by decide)
  pwr := rfl
  word _ _ _ hk _ := word_setFld_ne (fun he => hk (by rw [he]; exact h))
  sts _ _ _ h := h

theorem capStep_emit (s : State) (a b c d e : Nat) : CapStep ks s (s.emit a b c d e) where
  same := sameBut_emit _ _ _ _ _ _ (by decide)
  pwr := by rw [← (sameBut_emit (s := s) a b c d e eventParts (List.Subset.refl _) .pwr (by decide) : s.pwr = _)]
  word _ _ _ _ hd := word_emit _ hd
  sts _ _ _ h := stsBit_emit _ h

theorem capStep_setSts (s : State) (g : Reg) (m : List Nat) (i : Nat) : CapStep ks s (s.setSts g m i) where
  same := sameBut_sts _ _ _ _ (by decide)
  pwr := by rw [← (sameBut_sts (s := s) g m i eventParts (List.Subset.refl _) .pwr (by decide) : s.pwr = _)]
  word _ _ _ _ hd := word_setSts _ hd
  sts _ _ _ h := stsBit_setSts_keep h

theorem capStep_onClk (s : State) (f : Clk → Clk) : CapStep ks s (s.onClk f) := ⟨sameBut_onClk _ _ (by decide), rfl, fun _ _ _ _ _ => rfl, fun _ _ _ h => h⟩

theorem capStep_clampEnv (s : State) : CapStep ks s s.clampEnv := ⟨sameBut_onPwr _ _ (by decide), rfl, fun _ _ _ _ _ => rfl, fun _ _ _ h => h⟩

theorem capStep_modAlert (s : State) : CapStep ks s s.modAlert := by
  unfold State.modAlert
  extract_lets on
  split
  · exact .refl _ _
  · exact ⟨sameBut_trans (sameBut_onPwr _ _ (by decide)) (sameBut_send _ _ (by decide)), rfl, fun _ _ _ _ _ => rfl, fun _ _ _ h => h⟩

theorem capStep_rampStart (s : State) : CapStep capKeys s s.rampStart := by
  unfold State.rampStart
  split
  · exact capStep_setFld _ _ _ (by decide)
  · exact .refl _ _

theorem capStep_forceLow (s : State) (on : Bool) : CapStep capKeys s (s.forceLow on) := by
  unfold State.forceLow
  split
  · split
    · exact .refl _ _
    · exact (((capStep_onClk s _).trans (capStep_setFld _ _ _ (by decide))).trans (capStep_rampStart _)).trans (capStep_setSts _ _ _ _)
  · split
    · exact ((capStep_onClk s _).trans (capStep_setFld _ _ _ (by decide))).trans (capStep_rampStart _)
    · exact .refl _ _

theorem capStep_emits (l : List Nat) (a b c p : Nat) (s : State) : CapStep ks s (l.foldl (fun s r => s.emit a b c r p) s) := by
  induction l generalizing s with
  | nil => exact .refl _ _
  | cons r l ih => exact (capStep_emit s a b c r p).trans (ih _)

theorem capStep_ite (c : Prop) [Decidable c] (h : CapStep ks s t) (g : CapStep ks s u) : CapStep ks s (if c then t else u) := by
  split
  · exact h
  · exact g

theorem capStep_capApply (s : State) : CapStep capKeys s s.capApply := by
  unfold State.capApply
  extract_lets s1 c oldSt oldLim st s2 s3 s4 s5 s6
  have h2 : CapStep capKeys s s2 := (((capStep_clampEnv s).trans (capStep_setFld _ _ _ (by decide))).trans (capStep_setFld _ _ _ (by decide))).trans
    (capStep_setFld _ _ _ (by decide))
  have h3 : CapStep capKeys s s3 := h2.trans (capStep_setFld _ _ _ (by decide))
  have h4 : CapStep capKeys s3 s4 := capStep_ite _ (capStep_forceLow _ _) (capStep_ite _ (capStep_forceLow _ _) (.refl _ _))
  have h5 : CapStep capKeys s4 s5 := capStep_ite _ (.refl _ _) (capStep_setSts _ _ _ _)
  have h6 : CapStep capKeys s5 s6 := capStep_ite _ (.refl _ _) (capStep_emits _ _ _ _ _ _)
  exact (((h3.trans h4).trans h5).trans h6).trans (capStep_modAlert _)

end

/-! ### Survival power (R490) -/

/-- THM_STATE.SURVIVAL follows its causes. -/
theorem survShow_spec (s : State) : CapStep (Reg.THM_STATE.key 0 0 :: capKeys) s s.survShow ∧ s.survShow.flag .THM_STATE_SURVIVAL = (s.pwr.held.isSome || s.pwr.dip) := by
  have hkeep : ∀ t : State, t.capApply.flag .THM_STATE_SURVIVAL = t.flag .THM_STATE_SURVIVAL := fun t =>
    flag_of_fld (fld_of_word ((capStep_capApply t).word _ _ _ (by decide) (by decide)))
  have hcaps : ∀ t : State, CapStep (Reg.THM_STATE.key 0 0 :: capKeys) t t.capApply := fun t => (capStep_capApply t).mono (List.subset_cons_self _ _)
  unfold State.survShow
  extract_lets on
  split
  · next h => exact ⟨hcaps s, (hkeep s).trans h.symm⟩
  · have hset : (s.setFld .THM_STATE_SURVIVAL (b2n on)).flag .THM_STATE_SURVIVAL = on := flag_setFld_self _ on _ _ (Fld.fits_of_le (by decide)) (by decide)
    have hsurv : ((s.setFld .THM_STATE_SURVIVAL (b2n on)).setFld .CLK_STATE_RAMP_BUSY 1).flag .THM_STATE_SURVIVAL = on :=
      (flag_of_fld (State.fld_setFld_of_ne _ _ _ _ (by decide))).trans hset
    exact ⟨((capStep_setFld _ _ _ (by decide)).trans (capStep_setFld _ _ _ (by decide))).trans (hcaps _), (hkeep _).trans hsurv⟩

/-- Survival power as it is asked for. -/
def State.survAsked (s : State) (lim : Nat) : State :=
  (if s.pwr.held.isNone then s.setSts .THM_STS [0] else s).onPwr (fun p => { p with goodSince := none, held := some (p.held.getD lim) })

theorem survAsked_spec (s : State) (lim : Nat) : (s.survAsked lim).pwr = { s.pwr with goodSince := none, held := some (s.pwr.held.getD lim) }
    ∧ s.sameBut (s.survAsked lim) capParts ∧ (∀ g b u, s.stsBit g b u = true → (s.survAsked lim).stsBit g b u = true)
    ∧ ∀ (g : Reg) (u sel : Nat), (∀ q < 4, g.key u sel ≠ Reg.RING_EQ_DROP.key q 0) → (s.survAsked lim).word g u sel = s.word g u sel := by
  unfold State.survAsked
  have ha : CapStep [] s (if s.pwr.held.isNone then s.setSts .THM_STS [0] else s) := capStep_ite _ (capStep_setSts _ _ _ _) (.refl _ _)
  have hpwr : (if s.pwr.held.isNone then s.setSts .THM_STS [0] else s).pwr = s.pwr := by
    split
    · exact (sameBut_sts (s := s) .THM_STS [0] 0 eventParts (List.Subset.refl _) .pwr (by decide)).symm
    · rfl
  generalize (if s.pwr.held.isNone then s.setSts .THM_STS [0] else s) = a at ha hpwr ⊢
  exact ⟨congrArg (fun p : Pwr => { p with goodSince := none, held := some (p.held.getD lim) }) hpwr, sameBut_trans ha.same (sameBut_onPwr _ _ (by decide)),
    fun g b u h => ha.sts g b u h, fun g u sel hd => ha.word g u sel (List.not_mem_nil) hd⟩

/-- Survival power is entered: it is held, by the first cause that asked for it. -/
theorem survEnter_spec (s : State) (lim : Nat) : let t := s.survEnter lim
    t.pwr = { s.pwr with goodSince := none, held := some (s.pwr.held.getD lim), env := t.pwr.env, alert := t.pwr.alert } ∧ t.flag .THM_STATE_SURVIVAL = true
      ∧ s.sameBut t capParts ∧ (∀ g b u, s.stsBit g b u = true → t.stsBit g b u = true)
      ∧ ∀ (g : Reg) (u sel : Nat), g.key u sel ∉ Reg.THM_STATE.key 0 0 :: capKeys → (∀ q < 4, g.key u sel ≠ Reg.RING_EQ_DROP.key q 0) → t.word g u sel = s.word g u sel := by
  obtain ⟨hpwr, hsame, hsts, hword⟩ := survAsked_spec s lim
  obtain ⟨hshow, hflag⟩ := survShow_spec (s.survAsked lim)
  intro t
  have ht : t = (s.survAsked lim).survShow := rfl
  clear_value t
  subst ht
  generalize s.survAsked lim = v at hpwr hsame hsts hword hshow hflag
  refine ⟨?_, ?_, sameBut_trans hsame hshow.same, fun g b u h => hshow.sts g b u (hsts g b u h), fun g u sel hk hd => (hshow.word g u sel hk hd).trans (hword g u sel hd)⟩
  · have h := hshow.pwr
    rw [hpwr] at h
    exact h
  · rw [hflag, hpwr]
    rfl

/-! ### The sideband inputs (R497-R499) -/

theorem sideShow_keeps (s : State) : s.sameBut s.sideShow [.regs] ∧ s.regsBut s.sideShow [Reg.PWR_SB_STATE.key 0 0] :=
  ⟨sameBut_trans (sameBut_trans (sameBut_setFld _ _ _ _ _ _ (by decide)) (sameBut_setFld _ _ _ _ _ _ (by decide))) (sameBut_setFld _ _ _ _ _ _ (by decide)),
    regsBut_trans (regsBut_trans (regsBut_setFld _ _ _ _ _ _ (by decide)) (regsBut_setFld _ _ _ _ _ _ (by decide))) (regsBut_setFld _ _ _ _ _ _ (by decide))⟩

theorem setSide_spec (s : State) (i : Nat) (x : SideIn) : (s.setSide i x).pwr = { s.pwr with side := s.pwr.side.set i x } ∧ s.sameBut (s.setSide i x) [.pwr, .regs]
    ∧ s.regsBut (s.setSide i x) [Reg.PWR_SB_STATE.key 0 0] := by
  obtain ⟨hsame, hregs⟩ := sideShow_keeps (s.onPwr (fun p => { p with side := p.side.set i x }))
  exact ⟨(hsame .pwr (by decide)).symm, sameBut_trans (sameBut_onPwr _ _ (by decide)) (sameBut_mono hsame (by decide)), fun k hk => hregs k hk⟩

theorem side_of_pwr {s t : State} (h : t.pwr.side = s.pwr.side) (i : Nat) : t.side i = s.side i := by
  unfold State.side
  rw [h]

theorem side_setSide_self (s : State) {i : Nat} (x : SideIn) (h : i < s.pwr.side.length) : (s.setSide i x).side i = x := by
  unfold State.side
  rw [(setSide_spec s i x).1]
  simp [h]

/-! ### A reset (R446) -/

/-- The die at a reset, before the registers show what the store, the fuses and the straps hold. -/
def State.dieFresh (s : State) : State :=
  { free := s.free, out := s.out, pending := s.pending, drawer := s.drawer
    mem := { cells := s.mem.cells.filter (fun e => keptAt e.1), bad := s.mem.bad.filter (fun k => keptAt (8 * k)) }
    realms := (s.realms.filter (fun e => e.2.created != 0)).map (fun e => (e.1, { created := e.2.created }))
    sec := { owner := s.sec.owner, grants := s.sec.grants, imgA := s.sec.imgA, imgB := s.sec.imgB }
    boot := { powered := s.boot.powered, head := s.boot.head, bench := s.boot.bench, settings := s.settingsNow, resetHeld := (s.side 1).effect }
    pwr := { side := s.pwr.side, aux := s.pwr.aux, shutdown := s.pwr.shutdown, stuckDue := s.pwr.stuckDue, alert := s.pwr.alert,
             lanes := { record := s.pwr.lanes.record } } }

/-- The tiles of a reset die: what their columns' spares hold stays. -/
def State.dieTiles (s : State) : State :=
  (List.range 153).foldl (fun (f : State) p => f.setTile p { colmap := (s.tile p).colmap.filter (fun e => decide (256 ≤ e.2)) }) s.dieFresh

/-- The die at a reset, its registers showing the cause. -/
def State.dieReset (s : State) (cause : Nat) : State := (((s.dieTiles.storeShow s).strapsTake.newNonce).sideShow).setFld .GLB_RESET_CAUSE_LAST cause

theorem restart_eq (s : State) (cause : Nat) : s.restart cause = (if (s.side 2).effect then (s.dieReset cause).survEnter 4 else s.dieReset cause).modAlert := rfl

/-- Every register but that of GLB_STATE. -/
def State.glbKept (s t : State) : Prop := s.sameBut t [.free, .regs] ∧ t.word .GLB_STATE = s.word .GLB_STATE

section
variable {s t u : State}

theorem State.glbKept.trans (h : s.glbKept t) (g : t.glbKept u) : s.glbKept u := ⟨sameBut_trans h.1 g.1, g.2.trans h.2⟩

theorem glbKept_setFld (s : State) (f : Fld) (v sel : Nat) (hs : sel < 4) (h : Reg.GLB_STATE.block * 64 + Reg.GLB_STATE.off / 4 ≠ f.reg.block * 64 + f.reg.off / 4) :
    s.glbKept (s.setFld f v 0 sel) :=
  ⟨sameBut_setFld _ _ _ _ _ _ (by decide), word_setFld_ne (Reg.key_ne (by omega) (by omega) (by omega) (by omega) (.inl h))⟩

theorem glbKept_setWord (s : State) (r : Reg) (v : Word) (h : Reg.GLB_STATE.key 0 0 ≠ r.key 0 0) : s.glbKept (s.setWord r 0 0 v) :=
  ⟨sameBut_setWord _ _ _ _ _ _ (by decide), State.word_setWord_of_ne _ _ h⟩

theorem glbKept_rlmShow (s : State) {r : Nat} (hr : r < 4) : s.glbKept (s.rlmShow r) := by
  unfold State.rlmShow
  extract_lets x a
  have ha : s.glbKept a := ((glbKept_setFld _ _ _ _ hr (by decide)).trans (glbKept_setFld _ _ _ _ hr (by decide))).trans (glbKept_setFld _ _ _ _ hr (by decide))
  exact ha.trans (((glbKept_setFld _ _ _ _ hr (by decide)).trans (glbKept_setFld _ _ _ _ hr (by decide))).trans (glbKept_setFld _ _ _ _ hr (by decide)))

theorem glbKept_rlmShows (l : List Nat) (hl : ∀ r ∈ l, r < 4) (s : State) : s.glbKept (l.foldl (fun (s : State) r => s.rlmShow r) s) := by
  induction l generalizing s with
  | nil => exact ⟨sameBut_refl _ _, rfl⟩
  | cons r l ih => exact (glbKept_rlmShow s (hl r (by simp))).trans (ih (fun x hx => hl x (List.mem_cons_of_mem _ hx)) _)

theorem glbKept_drawerShow (s : State) : s.glbKept s.drawerShow := by
  unfold State.drawerShow
  extract_lets g
  exact ((glbKept_setFld _ _ _ _ (by decide) (by decide)).trans (glbKept_setFld _ _ _ _ (by decide) (by decide))).trans (glbKept_setFld _ _ _ _ (by decide) (by decide))

theorem glbKept_storeShow (s old : State) : s.glbKept (s.storeShow old) := by
  have hset : ∀ (t : State) (f : Fld) (v : Nat), Reg.GLB_STATE.block * 64 + Reg.GLB_STATE.off / 4 ≠ f.reg.block * 64 + f.reg.off / 4 → t.glbKept (t.setFld f v) :=
    fun t f v h => glbKept_setFld t f v 0 (by decide) h
  unfold State.storeShow
  extract_lets a b c d
  have ha : s.glbKept a := (hset _ _ _ (by decide)).trans (hset _ _ _ (by decide))
  have hb : a.glbKept b := ((hset _ _ _ (by decide)).trans (glbKept_setWord _ _ _ (by decide))).trans (glbKept_setWord _ _ _ (by decide))
  have hc : b.glbKept c := (hset _ _ _ (by decide)).trans (glbKept_drawerShow _)
  have hd : c.glbKept d := glbKept_rlmShows _ (fun r hr => List.mem_range.1 hr) _
  exact (((ha.trans hb).trans hc).trans hd).trans (hset _ _ _ (by decide))

theorem glbKept_strapsTake (s : State) : s.glbKept s.strapsTake :=
  ((glbKept_setFld _ _ _ _ (by decide) (by decide)).trans (glbKept_setFld _ _ _ _ (by decide) (by decide))).trans (glbKept_setFld _ _ _ _ (by decide) (by decide))

theorem glbKept_newNonce (s : State) : s.glbKept s.newNonce :=
  have hdraw : s.glbKept s.drawRandom.2 := ⟨sameBut_free _ _ _ (by decide), rfl⟩
  hdraw.trans ((glbKept_setWord _ _ _ (by decide)).trans (glbKept_setWord _ _ _ (by decide)))

theorem glbKept_sideShow (s : State) : s.glbKept s.sideShow := ⟨sameBut_mono (sideShow_keeps s).1 (by decide), (sideShow_keeps s).2 _ (by decide)⟩

end

theorem sameBut_dieTiles (s : State) : s.dieFresh.sameBut s.dieTiles [.tiles] := by
  unfold State.dieTiles
  generalize s.dieFresh = f
  exact sameBut_foldl _ (fun _ _ => sameBut_setTile _ _ _ (by decide)) _ _

theorem word_of_noRegs {s : State} (h : s.regs = []) (r : Reg) : s.word r = regDefault (r.key 0 0) := by
  unfold State.word
  rw [h]
  rfl

theorem regDefault_glbState : regDefault (Reg.GLB_STATE.key 0 0) = Reg.GLB_STATE.resetWord := by decide

theorem word_dieTiles (s : State) : s.dieTiles.word .GLB_STATE = Reg.GLB_STATE.resetWord :=
  (word_of_noRegs (sameBut_dieTiles s .regs (by decide)).symm _).trans regDefault_glbState

/-- Before survival power is asked for. -/
theorem dieReset_spec (s : State) {cause : Nat} (h : cause < 4) : s.dieFresh.sameBut (s.dieReset cause) [.tiles, .free, .regs]
    ∧ (s.dieReset cause).word .GLB_STATE = Reg.GLB_STATE.resetWord ∧ (s.dieReset cause).fld .GLB_RESET_CAUSE_LAST = cause := by
  have htiles := sameBut_dieTiles s
  have hword := word_dieTiles s
  have hkept : s.dieTiles.glbKept ((s.dieTiles.storeShow s).strapsTake.newNonce).sideShow :=
    (((glbKept_storeShow _ _).trans (glbKept_strapsTake _)).trans (glbKept_newNonce _)).trans (glbKept_sideShow _)
  unfold State.dieReset
  generalize s.dieTiles = f at htiles hword hkept ⊢
  generalize ((f.storeShow s).strapsTake.newNonce).sideShow = g at hkept ⊢
  obtain ⟨hsame, hstate⟩ := hkept.trans (glbKept_setFld g .GLB_RESET_CAUSE_LAST cause 0 (by decide) (by decide))
  exact ⟨sameBut_trans (sameBut_mono htiles (by decide)) (sameBut_mono hsame (by decide)), hstate.trans hword, fld_setFld_lt _ _ _ _ _ (Fld.fits_of_le (by decide)) h⟩

theorem mem_modAlert (s : State) : s.modAlert.mem = s.mem := by
  unfold State.modAlert
  extract_lets on
  split <;> rfl

/-- What a reset leaves: the parts of the fresh die, READY at 0, and the cause. -/
theorem restart_spec (s : State) {cause : Nat} (h : cause < 4) : s.dieFresh.sameBut (s.restart cause) (.tiles :: .free :: capParts)
    ∧ (s.restart cause).pwr.side = s.pwr.side ∧ (s.restart cause).word .GLB_STATE = Reg.GLB_STATE.resetWord ∧ (s.restart cause).fld .GLB_RESET_CAUSE_LAST = cause
    ∧ ((s.side 2).effect = false → (s.restart cause).mem = s.dieFresh.mem) := by
  obtain ⟨hsame, hword, hcause⟩ := dieReset_spec s h
  have hside : s.dieFresh.pwr.side = s.pwr.side := rfl
  rw [restart_eq]
  generalize s.dieReset cause = u at hsame hword hcause ⊢
  have hpwr : u.pwr.side = s.pwr.side := by
    rw [← hside, (hsame .pwr (by decide) : s.dieFresh.pwr = _)]
  cases (s.side 2).effect with
  | false =>
    rw [if_neg Bool.false_ne_true]
    have halert := capStep_modAlert (ks := []) u
    refine ⟨sameBut_trans (sameBut_mono hsame (by decide)) (sameBut_mono halert.same (by decide)), ?_, (word_modAlert _ _ _).trans hword,
      (fld_of_word (f := .GLB_RESET_CAUSE_LAST) (word_modAlert _ _ _)).trans hcause, fun _ => (mem_modAlert u).trans (hsame .mem (by decide)).symm⟩
    rw [halert.pwr]
    exact hpwr
  | true =>
    rw [if_pos rfl]
    obtain ⟨hsurv, -, hsame', -, hword'⟩ := survEnter_spec u 4
    have halert := capStep_modAlert (ks := []) (u.survEnter 4)
    refine ⟨sameBut_trans (sameBut_mono hsame (by decide)) (sameBut_trans (sameBut_mono hsame' (by decide)) (sameBut_mono halert.same (by decide))), ?_,
      (word_modAlert _ _ _).trans ((hword' _ _ _ (by decide) (by decide)).trans hword),
      (fld_of_word (f := .GLB_RESET_CAUSE_LAST) ((word_modAlert _ _ _).trans (hword' _ _ _ (by decide) (by decide)))).trans hcause, fun h => Bool.noConfusion h⟩
    rw [halert.pwr, hsurv]
    exact hpwr

end Sys2Proof.Machine

/-! SUPPORT. Resets and the power-on sequence (R446, R448, R451, R452). -/

namespace Sys2Proof.Machine

/-! ### The reset by register (R446) -/

theorem exec_resetArm {w : Win} {s : State} (hw : ∀ r, w ≠ .realm r) (hup : s.pageUp 0 = true) : exec (.resetArm w) s = .next (s.resetArm w) :=
  congrArg Host.Outcome.next (direct_open (fun s => s.resetArm w) hw hup)

theorem exec_resetGo {w : Win} {s : State} (hw : ∀ r, w ≠ .realm r) (hup : s.pageUp 0 = true) : exec (.resetGo w) s = .next (s.resetGo w) :=
  congrArg Host.Outcome.next (direct_open (fun s => s.resetGo w) hw hup)

theorem mgmt_not_realm (r : Nat) : Win.mgmt ≠ .realm r := fun h => Win.noConfusion h

theorem resetGo_mgmt (s : State) : s.resetGo .mgmt = if (s.boot.armedUntil.map (fun t => decide (s.gauge ≤ t))).getD false then s.restart 2 else s := by
  unfold State.resetGo
  rw [decide_eq_true rfl, Bool.true_and]

/-- RESET_GO acts while the reset is armed. -/
theorem resetGo_armed {s : State} {x : Nat} (h : s.boot.armedUntil = some x) : (s.gauge ≤ x → s.resetGo .mgmt = s.restart 2) ∧ (x < s.gauge → s.resetGo .mgmt = s) := by
  rw [resetGo_mgmt, h]
  exact ⟨fun hle => if_pos (decide_eq_true hle), fun hlt => if_neg (by simpa using hlt)⟩

theorem resetGo_unarmed {s : State} (h : s.boot.armedUntil = none) : s.resetGo .mgmt = s := by
  rw [resetGo_mgmt, h]
  exact if_neg Bool.false_ne_true

/-- What a reset leaves of the die. -/
theorem restart_leaves {s : State} {cause : Nat} (hcause : cause < 4) (halert : (s.side 2).effect = false) : let t := s.restart cause
    t.rings = [] ∧ t.jobs = [] ∧ t.srv = {} ∧ t.gauge = 0 ∧ t.flt = {} ∧ t.keys = [] ∧ t.flag .GLB_STATE_READY = false
      ∧ t.fld .GLB_RESET_CAUSE_LAST = cause ∧ t.drawer = s.drawer ∧ t.pending = s.pending ∧ (∀ a, a < lpddrBase → t.mem.cells.read a = s.mem.cells.read a) := by
  obtain ⟨hsame, -, hword, hlast, hmem⟩ := restart_spec s hcause
  have hready : (s.restart cause).flag .GLB_STATE_READY = false := by
    unfold State.flag State.fld
    rw [show (s.restart cause).word (Fld.GLB_STATE_READY).reg 0 0 = _ from hword]
    decide
  intro t
  refine ⟨(hsame .rings (by decide)).symm, (hsame .jobs (by decide)).symm, (hsame .srv (by decide)).symm, (hsame .gauge (by decide)).symm, (hsame .flt (by decide)).symm,
    (hsame .keys (by decide)).symm, hready, hlast, (hsame .drawer (by decide)).symm, (hsame .pending (by decide)).symm, fun a ha => ?_⟩
  rw [show t.mem = _ from hmem halert]
  exact Tab.get_filter memDefault keptAt (by simp [keptAt, ha]) s.mem.cells

/-! ### The stages of the power-on sequence (R448, R451) -/

theorem bootStep_taken {s : State} {stage : Nat} {ok : Bool} (f : State → State) (hup : s.up = true) (hstage : s.fld .GLB_STATE_STAGE = stage) (hok : ok = true) :
    s.bootStep stage ok f = .next (f s) :=
  congrArg _ (if_pos (by rw [hup, hstage, hok]; simp))

theorem stage_setFld (s : State) {n : Nat} (h : n < 16) : (s.setFld .GLB_STATE_STAGE n).fld .GLB_STATE_STAGE = n :=
  fld_setFld_lt _ _ _ _ _ (Fld.fits_of_le (by decide)) h

theorem refStable_spec {s : State} (hup : s.up = true) (hstage : s.fld .GLB_STATE_STAGE = 0) : ∃ t, exec .refStable s = .next t ∧ t.fld .GLB_STATE_STAGE = 1
    ∧ t.boot.refStable = true ∧ t.fld .CLK_STATE_REF_OK = 1 ∧ s.sameBut t [.boot, .regs] := by
  let u := s.onBoot (fun b => { b with refStable := true })
  have hok : (u.setFld .CLK_STATE_REF_OK 1).fld .CLK_STATE_REF_OK = 1 := State.fld_setFld_self _ _ _ _ _ (Fld.fits_of_le (by decide))
  exact ⟨_, (bootStep_taken _ hup hstage rfl : execRefStable s = _), stage_setFld _ (by decide), rfl, (State.fld_setFld_of_ne _ _ _ _ (by decide)).trans hok,
    sameBut_trans (sameBut_onBoot _ _ (by decide)) (sameBut_trans (sameBut_setFld _ _ _ _ _ _ (by decide)) (sameBut_setFld _ _ _ _ _ _ (by decide)))⟩

/-- The clocks are stable: the Gauge counts from 0. -/
def State.clocked (s : State) : State := ((({ s with gauge := 0 } : State).onBoot (fun b => { b with pllStable := true })).setFld .CLK_STATE_PLL_OK 0xF).setFld .GLB_STATE_STAGE 2

theorem clocked_spec (s : State) : s.clocked.fld .GLB_STATE_STAGE = 2 ∧ s.clocked.boot = { s.boot with pllStable := true } ∧ s.clocked.gauge = 0
    ∧ s.clocked.fld .CLK_STATE_PLL_OK = 0xF ∧ s.sameBut s.clocked [.gauge, .boot, .regs] := by
  let u := (({ s with gauge := 0 } : State).onBoot (fun b => { b with pllStable := true }))
  have hok : (u.setFld .CLK_STATE_PLL_OK 0xF).fld .CLK_STATE_PLL_OK = 0xF := State.fld_setFld_self _ _ _ _ _ (Fld.fits_of_le (by decide))
  have hgauge : s.sameBut ({ s with gauge := 0 } : State) [.gauge, .boot, .regs] := fun p hp => by
    cases p with
    | gauge => exact absurd (by decide) hp
    | _ => rfl
  exact ⟨stage_setFld _ (by decide), rfl, rfl, (State.fld_setFld_of_ne _ _ _ _ (by decide)).trans hok, sameBut_trans hgauge (sameBut_trans (sameBut_onBoot _ _ (by decide))
    (sameBut_trans (sameBut_setFld _ _ _ _ _ _ (by decide)) (sameBut_setFld _ _ _ _ _ _ (by decide))))⟩

theorem pllStable_spec {s : State} (hup : s.up = true) (hstage : s.fld .GLB_STATE_STAGE = 1) (href : s.boot.refStable = true) : ∃ t, exec .pllStable s = .next t
    ∧ t.fld .GLB_STATE_STAGE = 2 ∧ t.boot.pllStable = true ∧ t.gauge = 0 ∧ t.fld .CLK_STATE_PLL_OK = 0xF
    ∧ (s.boot.head = true → t.gau = gauMaster ∧ t.fld .STV_STATE_ADDR_VALID = 1) ∧ s.sameBut t [.gauge, .boot, .regs] := by
  obtain ⟨hst, hboot, hgauge, hok, hsame⟩ := clocked_spec s
  have hexec : exec .pllStable s = .next (if s.clocked.boot.head then ((s.clocked.setFld .GAU_STATE_STATE gauMaster).setFld .STV_STATE_ADDR 0).setFld .STV_STATE_ADDR_VALID 1 else s.clocked) :=
    (bootStep_taken _ hup hstage href : execPllStable s = _)
  rw [hboot] at hexec
  generalize s.clocked = u at hst hboot hgauge hok hsame hexec
  cases hhead : s.boot.head with
  | false =>
    rw [hhead, if_neg Bool.false_ne_true] at hexec
    exact ⟨_, hexec, hst, congrArg Boot.pllStable hboot, hgauge, hok, fun h => Bool.noConfusion h, hsame⟩
  | true =>
    rw [hhead, if_pos rfl] at hexec
    have hne : ∀ f : Fld, f.reg.key 0 0 ≠ Reg.GAU_STATE.key 0 0 → f.reg.key 0 0 ≠ Reg.STV_STATE.key 0 0 →
        (((u.setFld .GAU_STATE_STATE gauMaster).setFld .STV_STATE_ADDR 0).setFld .STV_STATE_ADDR_VALID 1).fld f = u.fld f := fun f h1 h2 => by
      rw [State.fld_setFld_of_ne _ _ _ _ (f := .STV_STATE_ADDR_VALID) h2, State.fld_setFld_of_ne _ _ _ _ (f := .STV_STATE_ADDR) h2,
        State.fld_setFld_of_ne _ _ _ _ (f := .GAU_STATE_STATE) h1]
    have hgau : (u.setFld .GAU_STATE_STATE gauMaster).gau = gauMaster := fld_setFld_lt _ _ _ _ _ (Fld.fits_of_le (by decide)) (by decide)
    refine ⟨_, hexec, (hne .GLB_STATE_STAGE (by decide) (by decide)).trans hst, congrArg Boot.pllStable hboot, hgauge, (hne .CLK_STATE_PLL_OK (by decide) (by decide)).trans hok,
      fun _ => ⟨?_, State.fld_setFld_self _ _ _ _ _ (Fld.fits_of_le (by decide))⟩, sameBut_trans hsame (sameBut_trans (sameBut_setFld _ _ _ _ _ _ (by decide))
        (sameBut_trans (sameBut_setFld _ _ _ _ _ _ (by decide)) (sameBut_setFld _ _ _ _ _ _ (by decide))))⟩
    exact (State.fld_setFld_of_ne _ _ _ _ (by decide)).trans ((State.fld_setFld_of_ne _ _ _ _ (by decide)).trans hgau)

/-- The words that the stages after the images' check show. -/
theorem word_ucodes (l : List Nat) (hl : ∀ p ∈ l, p < 153) (v : State → Word) (g : Reg) (hg : g.block * 64 + g.off / 4 ≠ Reg.TIL_UCODE_ID.block * 64 + Reg.TIL_UCODE_ID.off / 4)
    (s : State) : (l.foldl (fun (s : State) p => s.setWord .TIL_UCODE_ID p 0 (v s)) s).word g = s.word g := by
  induction l generalizing s with
  | nil => rfl
  | cons p l ih =>
    have hp : p < 153 := hl p (by simp)
    exact (ih (fun x hx => hl x (List.mem_cons_of_mem _ hx)) _).trans
      (State.word_setWord_of_ne _ _ (Reg.key_ne (by omega) (by omega) (by omega) (by omega) (.inl hg)))

/-- The registers that show the image that starts. -/
def State.imageShown (s : State) : State :=
  (List.range 153).foldl (fun (s : State) p => s.setWord .TIL_UCODE_ID p 0 (BitVec.ofNat 32 s.running.ucode))
    ((s.setWord .GLB_FW_VER 0 0 (BitVec.ofNat 32 s.running.version)).setFld .FWU_STATE_REJECTED (b2n s.other.rejected))

theorem imageStart_eq (s : State) : s.imageStart = ((s.imageShown.onBoot (fun b => { b with imageOk := true })).setFld .GLB_STATE_STAGE 3).keptReports := by
  unfold State.imageStart State.imageShown
  rfl

theorem imageShown_spec (s : State) : s.imageShown.word .GLB_FW_VER = BitVec.ofNat 32 s.running.version ∧ s.sameBut s.imageShown [.boot, .regs] := by
  unfold State.imageShown
  have hver : ((s.setWord .GLB_FW_VER 0 0 (BitVec.ofNat 32 s.running.version)).setFld .FWU_STATE_REJECTED (b2n s.other.rejected)).word .GLB_FW_VER
      = BitVec.ofNat 32 s.running.version := (word_setFld_ne (by decide)).trans (State.word_setWord_self _ _ _ _ _)
  have hsame : s.sameBut ((s.setWord .GLB_FW_VER 0 0 (BitVec.ofNat 32 s.running.version)).setFld .FWU_STATE_REJECTED (b2n s.other.rejected)) [.boot, .regs] :=
    sameBut_trans (sameBut_setWord _ _ _ _ _ _ (by decide)) (sameBut_setFld _ _ _ _ _ _ (by decide))
  generalize (s.setWord .GLB_FW_VER 0 0 (BitVec.ofNat 32 s.running.version)).setFld .FWU_STATE_REJECTED (b2n s.other.rejected) = a at hver hsame ⊢
  exact ⟨(word_ucodes _ (fun p hp => List.mem_range.1 hp) (fun s => BitVec.ofNat 32 s.running.ucode) _ (by decide) a).trans hver,
    sameBut_trans hsame (sameBut_foldl _ (fun _ _ => sameBut_setWord _ _ _ _ _ _ (by decide)) _ _)⟩

theorem keptReports_none {s : State} (hshut : s.pwr.shutdown = false) (hstuck : s.pwr.stuckDue = false) : s.keptReports = s := by
  unfold State.keptReports
  simp [hshut, hstuck]

theorem imageOk_spec {b : State} (hshut : b.pwr.shutdown = false) (hstuck : b.pwr.stuckDue = false) : ∃ t : State,
    ((b.onBoot (fun b => { b with imageOk := true })).setFld .GLB_STATE_STAGE 3).keptReports = t
      ∧ t.fld .GLB_STATE_STAGE = 3 ∧ t.boot.imageOk = true ∧ t.word .GLB_FW_VER = b.word .GLB_FW_VER ∧ b.sameBut t [.boot, .regs] := by
  have hon : (b.onBoot (fun b => { b with imageOk := true })).boot.imageOk = true := rfl
  have hpwr : (b.onBoot (fun b => { b with imageOk := true })).pwr = b.pwr := rfl
  have hword : (b.onBoot (fun b => { b with imageOk := true })).word .GLB_FW_VER = b.word .GLB_FW_VER := State.word_onBoot _ _ _ _ _
  have hsame : b.sameBut (b.onBoot (fun b => { b with imageOk := true })) [.boot, .regs] := sameBut_onBoot _ _ (by decide)
  generalize b.onBoot (fun b => { b with imageOk := true }) = c at hon hpwr hword hsame ⊢
  have hset : c.sameBut (c.setFld .GLB_STATE_STAGE 3) [.regs] := sameBut_setFld _ _ _ _ _ _ (by decide)
  have hpwr' : (c.setFld .GLB_STATE_STAGE 3).pwr = b.pwr := (hset .pwr (by decide)).symm.trans hpwr
  refine ⟨_, keptReports_none ((congrArg Pwr.shutdown hpwr').trans hshut) ((congrArg Pwr.stuckDue hpwr').trans hstuck), stage_setFld _ (by decide),
    (congrArg Boot.imageOk (hset .boot (by decide)).symm).trans hon, (word_setFld_ne (by decide)).trans hword, sameBut_trans hsame (sameBut_mono hset (by decide))⟩

/-- The running image starts, with nothing kept to report. -/
theorem imageStart_spec {s : State} (hshut : s.pwr.shutdown = false) (hstuck : s.pwr.stuckDue = false) :
    s.imageStart.fld .GLB_STATE_STAGE = 3 ∧ s.imageStart.boot.imageOk = true ∧ s.imageStart.word .GLB_FW_VER = BitVec.ofNat 32 s.running.version
      ∧ s.sameBut s.imageStart [.boot, .regs] := by
  obtain ⟨hver, hsame⟩ := imageShown_spec s
  have hpwr : s.imageShown.pwr = s.pwr := (hsame .pwr (by decide)).symm
  obtain ⟨t, ht, hstage, hok, hword, hsame'⟩ := imageOk_spec ((congrArg Pwr.shutdown hpwr).trans hshut) ((congrArg Pwr.stuckDue hpwr).trans hstuck)
  rw [imageStart_eq s, ht]
  exact ⟨hstage, hok, hword.trans hver, sameBut_trans hsame hsame'⟩

theorem exec_imageVerified {s : State} (ok okOther : Bool) (hup : s.up = true) (hstage : s.fld .GLB_STATE_STAGE = 2) (hpll : s.boot.pllStable = true) :
    exec (.imageVerified ok okOther) s = .next (if ok && s.running.present then s.imageStart
      else if okOther && s.other.present && !s.other.rejected && decide (s.fld .SEC_ID_SVN ≤ s.other.svn) then
        ((s.setFld .FWU_STATE_RUNNING (1 - s.fld .FWU_STATE_RUNNING)).setSts .GLB_STS [5]).imageStart
      else s.setFld .GLB_STATE_STAGE 5) :=
  (bootStep_taken _ hup hstage hpll : execImageVerified ok okOther s = _)

/-- No image passes: firmware does not start. -/
theorem imageVerified_recovery {s : State} (okOther : Bool) (hup : s.up = true) (hstage : s.fld .GLB_STATE_STAGE = 2) (hpll : s.boot.pllStable = true)
    (hother : (okOther && s.other.present && !s.other.rejected) = false) : ∃ t, exec (.imageVerified false okOther) s = .next t ∧ t.fld .GLB_STATE_STAGE = 5 ∧ s.sameBut t [.regs] := by
  have hexec := exec_imageVerified false okOther hup hstage hpll
  rw [hother, Bool.false_and, Bool.false_and, if_neg Bool.false_ne_true, if_neg Bool.false_ne_true] at hexec
  exact ⟨_, hexec, stage_setFld _ (by decide), sameBut_setFld _ _ _ _ _ _ (by decide)⟩

/-! ### The memory's channels (R451) -/

theorem exec_lpddr5Trained {s : State} (failed : List Nat) (hup : s.up = true) (hstage : s.fld .GLB_STATE_STAGE = 3) (hok : s.boot.imageOk = true) (hnew : s.boot.trained = false) :
    exec (.lpddr5Trained failed) s = .next (match (failed.filter (fun c => decide (c < 64))).eraseDups with
      | [] => s.onBoot (fun b => { b with trained := true })
      | [c] => (((s.setFld .FLT_SPARES_CHAN_USED 1).setFld .FLT_SPARES_CHAN c).report 1 0x0012 2 c 3 [] 0 false true).onBoot (fun b => { b with trained := true })
      | c :: _ => (s.report 3 0x0008 2 c 3 [] 0).startFail) :=
  (bootStep_taken _ hup hstage (by rw [hok, hnew]; rfl) : execLpddr5Trained failed s = _)

/-- The reserve takes a channel's place. -/
theorem channelRetired_spec (s : State) {c : Nat} (hc : c < 64) : let t := ((s.setFld .FLT_SPARES_CHAN_USED 1).setFld .FLT_SPARES_CHAN c).report 1 0x0012 2 c 3 [] 0 false true
    t.fld .FLT_SPARES_CHAN_USED = 1 ∧ t.fld .FLT_SPARES_CHAN = c := by
  have hused : (s.setFld .FLT_SPARES_CHAN_USED 1).fld .FLT_SPARES_CHAN_USED = 1 := State.fld_setFld_self _ _ _ _ _ (Fld.fits_of_le (by decide))
  have hused' : ((s.setFld .FLT_SPARES_CHAN_USED 1).setFld .FLT_SPARES_CHAN c).fld .FLT_SPARES_CHAN_USED = 1 :=
    (State.fld_setFld_of_disjoint _ _ _ _ (by rfl) (Fld.fits_of_le (by decide)) (by decide)).trans hused
  have hchan : ((s.setFld .FLT_SPARES_CHAN_USED 1).setFld .FLT_SPARES_CHAN c).fld .FLT_SPARES_CHAN = c := fld_setFld_lt _ _ _ _ _ (Fld.fits_of_le (by decide)) hc
  generalize (s.setFld .FLT_SPARES_CHAN_USED 1).setFld .FLT_SPARES_CHAN c = u at hused' hchan
  obtain ⟨v, hv, hword, -⟩ := reg_report (s := u) 1 0x0012 2 c 3 [] 0 false true none (by decide)
  have hspares : v.word .FLT_SPARES = u.word .FLT_SPARES := hword _ _ _ (by decide) (by decide) (by decide)
  intro t
  rw [show t = _ from hv, fld_evalState rfl (Fld.fits_of_le (by decide)) (by decide), fld_evalState rfl (Fld.fits_of_le (by decide)) (by decide)]
  exact ⟨(fld_of_word (f := .FLT_SPARES_CHAN_USED) hspares).trans hused', (fld_of_word (f := .FLT_SPARES_CHAN) hspares).trans hchan⟩

/-- The start has failed: the stage shows it, and the module is FAILED. -/
theorem startFail_spec (s : State) : s.startFail.fld .GLB_STATE_STAGE = 6 ∧ s.startFail.flt.failed = true := by
  let a := (s.onFlt (fun f => { f with failed := true })).setFld .GLB_STATE_STAGE 6
  have ha : a.fld .GLB_STATE_STAGE = 6 := stage_setFld _ (by decide)
  have hfail : a.flt.failed = true := rfl
  have ht : s.startFail = a.stvState.evalState := rfl
  clear_value a
  have hword : a.stvState.evalState.word .GLB_STATE = a.word .GLB_STATE :=
    (word_evalState (by decide) (by decide) (by decide)).trans (word_stvSend (by decide))
  have hflt : a.stvState.flt = a.flt := (sameBut_stvSend a _ _ _ _ (ps := .stave :: eventParts) (by decide) (by decide) .flt (by decide)).symm
  rw [ht]
  refine ⟨(fld_of_word (f := .GLB_STATE_STAGE) hword).trans ha, ?_⟩
  rw [flt_evalState]
  exact (latchNow_keeps _).2.trans ((congrArg Flt.failed hflt).trans hfail)

theorem eraseDups_pair {c d : Nat} (h : c ≠ d) : [c, d].eraseDups = [c, d] := by
  simp [List.eraseDups_cons, Ne.symm h]

/-! ### The last steps (R448, R452) -/

theorem memoryClearDone_spec {s : State} (hup : s.up = true) (hstage : s.fld .GLB_STATE_STAGE = 3) (htrained : s.boot.trained = true) (hnew : s.boot.cleared = false) :
    ∃ t, exec (.memoryClearDone []) s = .next t ∧ t.boot.cleared = true ∧ s.sameBut t [.mem, .boot]
      ∧ (∀ a, a < lpddrBase ∨ drawerBase ≤ a → t.mem.cells.read a = s.mem.cells.read a) ∧ ∀ a, lpddrBase ≤ a → a < drawerBase → t.mem.cells.read a = 0 := by
  have hexec : exec (.memoryClearDone []) s = .next ((s.onMem (fun m => m.clear lpddrBase (drawerBase - lpddrBase))).onBoot (fun b => { b with cleared := true })) := by
    refine (bootStep_taken _ hup hstage (by rw [htrained, hnew]; rfl) : execMemoryClearDone [] s = _).trans (congrArg _ ?_)
    have hnone : (List.range 153).filter ([] : List Nat).contains = [] := List.filter_eq_nil_iff.2 (fun _ _ => Bool.false_ne_true)
    rw [hnone]
    rfl
  have hend : lpddrBase + (drawerBase - lpddrBase) = drawerBase := by decide
  refine ⟨_, hexec, rfl, sameBut_trans (sameBut_onMem _ _ (by decide)) (sameBut_onBoot _ _ (by decide)), fun a ha => ?_, fun a hlo hhi => ?_⟩
  · exact Memory.read_clear_outside _ _ _ _ (by rw [hend]; exact ha)
  · exact Memory.read_clear_inside _ _ _ _ hlo (by rw [hend]; exact hhi)

/-- The module with its settings restored. -/
def State.settled (s : State) (us : Nat) : State :=
  let a := s.restoreRegs.restoreRealms
  let b := (((a.onSrv (fun v => { v with refills := a.gauge / 65536 })).setFld .GLB_STATE_READY 1).setFld .GLB_STATE_STAGE 4).setWord .GLB_START_TIME 0 0 (BitVec.ofNat 32 us)
  b.crcRefWrite (configCrc b.regs)

/-- What READY's register and the reference show. -/
theorem readyShown_spec (a : State) (us v : Nat) : let t := (((a.setFld .GLB_STATE_READY (b2n true)).setFld .GLB_STATE_STAGE 4).setWord .GLB_START_TIME 0 0 (BitVec.ofNat 32 us)).crcRefWrite v
    t.flag .GLB_STATE_READY = true ∧ t.fld .GLB_STATE_STAGE = 4 ∧ t.word .GLB_START_TIME = BitVec.ofNat 32 us ∧ t.boot.hasCommit = true := by
  have hready : (a.setFld .GLB_STATE_READY (b2n true)).flag .GLB_STATE_READY = true := flag_setFld_self _ _ _ _ (Fld.fits_of_le (by decide)) (by decide)
  generalize a.setFld .GLB_STATE_READY (b2n true) = b at hready ⊢
  have hready' : (b.setFld .GLB_STATE_STAGE 4).flag .GLB_STATE_READY = true :=
    (flag_of_fld (State.fld_setFld_of_disjoint _ _ _ _ (by rfl) (Fld.fits_of_le (by decide)) (by decide))).trans hready
  have hstage : (b.setFld .GLB_STATE_STAGE 4).fld .GLB_STATE_STAGE = 4 := stage_setFld _ (by decide)
  generalize b.setFld .GLB_STATE_STAGE 4 = c at hready' hstage ⊢
  have htime : (c.setWord .GLB_START_TIME 0 0 (BitVec.ofNat 32 us)).word .GLB_START_TIME = BitVec.ofNat 32 us := State.word_setWord_self _ _ _ _ _
  have hstate : (c.setWord .GLB_START_TIME 0 0 (BitVec.ofNat 32 us)).word .GLB_STATE = c.word .GLB_STATE := State.word_setWord_of_ne _ _ (by decide)
  generalize c.setWord .GLB_START_TIME 0 0 (BitVec.ofNat 32 us) = d at htime hstate ⊢
  obtain ⟨-, -, -, hhas, -, -⟩ := crcRefWrite_spec d v
  have hkeep : ∀ g : Reg, g.key 0 0 ≠ Reg.GLB_CFG_CRC_REF.key 0 0 → (d.crcRefWrite v).word g = d.word g := fun g hg =>
    (State.word_onBoot _ _ _ _ _).trans (State.word_setWord_of_ne _ _ hg)
  intro t
  exact ⟨(flag_of_fld (fld_of_word (f := .GLB_STATE_READY) ((hkeep _ (by decide)).trans hstate))).trans hready',
    (fld_of_word (f := .GLB_STATE_STAGE) ((hkeep _ (by decide)).trans hstate)).trans hstage, (hkeep _ (by decide)).trans htime, hhas⟩

theorem settled_spec (s : State) (us : Nat) : (s.settled us).flag .GLB_STATE_READY = true ∧ (s.settled us).fld .GLB_STATE_STAGE = 4
    ∧ (s.settled us).word .GLB_START_TIME = BitVec.ofNat 32 us ∧ (s.settled us).boot.hasCommit = true := by
  unfold State.settled
  generalize s.restoreRegs.restoreRealms = a
  exact readyShown_spec _ us _

/-- READY is set. -/
theorem settingsRestored_spec {s : State} (us : Nat) (hup : s.up = true) (hstage : s.fld .GLB_STATE_STAGE = 3) (hclear : s.boot.cleared = true) :
    ∃ t, exec (.settingsRestored us) s = .next t ∧ t.flag .GLB_STATE_READY = true ∧ t.fld .GLB_STATE_STAGE = 4 ∧ t.word .GLB_START_TIME = BitVec.ofNat 32 us
      ∧ t.boot.hasCommit = true := by
  have hexec : exec (.settingsRestored us) s = .next (s.settled us).evalState := (bootStep_taken _ hup hstage hclear : execSettingsRestored us s = _)
  obtain ⟨hready, hst, htime, hhas⟩ := settled_spec s us
  generalize s.settled us = u at hexec hready hst htime hhas
  have hboot : u.evalState.boot = u.boot := ((reportStep_evalState u).1 .boot (by decide)).symm
  exact ⟨_, hexec, (flag_of_fld (fld_of_word (f := .GLB_STATE_READY) (word_evalState (by decide) (by decide) (by decide)))).trans hready,
    (fld_of_word (f := .GLB_STATE_STAGE) (word_evalState (by decide) (by decide) (by decide))).trans hst, (word_evalState (by decide) (by decide) (by decide)).trans htime,
    (congrArg Boot.hasCommit hboot).trans hhas⟩

/-- Settles O50, part by part: the reset by register, what a reset leaves, and the stages of the power-on sequence. -/
theorem resetsClearAndBringUpFollows : Obligations.ResetsClearAndBringUpFollows := by
  unfold Obligations.ResetsClearAndBringUpFollows
  refine ⟨fun s hup => ⟨⟨_, exec_resetArm mgmt_not_realm hup, rfl, sameBut_onBoot _ _ (by decide)⟩, exec_resetArm fw_not_realm hup, exec_resetGo fw_not_realm hup,
      fun x hx => ⟨fun hle => ?_, fun hlt => ?_⟩, fun hnone => ?_⟩,
    fun s cause hcause halert => restart_leaves hcause halert, fun s head bench => ?_, fun s hup => ⟨refStable_spec hup, pllStable_spec hup,
      fun okOther hstage hpll => ⟨fun hpres hshut hstuck => ?_, imageVerified_recovery false hup hstage hpll rfl, fun hpres hrej => ?_⟩, fun hstage hok hnew => ⟨?_, fun c hc => ?_, fun c d hc hd hne => ?_⟩,
      memoryClearDone_spec hup, fun us => settingsRestored_spec us hup⟩⟩
  · exact (exec_resetGo mgmt_not_realm hup).trans (congrArg _ ((resetGo_armed hx).1 hle))
  · exact (exec_resetGo mgmt_not_realm hup).trans (congrArg _ ((resetGo_armed hx).2 hlt))
  · exact (exec_resetGo mgmt_not_realm hup).trans (congrArg _ (resetGo_unarmed hnone))
  · let u : State := { s with boot := { s.boot with powered := true, head := head, bench := bench }, pwr := { s.pwr with aux := true } }
    obtain ⟨hsame, -⟩ := restart_spec u (cause := 0) (by decide)
    have hboot : (u.restart 0).boot = u.dieFresh.boot := (hsame .boot (by decide)).symm
    exact ⟨u.restart 0, rfl, congrArg Boot.powered hboot, congrArg Boot.head hboot, congrArg Boot.bench hboot⟩
  · have hexec := exec_imageVerified true okOther hup hstage hpll
    rw [hpres, Bool.true_and, if_pos rfl] at hexec
    exact ⟨_, hexec, imageStart_spec hshut hstuck⟩
  · exact imageVerified_recovery okOther hup hstage hpll (by rw [hrej, Bool.not_true, Bool.and_false])
  · exact ⟨_, exec_lpddr5Trained [] hup hstage hok hnew, rfl, sameBut_onBoot _ _ (by decide)⟩
  · have hexec := exec_lpddr5Trained [c] hup hstage hok hnew
    rw [List.filter_cons_of_pos (by simp [hc]), List.filter_nil, List.eraseDups_cons, List.filter_nil, List.eraseDups_nil] at hexec
    exact ⟨_, hexec, rfl, channelRetired_spec s hc⟩
  · have hexec := exec_lpddr5Trained [c, d] hup hstage hok hnew
    rw [List.filter_cons_of_pos (by simp [hc]), List.filter_cons_of_pos (by simp [hd]), List.filter_nil, eraseDups_pair hne] at hexec
    exact ⟨_, hexec, startFail_spec _⟩

end Sys2Proof.Machine

/-! SUPPORT. Register writes through the windows, and register requests (R11, R450, R455-R458). -/

namespace Sys2Proof.Machine

/-! ### Windows (R455, R456) -/

theorem exec_registerWrite (w : Win) (off size v : Nat) (env : RegEnv) (s : State) : exec (.registerWrite w off size v env) s = .next (s.regWrite w off size v env) := rfl

/-- A write of an aligned word. -/
theorem exec_registerWrite_word {s : State} {w : Win} {off : Nat} (v : Nat) (env : RegEnv) (hup : s.up = true) (hal : off % 4 = 0) :
    exec (.registerWrite w off 4 v env) s = .next (s.write32 w off (v % 2 ^ 32) env) :=
  congrArg _ (regWrite_word v env hup hal)

theorem regWrite_bad {s : State} {w : Win} {off size : Nat} (v : Nat) (env : RegEnv) (hup : s.up = true) (hbad : accessOk off size = false) :
    s.regWrite w off size v env = s.setSts .GLB_STS [3] := by
  unfold State.regWrite
  rw [hup, hbad]
  rfl

theorem regWrite_double {s : State} {w : Win} {off : Nat} (v : Nat) (env : RegEnv) (hup : s.up = true) (hal : off % 8 = 0) :
    s.regWrite w off 8 v env = (s.write32 w off (v % 2 ^ 32) env).write32 w (off + 4) (v / 2 ^ 32 % 2 ^ 32) env := by
  unfold State.regWrite
  rw [if_neg (by simp [hup]), if_neg (by simp [accessOk, hal]), if_neg (by decide)]

/-- A word beside every page selects nothing. -/
theorem write32_nothing {s : State} {w : Win} {off : Nat} (v : Nat) (env : RegEnv) (hpage : s.pageOf w off = none) (hmsix : msixWord w off = none) : s.write32 w off v env = s := by
  simp only [State.write32, hpage, hmsix]

/-- A word of the MSI-X table. -/
theorem write32_msix {s : State} {w : Win} {off k : Nat} (v : Nat) (env : RegEnv) (hpage : s.pageOf w off = none) (hmsix : msixWord w off = some k) (hpll : s.boot.pllStable = true) :
    s.write32 w off v env = s.onBoot (fun b => { b with msix := Tab.set (fun _ => 0) k (BitVec.ofNat 32 v) b.msix }) := by
  simp only [State.write32, hpage, hmsix]
  exact if_pos hpll

theorem write32_noRow {s : State} {w : Win} {off b u : Nat} (v : Nat) (env : RegEnv) (hpage : s.pageOf w off = some (b, u)) (hrow : (pageReg b off).row = none) :
    s.write32 w off v env = s := by
  simp only [State.write32, hpage, hrow]

theorem openTo_false {s : State} {b u : Nat} (h : s.openTo b u = false) : (!s.pageUp b || s.blockGated b u) = true := by
  unfold State.openTo at h
  cases hp : s.pageUp b <;> simp_all

theorem openTo_true {s : State} {b u : Nat} (h : s.openTo b u = true) : (!s.pageUp b || s.blockGated b u) = false := by
  obtain ⟨hup, hfree⟩ := openTo_iff.1 h
  simp [hup, hfree]

theorem write32_closed {s : State} {w : Win} {off b u : Nat} (v : Nat) (env : RegEnv) (hpage : s.pageOf w off = some (b, u)) (hclosed : s.openTo b u = false) :
    s.write32 w off v env = s := by
  cases hrow : (pageReg b off).row with
  | none => exact write32_noRow v env hpage hrow
  | some x => simp only [State.write32, hpage, hrow, openTo_false hclosed, if_true]

section
variable {s : State} {off b u : Nat} {x : RegRow}

/-- A realm's write of bits that are not its own. -/
theorem write32_realm_drops (v r : Nat) (env : RegEnv) (hpage : s.pageOf (.realm r) off = some (b, u)) (hrow : (pageReg b off).row = some x) (hopen : s.openTo b u = true)
    (hdrop : s.windowOpen r = false ∨ s.realmMask r x u (s.selOf (.realm r) x u) = 0) : s.write32 (.realm r) off v env = s := by
  have hcond : (!s.windowOpen r || s.realmMask r x u (s.selOf (.realm r) x u) == 0) = true := by
    rcases hdrop with h | h <;> simp [h]
  simp only [State.write32, hpage, hrow, openTo_true hopen, Bool.false_eq_true, if_false, hcond, if_true]

/-- A write through the management window to a page of firmware's waits. -/
theorem write32_mgmt_waits (v : Nat) (env : RegEnv) (hpage : s.pageOf .mgmt off = some (b, u)) (hrow : (pageReg b off).row = some x) (hopen : s.openTo b u = true)
    (hdirect : mgmtDirect x.reg = false) (hrealm : realmOnly x.reg = false) : s.write32 .mgmt off v env = s.request x.reg u v := by
  simp only [State.write32, hpage, hrow, openTo_true hopen, Bool.false_eq_true, if_false, hdirect, hrealm]

end

theorem request_spec (s : State) (r : Reg) (u v : Nat) : (s.request r u v).boot.requests = s.boot.requests ++ [⟨r.block, r.off, u, v⟩] ∧ s.sameBut (s.request r u v) [.boot, .regs] :=
  ⟨rfl, sameBut_trans (sameBut_onBoot _ _ (by decide)) (sameBut_setFld _ _ _ _ _ _ (by decide))⟩

/-! ### What a write of firmware's does (R11) -/

/-- A register without a rule of its own takes its writable bits. -/
theorem writeAt_plain {s : State} {w : Win} {x : RegRow} (u sel : Nat) (mask : Word) (v : Nat) (env : RegEnv) (hsqc : x.sqc = 0) (hw1p : x.w1p = 0) (hplain : x.reg ∉ ruledRegs) :
    s.writeAt w x u sel mask v env = s.putReg x u sel mask v := by
  have hne : ∀ r ∈ ruledRegs, x.reg ≠ r := fun r hr h => hplain (h ▸ hr)
  simp only [ruledRegs, List.forall_mem_cons] at hne
  obtain ⟨h1, h2, h3, h4, h5, h6, h7, h8, h9, h10, h11, h12, h13, h14, h15, h16, h17, h18, h19, h20, -⟩ := hne
  simp only [State.writeAt, hsqc, hw1p, ne_eq, not_true_eq_false, if_false, h1, h2, h3, h4, h5, h6, h7, h8, h9, h10, h11, h12, h13, h14, h15, h16, h17, h18, h19, h20,
    or_self, false_and]

theorem putReg_spec (s : State) (x : RegRow) (u sel v : Nat) : let t := s.putReg x u sel 0xFFFFFFFF (v % 2 ^ 32)
    t.word x.reg u sel = ((s.word x.reg u sel &&& ~~~x.rw) ||| (BitVec.ofNat 32 v &&& x.rw)) ∧ s.sameBut t [.regs] ∧ s.regsBut t [x.reg.key u sel] := by
  have hmask : x.rw &&& 0xFFFFFFFF = x.rw := BitVec.and_allOnes
  have hv : BitVec.ofNat 32 (v % 2 ^ 32) = BitVec.ofNat 32 v := by
    apply BitVec.eq_of_toNat_eq
    simp
  intro t
  have ht : t = s.setWord x.reg u sel ((s.word x.reg u sel &&& ~~~x.rw) ||| (BitVec.ofNat 32 v &&& x.rw)) := by
    simp only [t, State.putReg, hmask, hv]
  rw [ht]
  exact ⟨State.word_setWord_self _ _ _ _ _, sameBut_setWord _ _ _ _ _ _ (by decide), regsBut_setWord _ _ _ _ _ _ (List.mem_singleton.2 rfl)⟩

/-! ### Register requests (R457) -/

/-- The oldest request is taken. -/
def State.requestTaken (s : State) (l : List Req) : State := (s.onBoot (fun b => { b with requests := l })).setFld .GLB_STATE_REQ_PEND (satAt 255 l.length)

theorem requestTaken_spec (s : State) (l : List Req) : (s.requestTaken l).boot = { s.boot with requests := l }
    ∧ (s.requestTaken l).fld .GLB_STATE_REQ_PEND = satAt 255 l.length % 256 ∧ s.sameBut (s.requestTaken l) [.boot, .regs] ∧ s.regsBut (s.requestTaken l) [Reg.GLB_STATE.key 0 0] :=
  ⟨rfl, State.fld_setFld_self _ _ _ _ _ (Fld.fits_of_le (by decide)), sameBut_trans (sameBut_onBoot _ _ (by decide)) (sameBut_setFld _ _ _ _ _ _ (by decide)),
    regsBut_setFld (s.onBoot (fun b => { b with requests := l })) _ _ _ _ _ (by decide)⟩

theorem requestApply_none {s : State} (env : RegEnv) (hup : s.up = true) (hmp : s.flt.mpDown = false) (h : s.boot.requests = []) : exec (.registerRequestApply env) s = .next s := by
  change execRegisterRequestApply env s = _
  rw [execRegisterRequestApply, whenUp_of_up _ hup, if_neg (by rw [hmp]; exact Bool.false_ne_true)]
  simp only [h]

section
variable {s : State} {q : Req} {l : List Req}

theorem requestApply_noRow (env : RegEnv) (hup : s.up = true) (hmp : s.flt.mpDown = false) (h : s.boot.requests = q :: l) (hrow : (Reg.mk q.block q.off).row = none) :
    exec (.registerRequestApply env) s = .next (s.requestTaken l) := by
  change execRegisterRequestApply env s = _
  rw [execRegisterRequestApply, whenUp_of_up _ hup, if_neg (by rw [hmp]; exact Bool.false_ne_true)]
  simp only [h, hrow]
  rfl

theorem requestApply_row {x : RegRow} (env : RegEnv) (hup : s.up = true) (hmp : s.flt.mpDown = false) (h : s.boot.requests = q :: l) (hrow : (Reg.mk q.block q.off).row = some x)
    (hopen : (s.requestTaken l).openTo q.block q.unit = true) : exec (.registerRequestApply env) s = .next ((s.requestTaken l).fwWrite x q.unit q.value env) := by
  change execRegisterRequestApply env s = _
  rw [execRegisterRequestApply, whenUp_of_up _ hup, if_neg (by rw [hmp]; exact Bool.false_ne_true)]
  simp only [h, hrow]
  exact congrArg _ (if_neg (Bool.eq_false_iff.1 (openTo_true hopen)))

end

/-- Settles O51: `write32` and `regWrite` case by case, `writeAt_plain` for a register without a rule of its own, and the oldest request. -/
theorem registerWritesTakeTheirBits : Obligations.RegisterWritesTakeTheirBits := by
  unfold Obligations.RegisterWritesTakeTheirBits
  refine ⟨fun s w off size v env hup => ⟨fun hbad => ?_, fun hal => congrArg _ (regWrite_double v env hup hal), fun hal hpage hmsix => ?_, fun k hal hpage hmsix hpll => ?_,
      fun b u hal hpage => ⟨fun hrow => ?_, fun hclosed => ?_, fun x hrow hopen => ⟨?_, ?_, ?_⟩⟩⟩,
    fun s env hup hmp => ⟨requestApply_none env hup hmp, fun q l hreq => ?_⟩⟩
  · exact ⟨_, (exec_registerWrite w off size v env s).trans (congrArg _ (regWrite_bad v env hup hbad)), stsBit_setSts _ (by decide), sameBut_sts _ _ _ _ (List.Subset.refl _)⟩
  · exact (exec_registerWrite_word v env hup hal).trans (congrArg _ (write32_nothing _ env hpage hmsix))
  · exact ⟨_, (exec_registerWrite_word v env hup hal).trans (congrArg _ (write32_msix _ env hpage hmsix hpll)), Tab.get_set_self _ _ _ _, sameBut_onBoot _ _ (by decide)⟩
  · exact (exec_registerWrite_word v env hup hal).trans (congrArg _ (write32_noRow _ env hpage hrow))
  · exact (exec_registerWrite_word v env hup hal).trans (congrArg _ (write32_closed _ env hpage hclosed))
  · rintro r rfl hdrop
    exact (exec_registerWrite_word v env hup hal).trans (congrArg _ (write32_realm_drops _ r env hpage hrow hopen hdrop))
  · rintro rfl hdirect hrealm
    exact ⟨_, (exec_registerWrite_word v env hup hal).trans (congrArg _ (write32_mgmt_waits _ env hpage hrow hopen hdirect hrealm)), request_spec _ _ _ _⟩
  · rintro rfl hrealm hsqc hw1p hplain
    refine ⟨_, _, (exec_registerWrite_word v env hup hal).trans (congrArg _ ((write32_fw _ env hpage hrow hopen).trans ?_)), rfl, putReg_spec s x u _ v⟩
    rw [State.fwWrite, hrealm, if_neg Bool.false_ne_true]
    exact writeAt_plain u _ _ _ env hsqc hw1p hplain
  · obtain ⟨hboot, hpend, hsame, hregs⟩ := requestTaken_spec s l
    exact ⟨s.requestTaken l, hboot, hpend, hsame, hregs, requestApply_noRow env hup hmp hreq, fun x hrow hopen => requestApply_row env hup hmp hreq hrow hopen⟩

end Sys2Proof.Machine

/-! SUPPORT. The supervisor's sideband inputs (R381, R446, R490, R497-R499). -/

namespace Sys2Proof.Machine

/-! ### The supply's state over a report -/

section
variable (s : State)

/-- Of the supply's state an evaluation changes MOD_ALERT_N alone. -/
theorem pwr_modAlert : s.modAlert.pwr = { s.pwr with alert := s.modAlert.pwr.alert } := by
  unfold State.modAlert
  dsimp only
  split <;> rfl

theorem pwr_setSts (g : Reg) (m : List Nat) (u : Nat) : (s.setSts g m u).pwr = s.pwr := (sameBut_setSts s g m u .pwr (by decide)).symm

theorem pwr_emit (a b c d e : Nat) : (s.emit a b c d e).pwr = s.pwr := (sameBut_emit (s := s) a b c d e eventParts (List.Subset.refl _) .pwr (by decide)).symm

theorem pwr_emitTo (l : List Nat) (a b c e : Nat) : (s.emitTo l a b c e).pwr = s.pwr := (sameBut_emitTo s l a b c e (List.Subset.refl _) .pwr (by decide)).symm

theorem side_evalState : s.evalState.pwr.side = s.pwr.side := by
  have hside (a : State) : a.fltShow.modAlert.pwr.side = a.pwr.side := by
    rw [pwr_modAlert]
    rfl
  have key (a : State) (n c : Nat) (l : List Nat) : (if n = a.flt.state then a.fltShow.modAlert else
      (l.foldl (fun s r => s.emit 1 c 0x0012 r (faultPayload 4 0 3 false false 0xFF 0 0)) (a.onFlt (fun f => { f with state := n })).fltShow.modAlert).setSts .FLT_STS [7]).pwr.side
      = a.pwr.side := by
    split
    · exact hside a
    · rw [pwr_setSts, ← (sameBut_foldl _ (fun _ _ => sameBut_emit _ _ _ _ _ eventParts (List.Subset.refl _)) l _ .pwr (by decide) : State.pwr _ = _)]
      exact hside _
  exact key s.latchNow _ _ _

/-- A CORRECTED report leaves the sideband inputs. -/
theorem side_report1 (cause kind index scope : Nat) (realms : List Nat) (detail : Nat) (esc ret : Bool) (from_ : Option Nat) :
    (s.report 1 cause kind index scope realms detail esc ret from_).pwr.side = s.pwr.side := by
  unfold State.report
  extract_lets src s1 s2 s3 own k x1 x2 x3 x4 x5 x6 x7 x8 x9 s4
  refine (side_evalState s4).trans ?_
  have h2 : s2.pwr = s.pwr := (pwr_setSts _ _ _ _).trans (pwr_emitTo _ _ _ _ _ _)
  have h7 : x7.pwr = s3.pwr := by
    simp only [x7]
    split <;> rfl
  have h9 : x9 = x7 := if_neg (by decide)
  have h4 : s4 = x9 := if_neg (by decide)
  rw [h4, h9]
  exact congrArg Pwr.side (h7.trans h2)

/-- A SIDEBAND event and its report leave the inputs. -/
theorem side_sideEvent (payload i : Nat) : (s.sideEvent payload).side i = s.side i := by
  refine side_of_pwr ?_ i
  unfold State.sideEvent
  split
  · exact (side_report1 _ _ _ _ _ _ _ _ _ _).trans (congrArg Pwr.side (pwr_emit s _ _ _ _ _))
  · rfl

theorem stsBit_sideEvent {payload : Nat} {g : Reg} {b u : Nat} (h : s.stsBit g b u = true) : (s.sideEvent payload).stsBit g b u = true := by
  unfold State.sideEvent
  split
  · exact (reportRegs_report _ _ _ _ _ _ _ _ _ _ _).sts _ _ _ (stsBit_emit _ h)
  · exact h

end

/-! ### A filtered change (R497-R499) -/

section
variable {s : State} {i : Nat} {b : Bool}

theorem sideChange_same (t : Nat) (h : (s.side i).level = b) : s.sideChange i b t = (false, s) := if_pos h

/-- A change of an input that is not fast. -/
theorem sideChange_slow {act : Bool} {y : SideIn} (t : Nat) (h : (s.side i).level = !b) (hchange : (s.side i).change b t = (act, y)) (hslow : y.fast = false) :
    s.sideChange i b t = (act, (s.setSide i y).sideAct i (s.side i).effect (fun s => s.restart 1)) := by
  unfold State.sideChange
  dsimp only
  rw [if_neg (by rw [h]; cases b <;> decide), hchange]
  dsimp only
  rw [hslow, Bool.false_and, if_neg Bool.false_ne_true]

/-- The first assertion of an input acts. -/
theorem change_asserted (t : Nat) : ({} : SideIn).change true t = (true, { level := true, changes := [t], acted := some t, effect := true }) := by
  simp [SideIn.change]

/-- The only release in its millisecond ends the effect. -/
theorem change_released {x : SideIn} (t : Nat) (hfast : x.fast = false) (hchanges : x.changes = []) :
    x.change false t = (false, { x with level := false, stuck := false, changes := [t], effect := false, count := 0 }) := by
  simp [SideIn.change, hfast, hchanges]

end

/-- FREEZE_N and, where it is not asserted, ALERT_N have no act of their own. -/
theorem sideAct_freeze (s : State) (was : Bool) (reset : State → State) : s.sideAct 0 was reset = s := by
  unfold State.sideAct
  simp

theorem sideAct_alertOff {s : State} (was : Bool) (reset : State → State) (h : (s.side 2).effect = false) : s.sideAct 2 was reset = s := by
  unfold State.sideAct
  simp [h]

theorem sideAct_resetOn {s : State} (reset : State → State) (h : (s.side 1).effect = true) : s.sideAct 1 false reset = reset s := by
  unfold State.sideAct
  simp [h]

theorem sideAct_resetOff {s : State} {was : Bool} (reset : State → State) (h : (s.side 1).effect = false) :
    s.sideAct 1 was reset = if was then s.onBoot (fun b => { b with resetHeld := false }) else s := by
  unfold State.sideAct
  cases was <;> simp [h]

theorem sideAct_alertOn {s : State} (reset : State → State) (h : (s.side 2).effect = true) (hup : s.up = true) : s.sideAct 2 false reset = s.survEnter 4 := by
  unfold State.sideAct
  simp [h, hup]

theorem up_setSide (s : State) (i : Nat) (x : SideIn) : (s.setSide i x).up = s.up := rfl

/-! ### RESET_N (R446) -/

/-- An input after its first assertion. -/
def sideFirst (t : Nat) : SideIn := { level := true, changes := [t], acted := some t, effect := true }

theorem sideChange_first {s : State} {i : Nat} (t : Nat) (h : s.side i = {}) :
    s.sideChange i true t = (true, (s.setSide i (sideFirst t)).sideAct i false (fun s => s.restart 1)) := by
  have hchange := sideChange_slow (s := s) (i := i) (b := true) (act := true) (y := sideFirst t) t (by rw [h]; rfl) (by rw [h]; exact change_asserted t) rfl
  rw [show (s.side i).effect = false from congrArg SideIn.effect h] at hchange
  exact hchange

/-- An input after its release. -/
def SideIn.released (x : SideIn) (t : Nat) : SideIn := { x with level := false, stuck := false, changes := [t], effect := false, count := 0 }

theorem sideChange_last {s : State} {i : Nat} (t : Nat) (hlevel : (s.side i).level = true) (hfast : (s.side i).fast = false) (hchanges : (s.side i).changes = []) :
    s.sideChange i false t = (false, (s.setSide i ((s.side i).released t)).sideAct i (s.side i).effect (fun s => s.restart 1)) :=
  sideChange_slow t hlevel (change_released t hfast hchanges) hfast

theorem resetN_asserted {s : State} (t : Nat) (hlen : s.pwr.side.length = 3) (h : s.side 1 = {}) : ∃ u, exec (.resetNChange true t) s = .next u ∧ u.boot.resetHeld = true
    ∧ u.fld .GLB_RESET_CAUSE_LAST = 1 ∧ (u.side 1).level = true ∧ u.up = false := by
  have hu : (s.setSide 1 (sideFirst t)).side 1 = sideFirst t := side_setSide_self s _ (by omega)
  have hexec : exec (.resetNChange true t) s = .next ((s.setSide 1 (sideFirst t)).restart 1) := by
    change Host.Outcome.next (s.sideChange 1 true t).2 = _
    rw [sideChange_first t h]
    exact congrArg Host.Outcome.next (sideAct_resetOn (fun s => s.restart 1) (congrArg SideIn.effect hu))
  generalize s.setSide 1 (sideFirst t) = u at hu hexec
  obtain ⟨hsame, hside, -, hcause, -⟩ := restart_spec u (cause := 1) (by decide)
  have hheld : (u.restart 1).boot.resetHeld = true := by
    rw [← (hsame .boot (by decide) : u.dieFresh.boot = _)]
    exact congrArg SideIn.effect hu
  refine ⟨_, hexec, hheld, hcause, ?_, ?_⟩
  · rw [side_of_pwr hside, hu]
    rfl
  · unfold State.up
    rw [hheld, Bool.not_true, Bool.and_false, Bool.false_and]

theorem resetN_released {s : State} (t : Nat) (hlen : s.pwr.side.length = 3) (hlevel : (s.side 1).level = true) (hfast : (s.side 1).fast = false)
    (hchanges : (s.side 1).changes = []) (heffect : (s.side 1).effect = true) : ∃ u, exec (.resetNChange false t) s = .next u ∧ u.boot.resetHeld = false
      ∧ (u.side 1).level = false ∧ u.boot = { s.boot with resetHeld := false } := by
  let u := s.setSide 1 ((s.side 1).released t)
  have hu : u.side 1 = (s.side 1).released t := side_setSide_self s _ (by omega)
  have hboot : u.boot = s.boot := rfl
  have hexec : exec (.resetNChange false t) s = .next (u.onBoot (fun b => { b with resetHeld := false })) := by
    change Host.Outcome.next (s.sideChange 1 false t).2 = _
    rw [sideChange_last t hlevel hfast hchanges, heffect]
    exact congrArg Host.Outcome.next ((sideAct_resetOff (fun s => s.restart 1) (congrArg SideIn.effect hu)).trans (if_pos rfl))
  clear_value u
  exact ⟨_, hexec, rfl, congrArg SideIn.level hu, congrArg (fun b : Boot => { b with resetHeld := false }) hboot⟩

/-! ### FREEZE_N (R381) -/

/-- FREEZE_N is asserted: the state that the freeze acts on. -/
theorem exec_freezeNAssert {s : State} (t : Nat) (h : s.side 0 = {}) (hup : s.up = true) : exec (.freezeNAssert t) s = .next ((s.setSide 0 (sideFirst t)).freeze 0) := by
  have hchange : s.sideChange 0 true t = (true, s.setSide 0 (sideFirst t)) := by rw [sideChange_first t h, sideAct_freeze]
  change Host.Outcome.next (if (s.sideChange 0 true t).1 && (s.sideChange 0 true t).2.up then (s.sideChange 0 true t).2.freeze 0 else (s.sideChange 0 true t).2) = _
  rw [hchange]
  exact congrArg Host.Outcome.next (if_pos (by rw [Bool.true_and]; exact hup))

theorem freezeArmed_setSide (s : State) (i : Nat) (x : SideIn) : (s.setSide i x).freezeArmed = s.freezeArmed := by
  have h : (s.setSide i x).fld .SEC_STATE_DEBUG = s.fld .SEC_STATE_DEBUG := fld_of_word (f := .SEC_STATE_DEBUG) ((setSide_spec s i x).2.2 _ (by decide))
  unfold State.freezeArmed
  rw [h]

theorem freezeN_armed {s : State} (t : Nat) (hlen : s.pwr.side.length = 3) (h : s.side 0 = {}) (hup : s.up = true) (harmed : s.freezeArmed = true) :
    ∃ u, exec (.freezeNAssert t) s = .next u ∧ u.flt.frozen = true ∧ (u.side 0).level = true := by
  have hu : (s.setSide 0 (sideFirst t)).side 0 = sideFirst t := side_setSide_self s _ (by omega)
  have hexec := exec_freezeNAssert t h hup
  have harmed' := (freezeArmed_setSide s 0 (sideFirst t)).trans harmed
  generalize s.setSide 0 (sideFirst t) = u at hu hexec harmed'
  obtain ⟨hfrozen, -, hsame⟩ := freeze_armed 0 harmed'
  refine ⟨_, hexec, hfrozen, ?_⟩
  rw [side_of_pwr (congrArg Pwr.side (hsame .pwr (by decide)).symm), hu]
  rfl

theorem freezeN_unarmed {s : State} (t : Nat) (hlen : s.pwr.side.length = 3) (h : s.side 0 = {}) (hup : s.up = true) (harmed : s.freezeArmed = false) :
    ∃ u, exec (.freezeNAssert t) s = .next u ∧ u.flt.frozen = false ∧ u.stsBit .SEC_STS 3 = true ∧ (u.side 0).level = true := by
  have hu : (s.setSide 0 (sideFirst t)).side 0 = sideFirst t := side_setSide_self s _ (by omega)
  have hfree : (s.setSide 0 (sideFirst t)).flt.frozen = false := frozen_of_up ((up_setSide s 0 _).trans hup)
  have hexec := exec_freezeNAssert t h hup
  have harmed' := (freezeArmed_setSide s 0 (sideFirst t)).trans harmed
  generalize s.setSide 0 (sideFirst t) = u at hu hexec harmed' hfree
  obtain ⟨hfrozen, hsts, hsame⟩ := freeze_unarmed 0 harmed'
  refine ⟨_, hexec, hfrozen.trans hfree, hsts, ?_⟩
  rw [side_of_pwr (congrArg Pwr.side (hsame .pwr (by decide)).symm), hu]
  rfl

theorem freezeN_released {s : State} (t : Nat) (hlen : s.pwr.side.length = 3) (hlevel : (s.side 0).level = true) (hfast : (s.side 0).fast = false)
    (hchanges : (s.side 0).changes = []) : ∃ u, exec (.freezeNDeassert t) s = .next u ∧ (u.side 0).level = false ∧ (u.side 0).stuck = false ∧ s.sameBut u [.pwr, .regs] := by
  have hu : (s.setSide 0 ((s.side 0).released t)).side 0 = (s.side 0).released t := side_setSide_self s _ (by omega)
  have hexec : exec (.freezeNDeassert t) s = .next (s.setSide 0 ((s.side 0).released t)) := by
    change Host.Outcome.next (s.sideChange 0 false t).2 = _
    rw [sideChange_last t hlevel hfast hchanges, sideAct_freeze]
  exact ⟨_, hexec, congrArg SideIn.level hu, congrArg SideIn.stuck hu, (setSide_spec _ _ _).2.1⟩

/-! ### ALERT_N (R490) -/

theorem alertN_asserted {s : State} (t : Nat) (hlen : s.pwr.side.length = 3) (h : s.side 2 = {}) (hup : s.up = true) : ∃ u, exec (.alertNChange true t) s = .next u
    ∧ (u.side 2).effect = true ∧ u.pwr.held = some (s.pwr.held.getD 4) ∧ u.flag .THM_STATE_SURVIVAL = true := by
  have hu : (s.setSide 2 (sideFirst t)).side 2 = sideFirst t := side_setSide_self s _ (by omega)
  have hheld : (s.setSide 2 (sideFirst t)).pwr.held = s.pwr.held := by
    rw [(setSide_spec s 2 (sideFirst t)).1]
  have hexec : exec (.alertNChange true t) s = .next ((s.setSide 2 (sideFirst t)).survEnter 4) := by
    change Host.Outcome.next (s.sideChange 2 true t).2 = _
    rw [sideChange_first t h]
    exact congrArg Host.Outcome.next (sideAct_alertOn (fun s => s.restart 1) (congrArg SideIn.effect hu) ((up_setSide s 2 _).trans hup))
  generalize s.setSide 2 (sideFirst t) = u at hu hheld hexec
  obtain ⟨hpwr, hflag, -⟩ := survEnter_spec u 4
  have hside : (u.survEnter 4).pwr.side = u.pwr.side := by rw [hpwr]
  refine ⟨_, hexec, ?_, ?_, hflag⟩
  · rw [side_of_pwr hside, hu]
    rfl
  · rw [hpwr, hheld]

/-! ### Stuck and fast inputs (R498, R499) -/

theorem exec_sidebandStuck {s : State} {i : Nat} (hi : i < 3) (hlevel : (s.side i).level = true) (hstuck : (s.side i).stuck = false) (hbench : s.boot.bench = false) :
    exec (.sidebandStuck i) s = .next (let u := (s.setSide i { s.side i with stuck := true, effect := false }).sideAct i (s.side i).effect id
      if i = 1 then u.onPwr (fun p => { p with stuckDue := true }) else if u.up then (u.setSts .PWR_STS [3]).sideEvent (i + 2 ^ 2) else u) :=
  congrArg Host.Outcome.next (if_neg (by simp [hlevel, hstuck, hbench, hi]))

/-- RESET_N that is stuck releases the reset. -/
theorem sidebandStuck_reset {s : State} (hlen : s.pwr.side.length = 3) (hlevel : (s.side 1).level = true) (hstuck : (s.side 1).stuck = false) (hbench : s.boot.bench = false) :
    ∃ u, exec (.sidebandStuck 1) s = .next u ∧ (u.side 1).stuck = true ∧ (u.side 1).effect = false ∧ u.pwr.stuckDue = true
      ∧ ((s.side 1).effect = true → u.boot.resetHeld = false) := by
  have hexec := exec_sidebandStuck (by decide) hlevel hstuck hbench
  have hu : (s.setSide 1 { s.side 1 with stuck := true, effect := false }).side 1 = { s.side 1 with stuck := true, effect := false } := side_setSide_self s _ (by omega)
  generalize s.setSide 1 { s.side 1 with stuck := true, effect := false } = u at hexec hu
  dsimp only at hexec
  rw [sideAct_resetOff id (congrArg SideIn.effect hu), if_pos rfl] at hexec
  refine ⟨_, hexec, ?_⟩
  cases (s.side 1).effect with
  | false =>
    rw [if_neg Bool.false_ne_true]
    exact ⟨congrArg SideIn.stuck hu, congrArg SideIn.effect hu, rfl, fun h => Bool.noConfusion h⟩
  | true =>
    rw [if_pos rfl]
    exact ⟨congrArg SideIn.stuck hu, congrArg SideIn.effect hu, rfl, fun _ => rfl⟩

/-- The other inputs are reported. -/
theorem sidebandStuck_other {s : State} {i : Nat} (hi : i = 0 ∨ i = 2) (hlen : s.pwr.side.length = 3) (hlevel : (s.side i).level = true) (hstuck : (s.side i).stuck = false)
    (hbench : s.boot.bench = false) : ∃ u, exec (.sidebandStuck i) s = .next u ∧ (u.side i).stuck = true ∧ (u.side i).effect = false ∧ (s.up = true → u.stsBit .PWR_STS 3 = true) := by
  have hexec := exec_sidebandStuck (by omega) hlevel hstuck hbench
  have hu : (s.setSide i { s.side i with stuck := true, effect := false }).side i = { s.side i with stuck := true, effect := false } := side_setSide_self s _ (by omega)
  have hup : (s.setSide i { s.side i with stuck := true, effect := false }).up = s.up := up_setSide _ _ _
  generalize s.setSide i { s.side i with stuck := true, effect := false } = u at hexec hu hup
  have hact : u.sideAct i (s.side i).effect id = u := by
    rcases hi with rfl | rfl
    · exact sideAct_freeze _ _ _
    · exact sideAct_alertOff _ _ (congrArg SideIn.effect hu)
  dsimp only at hexec
  rw [hact, if_neg (by omega), hup] at hexec
  refine ⟨_, hexec, ?_⟩
  cases s.up with
  | false =>
    rw [if_neg Bool.false_ne_true]
    exact ⟨congrArg SideIn.stuck hu, congrArg SideIn.effect hu, fun h => Bool.noConfusion h⟩
  | true =>
    rw [if_pos rfl]
    have hside : ((u.setSts .PWR_STS [3]).sideEvent (i + 2 ^ 2)).side i = { s.side i with stuck := true, effect := false } :=
      (side_sideEvent _ _ _).trans ((side_of_pwr (congrArg Pwr.side (pwr_setSts u _ _ _)) i).trans hu)
    exact ⟨congrArg SideIn.stuck hside, congrArg SideIn.effect hside, fun _ => stsBit_sideEvent _ (stsBit_setSts _ (by decide))⟩

theorem sidebandFastEnd_freeze {s : State} (hlen : s.pwr.side.length = 3) (hfast : (s.side 0).fast = true) : ∃ u, exec (.sidebandFastEnd 0) s = .next u
    ∧ u.side 0 = { s.side 0 with fast := false, changes := [], count := 0, effect := (s.side 0).level && !(s.side 0).stuck } ∧ s.sameBut u [.pwr, .regs] := by
  have hexec : exec (.sidebandFastEnd 0) s = .next ((s.setSide 0 { s.side 0 with fast := false, changes := [], count := 0, effect := (s.side 0).level && !(s.side 0).stuck }).sideAct 0
      (s.side 0).effect (fun s => s.restart 1)) := congrArg Host.Outcome.next (if_neg (by simp [hfast]))
  rw [sideAct_freeze] at hexec
  exact ⟨_, hexec, side_setSide_self _ _ (by omega), (setSide_spec _ _ _).2.1⟩

/-- Settles O53, input by input, from what a filtered change does to an input that is not fast. -/
theorem sidebandInputsAct : Obligations.SidebandInputsAct := by
  unfold Obligations.SidebandInputsAct
  intro s t hlen
  refine ⟨fun b h => congrArg (fun x : Bool × State => Host.Outcome.next x.2) (sideChange_same t h), fun b h => congrArg (fun x : Bool × State => Host.Outcome.next x.2) (sideChange_same t h),
    fun h => congrArg (fun x : Bool × State => Host.Outcome.next x.2) (sideChange_same t h), resetN_asserted t hlen, resetN_released t hlen,
    fun h hup => ⟨freezeN_armed t hlen h hup, freezeN_unarmed t hlen h hup⟩, freezeN_released t hlen, alertN_asserted t hlen,
    fun i hi hlevel hstuck => ⟨fun hbench => congrArg Host.Outcome.next (if_pos (by simp [hbench])), fun hbench => ?_⟩, sidebandFastEnd_freeze hlen,
    fun i h => congrArg Host.Outcome.next (if_pos (by rcases h with h | h <;> simp [h]))⟩
  by_cases h1 : i = 1
  · subst h1
    obtain ⟨u, hexec, hst, heff, hdue, hheld⟩ := sidebandStuck_reset hlen hlevel hstuck hbench
    exact ⟨u, hexec, hst, heff, fun _ => ⟨hdue, hheld⟩, fun h => absurd rfl h⟩
  · obtain ⟨u, hexec, hst, heff, hsts⟩ := sidebandStuck_other (i := i) (by omega) hlen hlevel hstuck hbench
    exact ⟨u, hexec, hst, heff, fun h => absurd h h1, fun _ => hsts⟩

end Sys2Proof.Machine

/-! SUPPORT. A host link reset and the key slots (R397, R447). -/

namespace Sys2Proof.Machine

/-! ### A host link reset with no ring pair and no request -/

theorem ringEnd_none {s : State} (h : s.rings = []) (r n : Nat) : (s.ringEnd r n).2 = s := by
  have hring : s.ring r n = {} := by
    unfold State.ring
    rw [h]
    rfl
  unfold State.ringEnd
  rw [hring]
  change ({ s with rings := Tab.set (fun _ => {}) (ringKey r n) {} s.rings } : State) = s
  obtain ⟨⟩ := s
  simp_all [Tab.set, Tab.del]

theorem endRings_none {s : State} (h : s.rings = []) (r : Nat) : s.endRings r = s := by
  unfold State.endRings
  induction List.range 64 with
  | nil => rfl
  | cons n l ih => rw [List.foldl_cons, ringEnd_none h, ih]

theorem endAllRings_none {s : State} (h : s.rings = []) (l : List Nat) : l.foldl (fun (s : State) r => s.endRings r) s = s := by
  induction l with
  | nil => rfl
  | cons r l ih => rw [List.foldl_cons, endRings_none h, ih]

/-- The keys of four realms are dropped; a slot of another number stays. -/
theorem mem_keys_dropKeys {s : State} {e : Nat × KeySlot} {r : Nat} (h : e ∈ s.keys) (hr : e.1 / 256 ≠ r) : e ∈ (s.dropKeys r).keys :=
  List.mem_filter.2 ⟨h, by simpa using hr⟩

theorem mem_keys_dropAllKeys {s : State} {e : Nat × KeySlot} (h : e ∈ s.keys) (hr : 4 ≤ e.1 / 256) : e ∈ s.dropAllKeys.keys :=
  have hne : ∀ r < 4, e.1 / 256 ≠ r := by omega
  mem_keys_dropKeys (mem_keys_dropKeys (mem_keys_dropKeys (mem_keys_dropKeys h (hne 0 (by decide))) (hne 1 (by decide))) (hne 2 (by decide))) (hne 3 (by decide))

/-- What the reset does besides: the tables of rings empty and the link down, shown and reported. -/
def State.linkDown (s : State) : State :=
  let s : State := { s with rings := [], evRings := [], regs := s.regs.filter (fun e => (Reg.ofKey e.1).block != 4), sqc := s.sqc.filter (fun e => (Reg.ofKey e.1).block != 4) }
  let s := s.dropAllKeys.onBoot (fun b => { b with linkUp := false, msix := [] })
  (s.bumpSat .GLB_RESET_CAUSE_LINK_RESETS 1).setSts .GLB_STS [4]

theorem mem_keys_linkDown {s : State} {e : Nat × KeySlot} (h : e ∈ s.keys) (hr : 4 ≤ e.1 / 256) : e ∈ s.linkDown.keys := by
  let u : State := { s with rings := [], evRings := [], regs := s.regs.filter (fun e => (Reg.ofKey e.1).block != 4), sqc := s.sqc.filter (fun e => (Reg.ofKey e.1).block != 4) }
  have hu : e ∈ u.dropAllKeys.keys := mem_keys_dropAllKeys h hr
  let v := (u.dropAllKeys.onBoot (fun b => { b with linkUp := false, msix := [] })).bumpSat .GLB_RESET_CAUSE_LINK_RESETS 1
  have hv : v.keys = u.dropAllKeys.keys := rfl
  have hsts : v.keys = (v.setSts .GLB_STS [4]).keys := sameBut_sts .GLB_STS [4] 0 eventParts (List.Subset.refl _) .keys (by decide)
  change e ∈ (v.setSts .GLB_STS [4]).keys
  rw [← hsts, hv]
  exact hu

theorem hostLinkReset_idle {s : State} (hup : s.up = true) (hpll : s.boot.pllStable = true) (hrings : s.rings = []) (hreqs : s.srv.reqs = []) :
    exec .hostLinkReset s = .next s.linkDown := by
  have hdead : ({ s with rings := s.rings.map (fun e => (e.1, { e.2 with cqDead := true })) } : State) = s := by
    rw [hrings]
    obtain ⟨⟩ := s
    simp_all
  change execHostLinkReset s = _
  rw [execHostLinkReset, if_neg (by simp [hup, hpll])]
  dsimp only
  rw [hdead, endAllRings_none hrings, hreqs]
  rfl

/-! ### A state in which a key slot of no realm is listed -/

/-- The die runs, and the table of key slots lists slot 0 of a realm 4: no command of the model loads one, but the statement is about every state. -/
def strayKeyState : State := { boot := { powered := true, pllStable := true }, keys := [(1024, {})] }

/-- Refutes O54: the reset drops the key slots of realms 0 to 3, so in `strayKeyState`, whose table lists a slot of a number above them, one stays
and the conjunct that no key is left fails. -/
theorem not_linksAndRailsFail : ¬ Obligations.LinksAndRailsFail := by
  unfold Obligations.LinksAndRailsFail
  intro h
  obtain ⟨hreset, -⟩ := h strayKeyState rfl
  obtain ⟨t, hexec, -, -, hkeys, -⟩ := hreset rfl
  have ht : t = strayKeyState.linkDown := (Host.Outcome.next.inj (hexec.symm.trans (hostLinkReset_idle rfl rfl rfl rfl)))
  have hstays : (1024, ({} : KeySlot)) ∈ strayKeyState.linkDown.keys := mem_keys_linkDown (List.mem_singleton.2 rfl) (by decide)
  rw [← ht, hkeys] at hstays
  exact absurd hstays List.not_mem_nil

end Sys2Proof.Machine
